-- ==== Sys2Proof/Word.lean ====
section
/-!
DEFINITION. The words of the part: registers are 32 bits wide and little-endian (R4), bytes are octets.
-/
namespace Sys2Proof

/-- A register word (R4). -/
abbrev Word := BitVec 32

/-- An octet of a frame, a descriptor or an entry. -/
abbrev Byte := BitVec 8

end Sys2Proof
end

