-- ==== Sys2Proof/Syntax.lean ====
section
/-!
DEFINITION. The commands: one constructor per row of spec/opcode_table.json, in the order of the table, with the row's
operands; and the shapes of those operands.
-/
namespace Sys2Proof

/-- The header of a submission entry (R90), with the function and the ring it was fetched from. `rsvd` says that a
reserved bit of the descriptor is not zero (R124 check 3). -/
structure Hdr where
  fn : Nat
  sq : Nat
  cq : Nat
  tag : Nat
  quiet : Bool
  fence : Bool
  hold : Bool
  validNs : Nat
  rsvd : Bool
deriving DecidableEq, Repr

/-- A 64 B line as the part reads it from host memory: its bytes in order of address (R650). -/
abbrev Line := List Nat

/-- What a host-memory read found: the bytes, or a completion error or poisoned data (R96, R120). -/
inductive HostRead where
  | ok (bytes : List Nat)
  | error
deriving DecidableEq, Repr

/-- The tail word a doorbell poll found for one ring (R85): `SQ_TAIL` and `CQ_HEAD`. -/
structure TailWord where
  ring : Nat
  sqTail : Nat
  cqHead : Nat
deriving DecidableEq, Repr

/-- A doorbell block as a function's driver left it in host memory (R85). -/
structure Doorbell where
  gen : Nat
  evqHead : Nat
  lineMask : Nat
  words : List TailWord
deriving DecidableEq, Repr

/-- What a lane reports at a tick boundary: CDR lock and the signal-to-noise estimate in 1/8 dB at the point in use (R162),
and the neighbouring points that the receive DSP tried, in order, with the estimate at each: 0 one step of CTLE_PEAK up,
1 down, 2 one step of CTLE_DC up, 3 down (R163). -/
structure LaneReading where
  lane : Nat
  lock : Bool
  snr8 : Nat
  trials : List (Nat × Nat)
deriving DecidableEq, Repr

/-- What a raw lane received in the tick (R175): its words, each the levels of its symbols in the order received (0 and 1 at
NRZ rungs, 0 to 3 at PAM4 rungs), and the bit errors that the PRBS checker found. -/
structure RawReading where
  lane : Nat
  words : List (List Nat)
  errors : Nat
deriving DecidableEq, Repr

/-- A block of a ladder lane as received (R166): sync header, block type, the bytes D1 to D3, the O code and the trailing 28
bits, and whether the pair that it came over is inverted. -/
structure LadderBlock where
  sync : Nat
  ty : Nat
  d1 : Nat
  d2 : Nat
  d3 : Nat
  ocode : Nat
  trail : Nat
  inverted : Bool
deriving DecidableEq, Repr

/-- What a Clause 73 lane takes from its partner (R156, R165, R169): its ability, its request for precoding, and its requests to
move a tap (0 PRE2, 1 PRE1, 2 MAIN, 3 POST1) one unit up or down. -/
structure DmePage where
  ability : Nat
  precode : Bool
  taps : List (Nat × Bool)
deriving DecidableEq, Repr

/-- The shadow entries a flow command reads (R225): the flow entry, and the key entry at its ANCHOR when KEY_LOAD is 1. -/
structure FlowRead where
  flow : HostRead
  key : HostRead
deriving DecidableEq, Repr

/-- A write of CIS_ARB_CFGn (R248, R251): requester, weight, burst and wait limit. -/
structure ArbWrite where
  n : Nat
  weight : Nat
  burst : Nat
  limit : Nat
deriving DecidableEq, Repr

/-- Damage that a merge decision meets: its window line, its pair record, and, bit by bit, the pairs of its octet whose record
and mirror are both unreadable (R362, R363). -/
structure SpeFaults where
  line : Bool
  record : Bool
  unread : Nat
deriving DecidableEq, Repr

/-- A pulse train's settings as TIO_SET gives them (R142). -/
structure TioSet where
  pin : Nat
  mode : Nat
  width : Nat
  perNum : Nat
  perDen : Nat
  startSec : Nat
  startNs : Nat
deriving DecidableEq, Repr

/-- What the port engine and seif sampled of one frame's start (R197, R406, R409): TIME cycles since the TIME edge
before its word, the 500 ps bin of its word-clock edge, and its symbol `sym` of the `word` symbols of the word. -/
structure StampIn where
  back : Nat
  bin : Nat
  sym : Nat
  word : Nat
deriving DecidableEq, Repr

/-- What a calibration of the interval meter finds (R419): the hits of the taps and the reference measurements, in 2^-8 ps. -/
structure ItmCal where
  hits : List Nat
  refs : List Int
deriving DecidableEq, Repr

/-- A frame's head as it reaches the slice input: its port, the MAC it arrives on, its first bytes (up to 128), what the
port engine stamped, and what is found damaged while it is looked up, as (store, index): a table (R106), 7 the metadata of a cell,
8 a directory record (R39, R242, R276). -/
structure HeadIn where
  port : Nat
  express : Bool
  bytes : List Nat
  stamp : StampIn
  damage : List (Nat × Nat)
deriving DecidableEq, Repr

/-- What the port engine found of a frame's end (R195, R203): the bytes behind the first 128, whether a codeword was
uncorrectable, how many fragments it came in, and a fragment error. -/
structure TailIn where
  bytes : List Nat
  uncorr : Bool
  frags : Nat
  fragBad : Bool
deriving DecidableEq, Repr

/-- What the egress read and the port engine find of a copy presented (R255, R275, R276, R305, R319): the bits that read
inverted, as (place of the cell in the frame, bit of its 256 B and CRC-16), the place of a cell whose metadata are damaged, a
cell not yet written, and what the port engine samples for its coarse stamp (R197). -/
structure StartIn where
  flips : List (Nat × Nat)
  linkBad : Option Nat
  underrun : Bool
  taken : Option StampIn
deriving DecidableEq, Repr

/-- What the egress finds of a copy whose last byte has left (R272, R276): the MAC it left on, and the cells whose metadata were
hit in a single bit since the last look. -/
structure EndIn where
  mac : Nat
  upset : List Nat
deriving DecidableEq, Repr

/-- What one monitor gate measured of a candidate slot (R432, R447): its offset against the raw XO in 2^-8 ppb, and its
phase against the outputs of DPLL0 and DPLL1 in ps. -/
structure GateSlot where
  slot : Nat
  raw : Int
  phase0 : Int
  phase1 : Int
deriving DecidableEq, Repr

/-- An extended QL TLV (R453, R454): enhanced SSM code, cascaded eEEC count, and its other bytes. -/
structure QlTlv where
  code : Nat
  eeec : Nat
  other : List Nat
deriving DecidableEq, Repr

/-- A Mywyn message (R488): TYPE, SEQ, EPOCH, the sender's tick number, and its payload words, 128 bits each. -/
structure MyMsg where
  ty : Nat
  seq : Nat
  epoch : Nat
  tick : Nat
  payload : List Nat
deriving DecidableEq, Repr

/-- A candidate slot, and the time since its last edge in ns (R431). -/
structure Quiet where
  slot : Nat
  quiet : Nat
deriving DecidableEq, Repr

/-- A DPLL, and its phase error in ps (R441). -/
structure PhaseIn where
  dpll : Nat
  phase : Int
deriving DecidableEq, Repr

/-- A read of host memory that comes back (R86, R89, R96): the summary line and all tail lines of a kicked read, the
descriptors of a function, or a read that failed: what was read (1 doorbell, 2 descriptor, 3 shadow, 4 inject buffer) at
`addr`, and for a descriptor its submission ring. -/
inductive ReadBack where
  | tails (fn : Nat) (db : Option Doorbell)
  | descriptors (fn : Nat)
  | failed (fn what addr sq : Nat)
deriving DecidableEq, Repr

/-- What the work of a long operation found, where the work is outside the model (R148, R150, R178): whether it failed,
two counts (lines checked; image version and whether it verifies), the bytes it writes to host memory, what it found
damaged, as (store, index) (a table, 9 a window line, by 8 × pair + line, 10 a counter record), and the points of a sweep, as
(bit errors, merit). -/
structure OpEnd where
  fault : Bool
  a : Nat
  b : Nat
  data : List Nat
  damage : List (Nat × Nat)
  points : List (Nat × Nat)
deriving DecidableEq, Repr

/-- What the sensors, the lanes and the stack report at a boundary (R162, R175, R602, R236): lane readings; what the raw
lanes received; the 16 die temperatures and that of the stack in 1/16 °C; and the CORE cycles of work
planned for the ended tick that are still outstanding (R49). -/
structure BoundaryIn where
  lanes : List LaneReading
  raw : List RawReading
  temps : List Int
  stack : Int
  overrun : Nat
deriving DecidableEq, Repr

/-- What the calibration of one lane finds (R179-R181): its merit before and after, the equaliser point on which it
re-centres, and the move of its CDR phase and of its transmit interpolator in 2^-8 ps, where they moved. -/
structure LaneCal where
  lane : Nat
  before : Nat
  after : Nat
  point : Option (Nat × Nat)
  rxMove : Option Int
  txMove : Option Int
deriving DecidableEq, Repr

/-- VDD_CORE as measured, in mV, and for how many µs it has lain there (R584). -/
structure CoreVolt where
  mv : Nat
  us : Nat
deriving DecidableEq, Repr

/-- The commands of the block (spec/opcode_table.json). A header `h` is that of the descriptor (R90); of every other row
the operands are what the outside supplies when it happens. -/
inductive Instr where
  /-- NOP (R122): Igzozel command that does nothing and completes OK. -/
  | nop (h : Hdr)
  /-- COMMIT_AT (R69): Requests a tick-form or instant-form timed commit of staged sets and held table updates. -/
  | commitAt (h : Hdr) (inst : Bool) (scope tick sec ns grain : Nat)
  /-- FLOW_ADD (R225): Loads a new flow entry, and optionally its key entry, from the shadow into the pending generation. -/
  | flowAdd (h : Hdr) (flow : Nat) (check : Bool) (crc : Nat) (r : FlowRead)
  /-- FLOW_DEL (R225): Removes a flow entry, and its anchored key entry, in the pending generation. -/
  | flowDel (h : Hdr) (flow : Nat)
  /-- FLOW_MOD (R225): Replaces an in-use flow entry, and optionally its key entry, from the shadow. -/
  | flowMod (h : Hdr) (flow : Nat) (check : Bool) (crc : Nat) (r : FlowRead)
  /-- FLOW_BULK (R129): Long operation that loads or deletes a range of flow entries in per-tick shares. -/
  | flowBulk (h : Hdr) (first count : Nat) (delete : Bool)
  /-- GROUP_SET (R131): Loads a multicast group entry and its replication-list lines in one generation. -/
  | groupSet (h : Hdr) (group list lines : Nat) (g : HostRead) (ls : List HostRead)
  /-- PLACE_HINT (R134): Records a placement hint or pin for a flow without changing any table entry. -/
  | placeHint (h : Hdr) (flow cache repl : Nat)
  /-- PORT_SET (R138): Sets a port's width, rate, FEC and flags, applied at the next boundary. -/
  | portSet (h : Hdr) (port width rate fec flags mask : Nat)
  /-- LANE_TRAIN (R139): Long operation that runs the bring-up machine on a lane of a down port. -/
  | laneTrain (h : Hdr) (lane mode arg count : Nat)
  /-- LANE_SWEEP (R177): Long operation that writes eye-scan or equaliser-sweep points to a host buffer. -/
  | laneSweep (h : Hdr) (lane mode count addr len : Nat)
  /-- LANE_SLIP (R176): Moves the receive word boundary of a raw or Mywyn lane by a number of bits. -/
  | laneSlip (h : Hdr) (lane bits dir : Nat)
  /-- TIME_SET_INCR (R140): Writes the pending TME_INCR in absolute or ppb form, applied at the next boundary. -/
  | timeSetIncr (h : Hdr) (units incr ppb : Nat)
  /-- TIME_STEP (R141): Accepts a relative or absolute step of device time to take effect in the next tick. -/
  | timeStep (h : Hdr) (abs delta sec ns grain : Nat)
  /-- TIO_SET (R142): Sets a TIO pin's mode and pulse-train schedule as a staged set of the TME. -/
  | tioSet (h : Hdr) (x : TioSet)
  /-- REF_SET (R142): Sets rank, limits, qualification and bandwidth of one candidate of a DPLL as a staged set. -/
  | refSet (h : Hdr) (d n rank : Nat) (revert : Bool) (soft hard qual bw : Nat)
  /-- OUT_ALIGN (R468): Re-aligns selected outputs to their rasters by jump or slew and reports residuals. -/
  | outAlign (h : Hdr) (mask : Nat)
  /-- PAIR_SWAP (R144): Requests a planned handover of the active role between the units of a pair. -/
  | pairSwap (h : Hdr)
  /-- PAIR_COPY (R145): Long operation that sends an immediate full or delta epoch to the standby. -/
  | pairCopy (h : Hdr) (all : Bool)
  /-- CHK_RUN (R517): Long operation that computes a check value over host memory on a check unit. -/
  | chkRun (h : Hdr) (u addr len : Nat)
  /-- CAIRN_EXPORT (R580): Long operation that copies Cairn records of one area to host memory. -/
  | cairnExport (h : Hdr) (area seq count addr len : Nat)
  /-- CAIRN_CLEAR_FIRST (R577): Empties Cairn's first area and erases its flash mirror after a CONFIRM check. -/
  | cairnClearFirst (h : Hdr) (confirm : Nat)
  /-- SCRUB (R148): Long operation that reads and checks selected stores through the scrub requester. -/
  | scrub (h : Hdr) (targets : Nat)
  /-- AUDIT_NOW (R148): Starts a full dust-devil sweep at the next boundary, optionally reclaiming leaks. -/
  | auditNow (h : Hdr) (reclaim : Nat)
  /-- SET_WAKE_BUDGET (R598): Sets the tolerable wake latency of a port or subsystem, which chooses its power state. -/
  | setWakeBudget (h : Hdr) (sub : Bool) (target wakeNs : Nat)
  /-- OP_SUSPEND (R117): Suspends a long operation at the next boundary. -/
  | opSuspend (h : Hdr) (handle : Nat)
  /-- OP_RESUME (R117): Resumes a suspended long operation at the next boundary. -/
  | opResume (h : Hdr) (handle : Nat)
  /-- OP_CANCEL (R117): Cancels a long operation at the next boundary, leaving its cancel outcome. -/
  | opCancel (h : Hdr) (handle : Nat)
  /-- FW_UPDATE (R150): Writes a firmware image to the non-booted slot, verifies it and optionally activates it. -/
  | fwUpdate (h : Hdr) (activate : Bool) (addr len : Nat)
  /-- PKT_INJECT (R112): Injects a host frame through the host port of S0 to an egress queue or as if received. -/
  | pktInject (h : Hdr) (addr len port queue flags launchNs launchGrain : Nat) (buf : HostRead)
  /-- MCTP_READ32 (R606): BMC vendor-defined MCTP command that reads one BAR0 register. -/
  | mctpRead32 (off : Nat)
  /-- MCTP_WRITE32 (R606): BMC vendor-defined MCTP command that writes one permitted BAR0 register. -/
  | mctpWrite32 (off v : Nat)
  /-- SET_ENDPOINT_ID (R606): MCTP control message that assigns the endpoint ID, releasing BMC locks on reassignment. -/
  | setEndpointId (eid : Nat)
  /-- GET_ENDPOINT_ID (R606): MCTP control message that returns the endpoint ID. -/
  | getEndpointId
  /-- GET_MCTP_VERSION_SUPPORT (R606): MCTP control message that returns the supported MCTP versions. -/
  | getMctpVersionSupport (ty : Nat)
  /-- GET_MESSAGE_TYPE_SUPPORT (R606): MCTP control message that returns the supported message types. -/
  | getMessageTypeSupport
  /-- SYS_COMMIT (R57): Write of SYS_COMMIT with GO that requests a commit of staged sets and optionally tables. -/
  | sysCommit (at_ tables : Bool) (scope : Nat)
  /-- SYS_RESET_WARM (R585): Write of SYS_RESET with GO and KIND 0 that causes a warm reset. -/
  | sysResetWarm (who : Nat)
  /-- SYS_RESET_COLD (R585): Write of SYS_RESET with GO and KIND 1 that causes a cold reset. -/
  | sysResetCold (who : Nat)
  /-- SYS_BLOCK_RESET (R585): Resets the registers of the CHK, MBX or OBS block. -/
  | sysBlockReset (mask : Nat)
  /-- START_CLEAR (R595): Write of SYS_START.CLEAR that returns the failed-start count to 0. -/
  | startClear (who : Nat)
  /-- KICK (R89): Write of HST_KICK that makes the device read the doorbell block at once. -/
  | kick (fn : Nat)
  /-- FN_RUN_WRITE (R86): Write of HST_FN_CTRL.RUN that starts or stops polling and fetching for a function. -/
  | fnRunWrite (fn : Nat) (v : Bool)
  /-- QUIESCE (R83): Set of HST_FN_CTRL.QUIESCE that stops fetching until the function's commands have completed. -/
  | quiesce (fn : Nat)
  /-- RING_ENABLE (R84): Write of EN 0 to 1 on a ring that checks its size, slot and vector and resets head and tail. -/
  | ringEnable (fn kind n : Nat)
  /-- RING_DISABLE (R100): Write of EN 0 on a ring that stops it and discards completions waiting for it. -/
  | ringDisable (fn kind n : Nat)
  /-- TIME_SNAPSHOT_READ (R82): Read of HST_TS_SEC_LO that latches full time, tick number and traceable flag for the function. -/
  | timeSnapshotRead (f : Nat)
  /-- TIME_LATCH_READ (R375): Read of TME_TIME_SEC_LO that latches full time for the PF. -/
  | timeLatchRead
  /-- LO_READ (R5): Read of the _LO half of a 64-bit pair that latches _HI for the reading path. -/
  | loRead (who addr : Nat)
  /-- HI_READ (R5): Read of the _HI half that returns and empties the path's latch, or the live half. -/
  | hiRead (who addr : Nat)
  /-- LO_WRITE (R5): Write of the _LO half that is held for the writing path. -/
  | loWrite (who addr v be : Nat)
  /-- HI_WRITE (R5): Write of the _HI half that applies both halves as one 64-bit write. -/
  | hiWrite (who addr v be : Nat)
  /-- SLEW_WRITE (R378): Write of TME_SLEW_AMT that sets or replaces the slew remainder. -/
  | slewWrite (who amount : Nat)
  /-- TXS_POP (R395): Read of TME_INSTi_TXS that pops the oldest transmit stamp of an instance. -/
  | txsPop (i : Nat)
  /-- TIO_IN_POP (R402): Read of TME_TIOn_IN that pops the oldest input edge stamp of a pin. -/
  | tioInPop (n : Nat)
  /-- TME_CFG_WRITE (R383): Write of TME_CFG that changes the servo owner or compatibility mode under identity rules. -/
  | tmeCfgWrite (who : Nat) (compat owner : Bool)
  /-- SERVO_FREQ_WRITE (R384): Owner write of TME_SERVO_FREQ or VALID that offers candidate 12 and restarts its watch. -/
  | servoFreqWrite (who : Nat) (freq : Option Nat) (ctrl : Option (Bool × Nat))
  /-- RELOAD (R161): Write of LN_TABLE_CTRL.RELOAD that rereads the board table from flash. -/
  | reload (table : List Nat)
  /-- CELL_QUERY (R257): Write of OAS_CELL_QUERY with GO that returns one cell's metadata. -/
  | cellQuery (c : Nat)
  /-- REFILL_WRITE (R271): Write of OAS_REFILL that is discarded whole unless HIGH exceeds LOW. -/
  | refillWrite (high low : Nat)
  /-- TIMING_CELLS_WRITE (R270): Accepted write of OAS_TIMING.CELLS that refills the timing list and the free pointers. -/
  | timingCellsWrite (cells : Nat)
  /-- PLACE_QUERY (R240): Write of CLS_PLACE_QUERY with GO that returns a flow's placement. -/
  | placeQuery (flow : Nat)
  /-- ARB_CFG_WRITE (R248): Write of CIS_ARB_CFGn that changes a requester's weight, burst or wait limit and clamps credits. -/
  | arbCfgWrite (n weight burst limit : Nat)
  /-- TLOAD (R346): Write of EGR_TLOAD with GO that loads gate-list or pacing entries from the shadow. -/
  | tload (table hold : Bool) (count first : Nat) (entries : List Line)
  /-- SPE_QUERY (R368): Write of SPE_QUERY with GO that reads a pair record into SPE_RESULT. -/
  | speQuery (pair : Nat)
  /-- SPE_RESET (R368): Write of SPE_RESET with GO that resets a pair record at the next boundary. -/
  | speReset (pair : Nat)
  /-- SKEW_PROBE (R368): Write of SPE_PROBE.EN that starts measuring the leg skew of a pair and clears the skew registers. -/
  | skewProbe (en : Bool) (pair : Nat)
  /-- ITM_GO (R421): Write of SEIF_ITM_CTRL.GO that starts an interval-meter set. -/
  | itmGo (cont : Bool)
  /-- ITM_STOP (R428): Write of SEIF_ITM_CTRL.STOP that ends the running set with RESULT STOPPED. -/
  | itmStop (cont : Bool)
  /-- ITM_CAL_GO (R424): Write of SEIF_ITM_CAL.GO that requests an interval-meter calibration. -/
  | itmCalGo
  /-- SELF_TEST (R519): Write of CHK_UNITn_TEST.GO that queues a self-test job over the test string. -/
  | selfTest (n : Nat)
  /-- ALIVE_CLEAR (R516): Write of CHK_UNITn_CLEAR that returns selected alive contexts to their reset state. -/
  | aliveClear (n ctx : Nat)
  /-- DOORBELL_RING (R532): Write of MBX_DB_SET that sets doorbell bits pending for every receiver. -/
  | doorbellRing (who bits : Nat)
  /-- DOORBELL_MASK_WRITE (R533): Receiver's write of its MBX_DB_MASK, which notifies at once for unmasked pending bits. -/
  | doorbellMaskWrite (who r mask : Nat)
  /-- CHANNEL_BIND (R523): Write of MBX_CHn_BIND that sets or refuses a channel's sender and receiver. -/
  | channelBind (who n : Nat) (valid : Bool) (sender receiver remote : Nat)
  /-- BIND_LOCK (R524): Write of MBX_CTRL.LOCK that locks every channel binding until cold reset. -/
  | bindLock (who : Nat)
  /-- MESSAGE_WORD_WRITE (R526): Sender's write of a channel data word, where DATA15 sets FULL. -/
  | messageWordWrite (who n w v : Nat)
  /-- MESSAGE_READ (R527): Receiver's read of DATA15 that clears FULL. -/
  | messageRead (who n w : Nat)
  /-- FLUSH (R531): Write of MBX_CHn_CTRL.FLUSH that drops a message waiting for the partner. -/
  | flush (who n : Nat)
  /-- LOCK_ACQUIRE (R536): Read of MBX_LOCKk that attempts to acquire the lock and returns the outcome. -/
  | lockAcquire (who : List Nat) (k : Nat)
  /-- LOCK_RELEASE (R538): Owner's write of RELEASE that frees a lock. -/
  | lockRelease (who k : Nat)
  /-- COUNTER_SELECT (R547): Write of OBS_Uu_SELk or IDXk that clears a counter and selects what it counts. -/
  | counterSelect (u k : Nat) (idx : Bool) (w : Nat)
  /-- COUNTER_CLEAR (R549): Write of OBS_Uu_CLEAR that clears selected counters. -/
  | counterClear (u mask : Nat)
  /-- SAMPLER_ENABLE (R562): Write of OBS_SAMPs_CFG.EN that starts or stops a sampler, resetting its tail and counts. -/
  | samplerEnable (k : Nat) (en : Bool)
  /-- CAIRN_ENABLE_WRITE (R576): Write of OBS_CAIRN_CTRL.EN that arms or disarms Cairn. -/
  | cairnEnableWrite (en : Bool)
  /-- CAIRN_INTERVAL_WRITE (R569): Write of OBS_CAIRN_CFG.INTERVAL that changes the interval and closes the current one early. -/
  | cairnIntervalWrite (v : Nat)
  /-- REGISTER_WRITE (R7): Write to any register without a row of its own, acting on each field by its kind. -/
  | registerWrite (who addr v be : Nat) (data : List Line)
  /-- FLR (R118): Function level reset that stops a function, cancels its long operations and releases its shadows and locks. -/
  | flr (fn : Nat)
  /-- PCIE_LINK_DOWN (R119): Link down, hot reset or secondary bus reset acts as an FLR of every function. -/
  | pcieLinkDown (kind ltssm : Nat)
  /-- HST_LINK (R120): The PCIe link changes rate or width, or comes up. -/
  | hstLink (rate width ltssm : Nat)
  /-- VF_ENABLE (R103): Host sets VF Enable and NumVFs, which reassigns PF MSI-X vectors to VFs. -/
  | vfEnable (n : Nat)
  /-- MSIX_UNMASK (R105): Host unmasks an MSI-X vector, and a pending message is sent. -/
  | msixUnmask (fn v : Nat)
  /-- TICK_BOUNDARY (R48): TIME reaches a multiple of 1,000 ns and the device runs the work of CORE cycle 0 and the doorbell slots. -/
  | tickBoundary (x : BoundaryIn)
  /-- QUIET_WINDOW_CAPTURE (R58): At the start of the quiet window each block in scope captures and checks its staged set. -/
  | quietWindowCapture
  /-- GENERATION_SWITCH (R66): The pending generation becomes current at a boundary once its number has drained. -/
  | generationSwitch
  /-- GENERATION_STALL (R68): A waiting switch reaches SYS_GEN_STALL_LIMIT ticks and E250 is raised. -/
  | generationStall
  /-- GENERATION_RETIRE (R65): A non-current generation's drain count reaches 0 and superseded versions are retired. -/
  | generationRetire (n : Nat)
  /-- COMPARATOR_ARM (R70): At the boundary before the instant's tick, or at a skipping step, the timed-commit comparator is armed. -/
  | comparatorArm
  /-- COMPARATOR_RETIRE (R70): The comparator retires, the pending generation becomes current and COMMIT_AT completes. -/
  | comparatorRetire
  /-- DOORBELL_POLL (R86): The device reads a function's summary line and, when DB_GEN changed, its marked tail lines. -/
  | doorbellPoll (fn : Nat) (db : Option Doorbell)
  /-- COMPLETION_POST (R98): A due completion entry is written when its completion ring has room. -/
  | completionPost (fn cq : Nat)
  /-- CQ_INTERRUPT (R104): A completion ring signals its vector when COAL_COUNT entries or COAL_TICKS boundaries are reached. -/
  | cqInterrupt (fn cq : Nat)
  /-- LONG_OP_SHARE (R135): At CORE cycle 1,280 each running long operation takes its share of entry updates. -/
  | longOpShare (reads : List (Nat × List FlowRead))
  /-- LONG_OP_DONE (R116): A long operation's work ends and its final completion is posted. -/
  | longOpDone (slot : Nat) (r : OpEnd)
  /-- SUSPEND_TIMEOUT (R116): A suspended long operation reaches HST_LONG_SUSP_LIMIT ticks and is cancelled. -/
  | suspendTimeout (slot : Nat)
  /-- TIME_STEP_APPLY (R379): At CORE cycle 16 of the tick after acceptance, time is stepped and the tick renumbered. -/
  | timeStepApply
  /-- SLEW_DONE (R378): The slew remainder reaches 0, SLEWING clears and E147 is raised. -/
  | slewDone
  /-- SERVO_TIMEOUT (R384): The owner has not written the servo value for TIMEOUT ticks, so VALID clears and candidate 12 is lost. -/
  | servoTimeout
  /-- FRAME_HEAD (R286): A frame's first 64 B reach the slice input and run through classification, admission, path decision and replication. -/
  | frameHead (x : HeadIn)
  /-- FURTHER_CELL_REQUEST (R289): Each further 256 B received makes another cell request for the frame. -/
  | furtherCellRequest (id : Nat)
  /-- CELL_RETRY (R264): A deferred, CONTENTION-failed or waiting cell request is presented again in a later CORE cycle. -/
  | cellRetry (id : Nat)
  /-- FRAME_END (R195): A frame's end passes the ingress engine, its FCS and length are judged and a store-and-forward copy may be enqueued. -/
  | frameEnd (id : Nat) (x : TailIn)
  /-- FLOW_MISS_DONE (R227): A flow-store read from the Cistern returns and the waiting frames receive their result. -/
  | flowMissDone (i : Nat) (lineBad : Bool)
  /-- WINDOW_READ_DONE (R359): A seamless window read returns and the merge decision is taken for the frame. -/
  | windowReadDone (id : Nat) (line : Bool) (record : Bool) (unread : Nat)
  /-- MISS_QUEUE_ROOM (R229): Room returns in a slice miss queue and the held frame continues. -/
  | missQueueRoom (p : Nat)
  /-- MERGE_QUEUE_ROOM (R360): Room returns in a slice merge queue and the held frame continues. -/
  | mergeQueueRoom (p : Nat)
  /-- CARAVAN_QUEUE_ROOM (R311): Room returns in an egress caravan queue and waiting references proceed. -/
  | caravanQueueRoom (sl : Nat)
  /-- COPY_START (R327): The scheduler selects a queue and a copy is presented to its egress port engine. -/
  | copyStart (p : Nat) (x : StartIn)
  /-- COPY_END (R272): A copy's last byte leaves or it is discarded and its cells are released. -/
  | copyEnd (p : Nat) (x : EndIn)
  /-- PAUSE_FRAME_RECEIVE (R206): A PFC or PAUSE frame received stops or releases paused priorities. -/
  | pauseFrameReceive (p : Nat) (isPfc : Bool) (quanta : List (Nat × Nat)) (all : Nat)
  /-- PAUSE_EXPIRY (R206): A priority's pause time runs out and it may send again. -/
  | pauseExpiry (p prio : Nat)
  /-- XOFF_REFRESH (R205): Half of QUANTA has elapsed and the XOFF for a held priority is sent again. -/
  | xoffRefresh (p prio : Nat)
  /-- HOLD_RELEASE (R296): A held priority's release condition is met, it returns to OPEN and quanta 0 is sent. -/
  | holdRelease (p prio : Nat)
  /-- HOLD_LIMIT (R208): A priority has been held for PRT_HOLD.LIMIT ticks and E036 is raised. -/
  | holdLimit (p prio : Nat) (sending : Bool)
  /-- VENT_START (R209): A priority paused for PRT_VENT.TICKS starts discarding vented classes. -/
  | ventStart (p prio : Nat)
  /-- PREEMPT_VERIFY (R201): A verify mPacket is sent or answered, or verification fails after 3 tries. -/
  | preemptVerify (p kind : Nat)
  /-- PACER_RELEASE (R341): A paced flow's oldest held frame becomes eligible and is released to its queue. -/
  | pacerRelease (k : Nat)
  /-- GATE_CHANGE (R333): A gate-list entry begins and the port's gate states change. -/
  | gateChange (p : Nat)
  /-- GATE_LIST_SWAP (R337): A port starts its new gate list at the first cycle start after the switch. -/
  | gateListSwap (p : Nat)
  /-- SYNC_SEND (R390): A MASTER port sends a Sync at its schedule instant. -/
  | syncSend (p : Nat)
  /-- FOLLOW_UP_SEND (R390): A two-step Sync's Follow_Up leaves with the precise origin timestamp. -/
  | followUpSend (p : Nat)
  /-- DELAY_REQ_SEND (R391): A SLAVE port sends a Delay_Req at a random interval. -/
  | delayReqSend (p : Nat)
  /-- PDELAY_REQ_SEND (R391): A P2P port sends a Pdelay_Req every interval. -/
  | pdelayReqSend (p : Nat)
  /-- DELAY_RESP_SEND (R392): A MASTER port answers an addressed Delay_Req with a Delay_Resp. -/
  | delayRespSend (p : Nat)
  /-- PDELAY_RESP_SEND (R392): A P2P port answers a Pdelay_Req as one-step or two-step responder. -/
  | pdelayRespSend (p : Nat)
  /-- TWOSTEP_ENTRY_AGE (R398): A two-step match entry reaches TME_TWOSTEP.AGE ticks and is freed. -/
  | twostepEntryAge
  /-- ESMC_PDU_RECEIVE (R453): An ESMC PDU is consumed and sets its slot's grade. -/
  | esmcPduReceive (port ssm : Nat) (tlv : Option QlTlv)
  /-- ESMC_TIMEOUT (R453): A slot receives no valid PDU for 5 s and its grade becomes 15. -/
  | esmcTimeout (k : Nat)
  /-- ESMC_INFO_SEND (R454): An information PDU is sent on each enabled port every second. -/
  | esmcInfoSend
  /-- ESMC_EVENT_SEND (R454): An event PDU is sent after a change of the advertised quality. -/
  | esmcEventSend
  /-- INJECT_LAUNCH (R113): An injected frame's launch instant arrives, or its pool gains a cell, and it enters the host port. -/
  | injectLaunch
  /-- REFETCH_DONE (R44): A shadow refetch returns and installs the entry in the newest generation. -/
  | refetchDone (t i : Nat) (r : HostRead)
  /-- REFETCH_RETRY (R44): A failed shadow read is retried once per tick and the entry is marked failed after 8 ticks. -/
  | refetchRetry (t i : Nat)
  /-- SCRUB_PASS (R241): The classifier reads every entry of its stores once every CLS_SCRUB.TICKS ticks. -/
  | scrubPass (damaged : List (Nat × Nat × Nat))
  /-- ARB_CONTEST (R247): The Cistern arbiter grants one requester a burst of lines by wait limit and credit. -/
  | arbContest (w : Option ArbWrite)
  /-- FREE_RING_READ_DONE (R268): A free-ring line read returns 24 pointers into the refill buffer. -/
  | freeRingReadDone (bad : Bool) (line : Nat)
  /-- SWEEP_DUE (R278): A dust-devil sweep falls due and MARK starts, or it is skipped. -/
  | sweepDue
  /-- SWEEP_MARK_DONE (R278): Every walk and ring read has ended and the sweep enters SWEEP. -/
  | sweepMarkDone
  /-- SWEEP_END (R280): The sweep passes the last cell, restores lost cells, reclaims leaks if set and reports totals. -/
  | sweepEnd
  /-- SWEEP_TIMEOUT (R278): MARK lasts PERIOD ticks and the sweep is abandoned. -/
  | sweepTimeout
  /-- PLACE_INTERVAL (R233): Every CLS_PLACE.INTERVAL ticks the placement engine scores flows and chooses moves. -/
  | placeInterval
  /-- FILL_READ_DONE (R239): A FILLING flow's line read completes or fails. -/
  | fillReadDone (flow : Nat) (ok : Bool)
  /-- PLACE_TIMEOUT (R239): A FILLING or MOVING placement lasts 8 ticks and is abandoned. -/
  | placeTimeout (flow : Nat)
  /-- DIRECTORY_REREAD_DONE (R242): A damaged directory record is reread from its Cistern mirror or the flow enters FAILED. -/
  | directoryRereadDone (flow : Nat) (ok : Bool)
  /-- SPE_SWEEP (R361): A sweep pass ages every active pair record and finds silent legs. -/
  | speSweep
  /-- AUDIT_COMPLETE (R366): An audit ends with MATCH, MISMATCH or NOT_SENT. -/
  | auditComplete (u : Nat) (egress : Option (List Nat))
  /-- CHK_JOB_DONE (R511): A check unit's job value is ready and the unit starts its next waiting job. -/
  | chkJobDone (n : Nat) (data : List Nat) (fault : Bool)
  /-- CHK_WAIT (R519): A job has waited WAIT_WARN ticks and E218 is raised. -/
  | chkWait (n : Nat)
  /-- DUMP_DUE (R551): A counter dump falls due and every selected counter is captured, or it is skipped. -/
  | dumpDue
  /-- DUMP_WRITE_DONE (R555): A dump record's sections are written and its header marked DONE. -/
  | dumpWriteDone
  /-- FLOW_PASS_DONE (R558): The flow-counter pass of a dump finishes writing every COUNT flow record. -/
  | flowPassDone (bad : List Nat)
  /-- CAIRN_INTERVAL_CLOSE (R569): Cairn closes an interval and writes a record to its areas. -/
  | cairnIntervalClose
  /-- CAIRN_MIRROR_PROGRAM_DONE (R575): A first-area record's flash programming completes or fails its readback. -/
  | cairnMirrorProgramDone (ok : Bool)
  /-- TIO_PULSE_EDGE (R399): A TIO pulse train's scheduled edge is issued to the pin's aligner. -/
  | tioPulseEdge (n : Nat)
  /-- TIO_INPUT_EDGE (R402): An input edge on a TIO pin is stamped into its FIFO or discarded. -/
  | tioInputEdge (n : Nat) (rising : Bool) (g : Nat)
  /-- SEIF_BEAT (R407): A seif beat ends and yields one phase sample of a direction. -/
  | seifBeat (p d : Nat) (sample : Option Nat)
  /-- SEIF_WINDOW_END (R408): A seif averaging window ends and phase, frequency and state are updated at the next boundary. -/
  | seifWindowEnd (p d back : Nat)
  /-- SEIF_LOST (R412): A direction sees no image-clock edge for 4 beats or exceeds 200 ppm and enters LOST. -/
  | seifLost (p d : Nat) (freq : Bool)
  /-- ITM_START_EDGE (R421): A start edge becomes the pending start or completes a reversed interval. -/
  | itmStartEdge (cycle tap src : Nat)
  /-- ITM_STOP_EDGE (R421): A stop edge completes an interval with the pending start or is held. -/
  | itmStopEdge (cycle tap src : Nat)
  /-- ITM_WIN_EXPIRY (R421): A held stop waits SEIF_ITM_WIN ns without a start and is dropped as IGNORED. -/
  | itmWinExpiry
  /-- ITM_TIMEOUT (R421): A pending start has no stop by TIMEOUT and ends as TIMEOUT. -/
  | itmTimeout
  /-- ITM_CAL_DONE (R424): An interval-meter calibration ends and its residual is recorded. -/
  | itmCalDone (y : ItmCal) (temp : Int)
  /-- REF_GATE_END (R434): A monitor gate ends and candidate states, selection and DPLL holdover are judged at the next boundary. -/
  | refGateEnd (l : List GateSlot)
  /-- REF_SIGNAL_LOSS (R438): A candidate's signal is lost and, when selected, the DPLL freezes its control value. -/
  | refSignalLoss (x : Quiet)
  /-- REF_SIGNAL_RETURN (R434): A lost candidate's signal returns and it starts qualifying. -/
  | refSignalReturn (n : Nat)
  /-- CANDIDATE_QUALIFIED (R434): A qualifying candidate completes QUAL ticks within SOFT_PPB and becomes VALID. -/
  | candidateQualified (d n : Nat)
  /-- HISTORY_SECOND (R449): An XO second ends and a DPLL records its mean control value. -/
  | historySecond
  /-- XO_PPB_UPDATE (R433): Every 1,000 ticks REF updates its XO error measurement. -/
  | xoPpbUpdate
  /-- XO_TRUST_EXPIRY (R433): The last XO update ages past REF_XO_TRUST.S and TRUSTED clears. -/
  | xoTrustExpiry
  /-- DPLL_LOCK_DETECT (R441): The phase error stays within ±1 ns for 1 s and the DPLL enters NARROW. -/
  | dpllLockDetect (x : PhaseIn)
  /-- DPLL_ACQ_TIMEOUT (R441): ACQUIRE lasts ACQ_LIMIT s and the candidate is FAILED with NOLOCK. -/
  | dpllAcqTimeout (d : Nat)
  /-- DPLL_NARROW_STEP (R442): A DPLL halves its bandwidth, or takes the candidate's BW and enters LOCKED. -/
  | dpllNarrowStep (d : Nat)
  /-- DPLL_PHASE_LOSS (R441): The phase error exceeds 10 ns and the DPLL returns to ACQUIRE. -/
  | dpllPhaseLoss (x : PhaseIn)
  /-- SYNTH_LOCK_LOSS (R472): An output's synthesiser or aligner line loses lock and it enters BYPASS. -/
  | synthLockLoss (mask : Nat) (line : Bool)
  /-- BYPASS_RETURN (R473): The source has held lock for RET_MS and an output returns from BYPASS. -/
  | bypassReturn (n : Nat)
  /-- OUT_DIV_LOAD (R462): At t_c changed outputs load new dividers and restart on their rasters. -/
  | outDivLoad
  /-- ALIGN_MOVE_DONE (R469): An output's alignment move ends and its residual is measured in the following tick. -/
  | alignMoveDone (n resid : Nat)
  /-- OUT_GATE_CHANGE (R475): A claim gate opens or closes at an output's falling edge. -/
  | outGateChange (n : Nat) (v : Bool)
  /-- CAL_CHECK (R604): Every 1,000 ticks blocks whose temperature has moved are recalibrated in order. -/
  | calCheck (found : List LaneCal) (resid : List (Nat × Nat))
  /-- THERMAL_TRIP (R603): A sensor reads 115 °C for 1 ms and a cold reset is held until below 95 °C. -/
  | thermalTrip
  /-- AVS_DEVIATION (R584): VDD_CORE lies more than 15 mV from target for 1 ms and E255 is raised. -/
  | avsDeviation (x : CoreVolt)
  /-- SUBSYSTEM_WAKE (R600): A lowered subsystem's condition ends, or a write reaches it, and it wakes. -/
  | subsystemWake (u : Nat) (byWrite : Bool)
  /-- CLAIM_FRAME_RECEIVE (R486): A claim frame on CLAIM_RX is validated and updates the partner's claim. -/
  | claimFrameReceive (sync claim tail : Nat)
  /-- CLAIM_SOURCE_EXPIRY (R485): A claim source misses 4 frames and expires, and the claim is lost when both have. -/
  | claimSourceExpiry (src : Nat)
  /-- CLAIM_MISMATCH (R485): The two claim sources differ for more than 2 ticks and E211 is raised. -/
  | claimMismatch
  /-- HEARTBEAT_BOUNDARY (R492): Every 64 ticks heartbeats are sent and each path is judged hit or miss. -/
  | heartbeatBoundary
  /-- JOIN_WAIT_EXPIRY (R493): JOIN_WAIT heartbeats pass without a partner claim and the unit becomes ALONE as active. -/
  | joinWaitExpiry
  /-- HEARTBEAT_FRAME_RECEIVE (R491): An in-band heartbeat frame is handed to the pair unit and not forwarded. -/
  | heartbeatFrameReceive (m : MyMsg) (check alive : Nat)
  /-- MYWYN_MESSAGE_RECEIVE (R489): A Mywyn message is checked and taken by its TYPE, or discarded. -/
  | mywynMessageReceive (lane : Nat) (m : MyMsg) (check alive : Nat)
  /-- MARKER_ALIGNMENT_LOSS (R487): A Mywyn lane fails 4 marker positions and restarts its boundary search. -/
  | markerAlignmentLoss (k : Nat)
  /-- EPOCH_BOUNDARY (R503): Every 1,024 ticks the active starts a full or delta epoch. -/
  | epochBoundary
  /-- EPOCH_APPLY (R504): The standby applies a complete epoch as one staged set and aligns outputs. -/
  | epochApply
  /-- EPOCH_DISCARD (R505): An incomplete epoch is discarded and E204 raised. -/
  | epochDiscard
  /-- HANDOVER_INSTANT (R497): At T_h roles change and gates move at falling edges, or the handover aborts. -/
  | handoverInstant
  /-- HANDOVER_END (R497): The boundary after the last gate change ends the handover and raises E206. -/
  | handoverEnd
  /-- DRIVER_WATCH (R506): A newly driven shared output shows no edges at its ball and a driver fault is set. -/
  | driverWatch (n : Nat)
  /-- MBX_DATA_SEND (R530): A full channel to the partner sends its message as DATA. -/
  | mbxDataSend (n : Nat)
  /-- MBX_DATA_RECEIVE (R530): A DATA message from the partner is accepted, ignored or answered NAK. -/
  | mbxDataReceive (ch src tog : Nat) (words : List Nat)
  /-- MBX_ACK_RECEIVE (R530): An ACK from the partner clears FULL and REMOTE_WAIT. -/
  | mbxAckReceive (ch : Nat)
  /-- MBX_NAK_RECEIVE (R530): A NAK from the partner schedules a resend. -/
  | mbxNakReceive (ch : Nat)
  /-- MBX_DOORBELL_RECEIVE (R533): A DOORBELL message rings bits as identity 20. -/
  | mbxDoorbellReceive (bits : Nat)
  /-- MBX_RESEND (R530): A NAKed or path-blocked DATA is resent at a heartbeat boundary or on path return. -/
  | mbxResend (n : Nat)
  /-- XWAIT_DETECT (R535): Both channels of a pair stay full past MBX_XWAIT.TICKS and XWAIT is set. -/
  | xwaitDetect (a b : Nat)
  /-- LOCK_HOLD_EXPIRY (R540): A lock held for MBX_LOCK_HOLD.TICKS raises E230. -/
  | lockHoldExpiry (k : Nat)
  /-- JTAG_TAP_RESET (R539): The TAP enters Test-Logic-Reset and JTAG-owned locks are released abandoned. -/
  | jtagTapReset
  /-- LANE_SIGNAL_DETECT (R174): A lane detects signal and moves to NEGOTIATE, or an ABSENT lane restarts bring-up. -/
  | laneSignalDetect (i : Nat)
  /-- LANE_SIGNAL_LOSS (R170): A lane loses signal or CDR lock and its attempt fails or an UP lane restarts. -/
  | laneSignalLoss (i : Nat) (lockOnly : Bool)
  /-- LADDER_BLOCK_SEND (R166): A ladder lane sends a ladder block every 16,384 blocks. -/
  | ladderBlockSend (i : Nat)
  /-- LADDER_BLOCK_RECEIVE (R168): A valid ladder block advances READY, STEP or DONE exchange, or aborts. -/
  | ladderBlockReceive (i : Nat) (b : LadderBlock)
  /-- LANE_RUNG_CHANGE (R168): 1,024 blocks after STEP the transmitter moves to the next rung. -/
  | laneRungChange (i : Nat)
  /-- DME_PAGE_RECEIVE (R169): A Clause 73 page is received and auto-negotiation and link training proceed. -/
  | dmePageReceive (i : Nat) (resolved trained : Bool) (x : DmePage)
  /-- RUNG_TIMEOUT (R170): A bring-up state's timeout expires and the attempt fails. -/
  | rungTimeout (i : Nat) (hwFail : Bool)
  /-- BACKOFF_EXPIRY (R170): A lane's back-off ends and a new attempt starts in SIGNAL_WAIT. -/
  | backoffExpiry (i : Nat)
  /-- PORT_UP (R173): Every lane is UP and seif has a beat each way, so the port comes up. -/
  | portUp (p : Nat)
  /-- POWER_ON (R585): VDD_AON is applied, everything is reset and Cairn's first area is restored. -/
  | powerOn
  /-- RAIL_FAULT (R583): A rail leaves its operating range and internal reset is held. -/
  | railFault
  /-- RESET_PIN (R585): RESET_N is held low for 10 µs and causes a cold reset. -/
  | resetPin
  /-- INTERNAL_RESET_RELEASE (R583): 2 ms after rails and RESET_N are good, internal reset releases, straps are sampled and a start begins. -/
  | internalResetRelease
  /-- ROM_DONE (R591): The boot ROM has detected the XO and read the flash header and moves to VERIFY. -/
  | romDone (sel : Nat) (a b : Option Nat)
  /-- XO_DETECT_TIMEOUT (R591): The XO is not detected within 10 ms and the start fails NO_CLOCK. -/
  | xoDetectTimeout
  /-- VERIFY_DONE (R591): A slot verifies and is loaded, or neither does and the start fails SIGNATURE. -/
  | verifyDone (okA okB : Bool)
  /-- HBM_TRAINING_DONE (R593): HBM training during INIT completes or fails the start with cause HBM. -/
  | hbmTrainingDone (ok : Bool)
  /-- FIRMWARE_READY (R591): C0 sets SYS_STATUS.READY and the device enters service. -/
  | firmwareReady
  /-- NOT_READY_TIMEOUT (R593): READY is not set within 2 s and the start fails. -/
  | notReadyTimeout
  /-- START_RETRY (R591): 1 s after a failed start with count below 3, the start restarts in ROM. -/
  | startRetry
  /-- FAILED_COUNT_RESET (R595): After 60 s in READY the failed-start count returns to 0. -/
  | failedCountReset
  /-- WATCHDOG_EXPIRY (R587): A core watchdog expires, failing a start, resetting the core or causing a warm reset. -/
  | watchdogExpiry (c : Nat)
  /-- XO_LOSS (R588): No XO edge is seen for 1 µs after READY and a warm reset follows. -/
  | xoLoss
  /-- HOST_READ_RETURN (R96): A device read of host memory (tail line, descriptors, shadow entry or inject buffer) returns, so fetched descriptors are accepted or checked, or the read error sets DMA_ERR and raises E243. -/
  | hostReadReturn (r : ReadBack)
  /-- MIRROR_ERASE_DONE (R577): The erase of the Cairn flash mirror started by CAIRN_CLEAR_FIRST completes, MIRROR_BUSY clears and records made during the erase are programmed. -/
  | mirrorEraseDone
  /-- DPLL0_XO_LOCK_TIMEOUT (R593): DPLL0's synthesiser has not locked to the XO within 5 ms during the start, and the start fails with cause NO_CLOCK. -/
  | dpll0XoLockTimeout
  /-- THERMAL_HOLD_RELEASE (R603): After a thermal trip every sensor reads below 95 °C, the held cold reset is released and a start begins with cause THERMAL. -/
  | thermalHoldRelease
  /-- HBM_INTERFACE_ERROR (R252): The HBM interface reports an error that is retried or starts retraining, and E066 is raised. -/
  | hbmInterfaceError (channel kind : Nat)
deriving DecidableEq, Repr

end Sys2Proof
end

