-- ==== Sys2Proof/Decode.lean ====
section
/-!
DEFINITION. Commands spelt by a word. No row of spec/opcode_table.json gives bits: commands reach the block as descriptors
in host memory, register accesses, protocol messages and events, whose operands the constructors of `Instr` carry.
-/
namespace Sys2Proof

/-- The command that a word spells by the table's bits: the table gives no row any. -/
def decodeTableWord (_nbits _w : Nat) : Option Instr := none

end Sys2Proof
end

