-- ==== Sys2Proof/Machine/Table.lean ====
section
/-!
DEFINITION. Sparse tables: a list of (key, value) pairs in one canonical form (keys rising, no entry equal to what an
unlisted key reads as), and the few arithmetic helpers every family uses (saturating counts, bit fields of a number,
little-endian bytes).
-/
namespace Sys2Proof

/-- A sparse table. What an unlisted key reads as is given at each use. -/
abbrev Tab (α : Type) := List (Nat × α)

namespace Machine

/-- The entry of key `k`, or `d` when the key is not listed. -/
def tget {α : Type} (d : α) : Tab α → Nat → α
  | [], _ => d
  | (j, v) :: t, k => if j = k then v else tget d t k

/-- List key `k` with value `v`, in key order. -/
def tins {α : Type} (k : Nat) (v : α) : Tab α → Tab α
  | [] => [(k, v)]
  | (j, w) :: t => if k < j then (k, v) :: (j, w) :: t else if j = k then (k, v) :: t else (j, w) :: tins k v t

/-- Unlist key `k`. -/
def tdel {α : Type} (k : Nat) (t : Tab α) : Tab α := t.filter fun p => p.1 != k

/-- Write `v` at key `k` of a table whose unlisted keys read `d`: writing `d` unlists the key. -/
def tset {α : Type} [DecidableEq α] (d : α) (k : Nat) (v : α) (t : Tab α) : Tab α :=
  if v = d then tdel k t else tins k v t

/-- Change the entry of key `k` by `f`. -/
def tupd {α : Type} [DecidableEq α] (d : α) (k : Nat) (f : α → α) (t : Tab α) : Tab α := tset d k (f (tget d t k)) t

/-- Keys rise strictly. -/
def tsorted {α : Type} : Tab α → Bool
  | [] => true
  | [_] => true
  | (j, _) :: (k, w) :: t => decide (j < k) && tsorted ((k, w) :: t)

/-- The canonical form of a table whose unlisted keys read `d`. -/
def twf {α : Type} [DecidableEq α] (d : α) (t : Tab α) : Bool := tsorted t && t.all fun p => decide (p.2 ≠ d)

/-- Bits hi..lo of `w`. -/
def bits (w hi lo : Nat) : Nat := w / 2 ^ lo % 2 ^ (hi - lo + 1)

/-- `w` with bits hi..lo replaced by `v`. -/
def setBits (w hi lo v : Nat) : Nat :=
  w % 2 ^ lo + v % 2 ^ (hi - lo + 1) * 2 ^ lo + w / 2 ^ (hi + 1) * 2 ^ (hi + 1)

/-- Bit `n` of `w`. -/
def bit (w n : Nat) : Bool := w / 2 ^ n % 2 == 1

/-- 1 for true, 0 for false. -/
def b2n (b : Bool) : Nat := if b then 1 else 0

/-- `a + b`, saturating at `m`. -/
def satAdd (m a b : Nat) : Nat := min m (a + b)

/-- `v` cut to `w` bits. -/
def trunc (w v : Nat) : Nat := v % 2 ^ w

/-- The signed value of the `w`-bit number `v`. -/
def sgn (w v : Nat) : Int := if v % 2 ^ w < 2 ^ (w - 1) then (v % 2 ^ w : Nat) else (v % 2 ^ w : Nat) - (2 ^ w : Nat)

/-- The `w`-bit two's complement of `v`. -/
def unsgn (w : Nat) (v : Int) : Nat := (v % (2 ^ w : Nat)).toNat

/-- `v`, saturated to the signed range of `w` bits. -/
def satS (w : Nat) (v : Int) : Int := max (-(2 ^ (w - 1) : Nat)) (min ((2 ^ (w - 1) : Nat) - 1) v)

/-- The `n` little-endian bytes of `v` (R650). -/
def le : Nat → Nat → List Nat
  | 0, _ => []
  | n + 1, v => v % 256 :: le n (v / 256)

/-- The number whose little-endian bytes are given. -/
def ofLE : List Nat → Nat
  | [] => 0
  | b :: t => b + 256 * ofLE t

/-- The number whose big-endian bytes are given (network order). -/
def ofBE (l : List Nat) : Nat := l.foldl (fun a b => a * 256 + b) 0

/-- The `n` big-endian bytes of `v`. -/
def be (n v : Nat) : List Nat := (le n v).reverse

/-- Exactly `n` bytes: `l` cut, or filled with zeros. -/
def padTo (n : Nat) (l : List Nat) : List Nat := (l ++ List.replicate n 0).take n

/-- Bytes `i` to `i + n - 1` of `l`, zeros past its end. -/
def slice (l : List Nat) (i n : Nat) : List Nat := padTo n (l.drop i)

/-- Even parity of the low `n` bits. -/
def parity : Nat → Nat → Nat
  | 0, _ => 0
  | n + 1, v => (v % 2 + parity n (v / 2)) % 2

/-- `⌈a / b⌉`. -/
def cdiv (a b : Nat) : Nat := (a + b - 1) / b

end Machine
end Sys2Proof
end

