-- ==== Sys2Proof/Machine/Crc.lean ====
section
/-!
DEFINITION. Check values (R510): a CRC of any width in normal form, with reflected or plain input and output, bit by bit;
and the fixed ones of the part: the Ethernet CRC-32 of frames and tables, CRC-32C of the key hashes.
-/
namespace Sys2Proof
namespace Machine

/-- The `n` low bits of `v` in reverse order. -/
def reflect : Nat → Nat → Nat
  | 0, _ => 0
  | n + 1, v => v % 2 * 2 ^ n + reflect n (v / 2)

/-- One bit into a register of `w` bits. -/
def crcBit (w poly r b : Nat) : Nat :=
  let top := r / 2 ^ (w - 1) % 2
  let r := r * 2 % 2 ^ w
  if (top + b) % 2 = 1 then r ^^^ poly else r

/-- Eight bits of `v`, most significant first. -/
def crcByte (w poly r v : Nat) : Nat :=
  [7, 6, 5, 4, 3, 2, 1, 0].foldl (fun r k => crcBit w poly r (v / 2 ^ k % 2)) r

/-- The register after the bytes `d`, from `init`; `refin` takes each byte least significant bit first. -/
def crcBytes (w poly : Nat) (refin : Bool) (init : Nat) (d : List Nat) : Nat :=
  d.foldl (fun r v => crcByte w poly r (if refin then reflect 8 v else v)) init

/-- The check value of a whole string (R510). -/
def checkValue (w poly init : Nat) (refin refout inv : Bool) (d : List Nat) : Nat :=
  let r := crcBytes w (poly % 2 ^ w) refin (init % 2 ^ w) d
  let r := if refout then reflect w r else r
  if inv then 2 ^ w - 1 - r else r

/-- The Ethernet CRC-32. -/
def crc32 (d : List Nat) : Nat := checkValue 32 0x04C11DB7 0xFFFFFFFF true true true d

/-- The CRC of a cell's data (R255). -/
def crc16 (d : List Nat) : Nat := checkValue 16 0x1021 0xFFFF false false false d

/-- CRC-32C from a given initial value (R219, R222). -/
def crc32c (seed : Nat) (d : List Nat) : Nat := checkValue 32 0x1EDC6F41 seed true true true d

end Machine
end Sys2Proof
end

