-- ==== Sys2Proof/Config.lean ====
section
/-!
DEFINITION. What one part or one board fixes and the spec does not state a number for, and the free values: constants
without a body, so that nothing can be proved of what they are. A free value is applied to the counter `freeCtr` of
State, which the step advances; a constant of the part is applied to what it depends on.
-/
namespace Sys2Proof

/-- Sampler jitter (R562; log entry 5). -/
opaque Config.freeJitter : Nat → Nat
/-- Where in the 32 CORE cycles a pause takes hold (R206; log entry 6). -/
opaque Config.freePauseHold : Nat → Nat
/-- Which of the free pointers of an on-die store is handed out (R267; log entry 7). -/
opaque Config.freePick : Nat → Nat
/-- Which free slot of a least-loaded bank a flow takes (R232; log entry 8). -/
opaque Config.freeSlotPick : Nat → Nat
/-- The slope of a seif window of one sample, 2^-8 ppb (R408; log entry 166). -/
opaque Config.freeSlope : Nat → Int
/-- The order of equally scored flows of one cache set (R233; log entry 20). -/
opaque Config.freeTie : Nat → Nat
/-- NEXT of the last cell of a frame (R256; log entry 9). -/
opaque Config.freeNext : Nat → Nat
/-- The random wait of a Delay_Req (R391; log entry 10). -/
opaque Config.freeDelayReq : Nat → Nat
/-- The phase of an output that has returned from bypass (R473; log entry 24). -/
opaque Config.freePhase : Nat → Nat
/-- Distance of neighbouring points of an eye scan: 0 in 1/64 UI, 1 in 1/256 of the outer eye height (R177; log entry 153). -/
opaque Config.scanStep : Nat → Nat
/-- Refresh cycles of the Cistern in a tick: at single and at double rate (R253; log entry 142). -/
opaque Config.refreshCycles : Nat → Nat
/-- A value left in a field the spec calls undefined (log entry 11). -/
opaque Config.freeField : Nat → Nat

/-- PRT_DLY of a mode in ps: direction 0 receive, 1 transmit (R199; log entry 12). -/
opaque Config.dieDelay : Nat → Nat → Nat
/-- Path from a source's ball to the interval meter, in 2^-8 ps (R420; log entry 12). -/
opaque Config.itmPath : Nat → Nat
/-- The serial number of the part (SYS_SERIAL; log entry 12). -/
opaque Config.serial : Nat
/-- The key the part verifies images with (SYS_KEY_ID; log entry 12). -/
opaque Config.keyId : Nat
/-- What the straps of the board give (SYS_STRAPS; log entry 12). -/
opaque Config.strapUnit : Nat
opaque Config.strapMgmt : Nat
/-- The VDD_CORE target the part publishes: so many mV above 700 (R584; log entry 12). -/
opaque Config.avsTarget : Nat

end Sys2Proof
end

