-- ==== Sys2Proof/Machine/RegMap.lean ====
section
/-!
DEFINITION. The register map (R619-R627): every register field of the field tables of spec/, by its manual name, with its
address, width, kind (R7) and value after reset. An address is a BAR0 offset; the function page of function f (BAR2, R81)
stands at 0x0400_0000 + 0x4000 f, its counter page (BAR4, R82) at 0x0500_0000 + 0x1_0000 f. A register group of two
indices is numbered i1 * (count of the second) + i2 (d * 13 + n for REF_Cd_n, f * 256 + n for HST_SQn of function f).
-/
namespace Sys2Proof
namespace Machine

/-- The field kinds of R7. -/
inductive Kind where
  | live | staged | frozen | status | pulse | clear1 | set1 | sticky
deriving DecidableEq, Repr

/-- A register field, by its manual name. -/
inductive Fld where
  | SYS_ID_PART | SYS_ID_VENDOR | SYS_REV_MAJOR | SYS_REV_MINOR | SYS_REV_MAP | SYS_SERIAL_SERIAL | SYS_CAP_SLICES
  | SYS_CAP_VFS | SYS_CAP_HBM_GIB | SYS_FW_RUN_VERSION | SYS_KEY_ID_KEY | SYS_TICK_TICK | SYS_TICK_COUNT_COUNT
  | SYS_SCRATCH_VALUE | SYS_STRAPS_UNIT_ID | SYS_STRAPS_MGMT_SEL | SYS_COMMIT_GO | SYS_COMMIT_AT | SYS_COMMIT_TABLES
  | SYS_COMMIT_SCOPE | SYS_COMMIT_STATUS_PENDING | SYS_COMMIT_STATUS_RESULT | SYS_COMMIT_STATUS_BLOCK
  | SYS_COMMIT_STATUS_APPLIED_TICK | SYS_COMMIT_AT_TICK | SYS_GEN_CUR | SYS_GEN_PEND | SYS_GEN_ARMED | SYS_GEN_HELD
  | SYS_GEN_STALL_TICKS | SYS_GEN_DRAIN_FRAMES | SYS_BUDGET_BULK_SHARE | SYS_TC_HORIZON_TICKS
  | SYS_GEN_STALL_LIMIT_TICKS | SYS_STATUS_READY | SYS_STATUS_PLAYA | SYS_STATUS_START | SYS_START_REASON_COUNT
  | SYS_START_REASON_SWITCHED | SYS_START_REASON_FALLBACK | SYS_START_REASON_SLOT | SYS_START_REASON_FAIL
  | SYS_START_REASON_CAUSE | SYS_START_CLEAR | SYS_RESET_GO | SYS_RESET_KIND | SYS_BLOCK_RESET_BLOCK
  | SYS_BOOT_SELECT | SYS_FW_VER_A_VERSION | SYS_FW_VER_B_VERSION | SYS_CAL_EN | SYS_CAL_DELTA | SYS_THERM_CRIT
  | SYS_THERM_WARN | SYS_TEMP_MAX_SENSOR | SYS_TEMP_MAX_TEMP | SYS_AVS_TARGET_MV | SYS_TEMP_TEMP | SYS_WAKE_SUB_STATE
  | SYS_WAKE_PORT_STATE | SYS_WAKE_PORT_TIMING | SYS_WAKE_BUDGET_PORT_NS | SYS_WAKE_MP_STATE | SYS_WAKE_MP_TIMING
  | HST_PUNT_MAP_EN | HST_PUNT_MAP_FUNC | HST_PUNT_MAP_CQ | HST_LONG_SUSP_LIMIT_TICKS | HST_VF_PERM_CAIRN
  | HST_VF_PERM_CHK | HST_VF_PERM_INJECT | HST_VF_PERM_COMMIT | HST_VF_PERM_TABLES | HST_OP_STATE_STATE
  | HST_OP_STATE_FUNC | HST_OP_STATE_SERIAL | HST_OP_STATE_OPCODE | HST_EV_MASK_MASK | HST_EV_ROUTE_FUNC
  | HST_EV_SEV_SEV | MBX_CTRL_LOCKED | MBX_CTRL_LOCK | MBX_XWAIT_TICKS | MBX_LOCK_HOLD_TICKS | MBX_DB_SET_BITS
  | MBX_DB_PEND_BITS | MBX_DB_MASK_BITS | MBX_CH_BIND_VALID | MBX_CH_BIND_SENDER | MBX_CH_BIND_RECEIVER
  | MBX_CH_BIND_REMOTE | MBX_CH_STATUS_FULL | MBX_CH_STATUS_REMOTE_WAIT | MBX_CH_STATUS_XWAIT | MBX_CH_CTRL_FLUSH
  | MBX_CH_CTRL_DB_EN | MBX_CH_CTRL_DB_BIT | MBX_CH_DATA_WORD | MBX_LOCK_GRANTED | MBX_LOCK_ABANDONED | MBX_LOCK_HELD
  | MBX_LOCK_OWNER | MBX_LOCK_RELEASE | MBX_LOCK_PEEK_GRANTED | MBX_LOCK_PEEK_ABANDONED | MBX_LOCK_PEEK_HELD
  | MBX_LOCK_PEEK_OWNER | OBS_DUMP_CFG_EN | OBS_DUMP_CFG_PORTS | OBS_DUMP_CFG_FLOWS | OBS_DUMP_CFG_PERIOD
  | OBS_DUMP_UNITS_UNITS | OBS_DUMP_BASE_ADDR | OBS_DUMP_SLOTS_SLOTS | OBS_FLOW_BASE_ADDR | OBS_DUMP_STATUS_BUSY
  | OBS_DUMP_STATUS_FLOW_BUSY | OBS_DUMP_SEQ_SEQ | OBS_USER_READ_FUNCS | OBS_USER_UNITS_UNITS | OBS_SAMP_CFG_EN
  | OBS_SAMP_CFG_JITTER | OBS_SAMP_CFG_LOG2 | OBS_SAMP_CFG_MAX_TICK | OBS_SAMP_FILTER_PORT_EN
  | OBS_SAMP_FILTER_CLASS_EN | OBS_SAMP_FILTER_CLASS | OBS_SAMP_FILTER_PORT | OBS_SAMP_BASE_ADDR
  | OBS_SAMP_SIZE_LOG2_SIZE | OBS_SAMP_HEAD_HEAD | OBS_SAMP_TAIL_TAIL | OBS_SAMP_TAKEN_COUNT
  | OBS_SAMP_LOST_FULL_COUNT | OBS_SAMP_LOST_RATE_COUNT | OBS_SAMP_SKIP_BUSY_COUNT | OBS_CAIRN_CTRL_EN
  | OBS_CAIRN_CFG_INTERVAL | OBS_CAIRN_STATUS_MIRROR_BUSY | OBS_CAIRN_STATUS_MIRROR_ERR
  | OBS_CAIRN_STATUS_RESTORE_BAD | OBS_CAIRN_STATUS_LAST_COUNT | OBS_CAIRN_STATUS_FIRST_COUNT
  | OBS_CAIRN_NEXT_SEQ_SEQ | OBS_CAIRN_FIRST_SEQ_SEQ | OBS_CAIRN_BOOT_BOOT | OBS_U_CYC_CYCLES | OBS_U_CNT_VALUE
  | OBS_U_SEL_ALL | OBS_U_SEL_KIND | OBS_U_SEL_ITEM | OBS_U_SEL_SUB | OBS_U_IDX_IDX | OBS_U_OVF_OVF | OBS_U_CLEAR_CNT
  | CHK_CFG_WAIT_WARN | CHK_CFG_CAIRN_UNIT | CHK_UNIT_CFG_REFIN | CHK_UNIT_CFG_REFOUT | CHK_UNIT_CFG_FINAL_INV
  | CHK_UNIT_CFG_POOL | CHK_UNIT_CFG_WIDTH | CHK_UNIT_POLY_POLY | CHK_UNIT_INIT_INIT | CHK_UNIT_STATUS_BUSY
  | CHK_UNIT_STATUS_USER | CHK_UNIT_STATUS_CTX | CHK_UNIT_STATUS_QUEUED | CHK_UNIT_LAST_VALUE | CHK_UNIT_TEST_GO
  | CHK_UNIT_TEST_DONE | CHK_UNIT_TESTV_VALUE | CHK_UNIT_SKIPPED_COUNT | CHK_UNIT_ALIVE_COUNT | CHK_UNIT_CLEAR_CTX
  | TME_CFG_COMPAT | TME_CFG_SERVO_OWNER | TME_STATUS_TRACEABLE | TME_STATUS_STEPPED | TME_STATUS_SLEWING
  | TME_STATUS_STEPS | TME_TRACE_SET | TME_UTC_VALID | TME_UTC_LEAP61 | TME_UTC_LEAP59 | TME_UTC_OFFSET
  | TME_TIME_SEC_SEC | TME_TIME_NS_NS | TME_TIME_FRAC_GRAIN | TME_INCR_INCR | TME_SLEW_AMT_AMOUNT | TME_SLEW_RATE_PPB
  | TME_SLEW_LEFT_LEFT | TME_SERVO_FREQ_FREQ | TME_SERVO_CTRL_VALID | TME_SERVO_CTRL_TIMEOUT | TME_TWOSTEP_AGE
  | TME_STEP_LAST_GRAINS | TME_STEP_TICK_TICK | TME_INST_CFG_EN | TME_INST_CFG_AGENT | TME_INST_CFG_ONE_STEP
  | TME_INST_CFG_DELAY | TME_INST_CFG_TRANSPORT | TME_INST_CFG_PROFILE | TME_INST_CFG_DOMAIN | TME_INST_ID_IDENTITY
  | TME_INST_UNTRACE_ACCURACY | TME_INST_UNTRACE_CLASS | TME_INST_TXS_VALID | TME_INST_TXS_MSG | TME_INST_TXS_PORT
  | TME_INST_TXS_SEQ | TME_INST_TXS_NS_NS | TME_INST_TXS_GRAIN_GRAIN | TME_INST_SRC4_ADDR | TME_INST_SRC6_0_ADDR
  | TME_INST_SRC6_1_ADDR | TME_INST_SRC6_2_ADDR | TME_INST_SRC6_3_ADDR | TME_INST_DMAC_MAC | TME_TIO_MODE_MODE
  | TME_TIO_WIDTH_NS | TME_TIO_PER_NUM_NUM | TME_TIO_PER_DEN_DEN | TME_TIO_START_SEC_SEC | TME_TIO_START_NS_NS
  | TME_TIO_DLY_PS | TME_TIO_IN_VALID | TME_TIO_IN_RISING | TME_TIO_IN_LEFT | TME_TIO_IN_SEC_SEC | TME_TIO_IN_NS_NS
  | TME_TIO_IN_FRAC_GRAIN | TME_TIO_STATUS_RUNNING | TME_TIO_STATUS_SKIPPED | TME_PORT_CFG_INST | TME_PORT_CFG_STATE
  | TME_PORT_CFG_LOG_SYNC | TME_PORT_CFG_LOG_DREQ | TME_PORT_CFG_LOG_PDELAY | TME_PORT_LINK_DELAY | TME_PORT_VLAN_EN
  | TME_PORT_VLAN_PCP | TME_PORT_VLAN_VLAN | SEIF_CFG_AVG | SEIF_CFG_LOCK | SEIF_ITM_CTRL_GO | SEIF_ITM_CTRL_STOP
  | SEIF_ITM_CTRL_CONT | SEIF_ITM_SRC_START_FALL | SEIF_ITM_SRC_START | SEIF_ITM_SRC_STOP_FALL
  | SEIF_ITM_SRC_STOP_SRC | SEIF_ITM_N_N | SEIF_ITM_WIN_NS | SEIF_ITM_TIMEOUT_NS | SEIF_ITM_AGE_AUTO
  | SEIF_ITM_AGE_PPB | SEIF_ITM_STATUS_BUSY | SEIF_ITM_STATUS_CAL_BUSY | SEIF_ITM_STATUS_RESULT
  | SEIF_ITM_STATUS_COUNT | SEIF_ITM_FLAGS_UNDER | SEIF_ITM_FLAGS_REVERSED | SEIF_ITM_FLAGS_TIMEOUT
  | SEIF_ITM_FLAGS_IGNORED | SEIF_ITM_MEAN_MEAN | SEIF_ITM_DEV_DEV | SEIF_ITM_MIN_MIN | SEIF_ITM_MAX_MAX
  | SEIF_ITM_LAST_LAST | SEIF_ITM_CAL_GO | SEIF_ITM_CAL_TEMP | SEIF_ITM_CAL_RESID | SEIF_PORT_STATUS_RX_STATE
  | SEIF_PORT_STATUS_TX_STATE | SEIF_PORT_STATUS_NOREC | SEIF_PORT_STATUS_VALID | SEIF_PORT_PHASE_RX_PHASE
  | SEIF_PORT_PHASE_TX_PHASE | SEIF_PORT_FREQ_FREQ | SEIF_PORT_RESID_ASYM | SEIF_PORT_RESID_PHASE | SEIF_PORT_MOD_RX
  | SEIF_PORT_MOD_TX | SEIF_PORT_PEER_PS | SEIF_PORT_FIBRE_PS | SEIF_PORT_DLOC_PS | SEIF_PORT_ASYM_GRAINS
  | SEIF_PORT_PKG_RX | SEIF_PORT_PKG_TX | SEIF_PORT_BRD_RX | SEIF_PORT_BRD_TX | SEIF_PORT_STEP_PS | REF_CFG_QL_MODE
  | REF_CFG_DIS_GATES | REF_CFG_DISAGREE | REF_SLEW_LIMIT_D1 | REF_SLEW_LIMIT_D0 | REF_MON_GATE_MS | REF_XO_TRUSTED
  | REF_XO_PPB | REF_XO_MEAS_PPB | REF_XO_TRUST_S | REF_HOLD_CFG_START_S | REF_HOLD_CFG_END_S | REF_HOLD_CFG_MIN_S
  | REF_ESMC_EN | REF_ESMC_HOLD_SSM | REF_ESMC_FREE_SSM | REF_QL_MAP_GRADE | REF_QL_EMAP_GRADE | REF_PORTSLOT_PORT
  | REF_IN_CFG_PPS | REF_IN_CFG_FREQ_HZ | REF_ESMC_TXMASK_PORTS | REF_SLOT_OFS_PPB | REF_SLOT_QL_ESMC_SEEN
  | REF_SLOT_QL_ENH | REF_SLOT_QL_GRADE | REF_SLOT_QL_SSM | REF_DPLL_CFG_PBO | REF_DPLL_CFG_PULL
  | REF_DPLL_CFG_ACQ_LIMIT | REF_DPLL_CFG_ACQ_BW | REF_DPLL_STATUS_STATE | REF_DPLL_STATUS_SELECTED
  | REF_DPLL_STATUS_SATURATED | REF_DPLL_STATUS_BW_NOW | REF_DPLL_FREQ_PPB | REF_DPLL_HOLD_PPB
  | REF_DPLL_HOLD_INFO_SHORT | REF_DPLL_HOLD_INFO_ENTRIES | REF_DPLL_PBO_PS | REF_DPLL_PBO_LAST_PS
  | REF_DPLL_HOLD_TICKS_TICKS | REF_DPLL_PHASE_PS | REF_C_CTRL_REVERT | REF_C_CTRL_GRADE | REF_C_CTRL_RANK
  | REF_C_SOFT_PPB | REF_C_HARD_PPB | REF_C_QUAL_TICKS | REF_C_BW_MHZ | REF_C_STATUS_STATE | REF_C_STATUS_REASON
  | REF_C_STATUS_ELIGIBLE | REF_C_STATUS_QUAL_LEFT | OUT_CFG_ALIGN_RATE | OUT_CFG_RET_MS | OUT_SYN1_FREQ
  | OUT_CLK_CFG_EN | OUT_CLK_CFG_OE | OUT_CLK_CFG_SHARED | OUT_CLK_CFG_AUTO_RET | OUT_CLK_CFG_ALIGN_MODE
  | OUT_CLK_CFG_MODE | OUT_CLK_CFG_SRC | OUT_CLK_CFG_DIV | OUT_CLK_FDIV_FDIV | OUT_CLK_WIDTH_WIDTH | OUT_CLK_PHASE_PS
  | OUT_CLK_STATUS_STATE | OUT_CLK_STATUS_NEED_ALIGN | OUT_CLK_STATUS_GATE | OUT_CLK_STATUS_LINE_LOCK
  | OUT_CLK_STATUS_SETTING | OUT_CLK_STATUS_RESID | OUT_CLK_OFS_PS | OUT_CLK_CAL_TEMP | OUT_CLK_CAL_RESID
  | OUT_TIO_CFG_SHARED | OUT_TIO_STATUS_STATE | OUT_TIO_STATUS_GATE | OUT_TIO_STATUS_LINE_LOCK | OUT_TIO_STATUS_RESID
  | PAIR_CFG_EN | PAIR_CFG_INBAND | PAIR_CFG_RANK | PAIR_CFG_JOIN_WAIT | PAIR_CFG_CHK_TX | PAIR_CFG_CHK_RX
  | PAIR_INBAND_PORT | PAIR_INBAND_MAC_MAC | PAIR_STATUS_ROLE | PAIR_STATUS_STATE | PAIR_STATUS_UNIT
  | PAIR_STATUS_PEER_CLAIM | PAIR_STATUS_OWN_CLAIM | PAIR_STATUS_PEER_SRC | PAIR_PATHS_MY0 | PAIR_PATHS_MY1
  | PAIR_PATHS_CLAIM_RX | PAIR_PATHS_MYW_MISS | PAIR_PATHS_INB_MISS | PAIR_EPOCH_SENT_EPOCH | PAIR_EPOCH_HELD_EPOCH
  | PAIR_EPOCH_GAP_EPOCHS | PAIR_TOFS_NS | PAIR_HANDOVER_TICK | PAIR_HEALTH_OWN | PAIR_HEALTH_PEER
  | PAIR_HEALTH_DRV_TIO | PAIR_HEALTH_DRV_CLK | PAIR_COPY_CFG_FULL_EVERY | LN_LADDER_ATTEMPTS
  | LN_LADDER_RUNG_TIMEOUT | LN_LADDER_BACKOFF_BASE | LN_MERIT_MIN_MIN | LN_TABLE_CTRL_RELOAD | LN_TABLE_STATUS_VALID
  | LN_TABLE_STATUS_CRC_ERR | LN_TABLE_STATUS_DEFAULTS | LN_TABLE_STATUS_VERSION | LN_BOARD_ID_ID | LN_CAL_CTRL_EN
  | LN_CAL_CTRL_PER_SLICE | LN_SWEEP_DWELL | LN_CFG_TRAIN | LN_CFG_RAW | LN_CFG_PRBS | LN_CFG_POL_TX_INV
  | LN_CFG_POL_RX_INV | LN_CFG_FIXED_RUNG | LN_CFG_ATTEMPTS | LN_STATUS_STATE | LN_STATUS_RUNG | LN_STATUS_EDGE
  | LN_STATUS_PRECODE_TX | LN_STATUS_PRECODE_RX | LN_STATUS_SIGNAL | LN_STATUS_LOCK | LN_STATUS_PARTNER
  | LN_STATUS_MERIT | LN_STATUS_ATTEMPTS | LN_TXFIR_TAPS | LN_RXEQ_CTLE_PEAK | LN_RXEQ_CTLE_DC | LN_CAL_MERIT_AFTER
  | LN_CAL_MERIT_BEFORE | LN_CAL_TEMP | LN_SLIP_CUM | LN_RAW_MARKER_MARKER | LN_RAW_MATCH_COUNT | LN_PRBS_ERR_ERRORS
  | PRT_PFC_MAP_TIMING | PRT_PFC_MAP_EXPRESS | PRT_PFC_MAP_MEDIA | PRT_PFC_MAP_CONTROL | PRT_PFC_MAP_BEST
  | PRT_MPCFG_MP1 | PRT_MPCFG_MP0 | PRT_MODE_ADMIN_UP | PRT_MODE_UP | PRT_MODE_RATE | PRT_MODE_WIDTH | PRT_MODE_FEC
  | PRT_MODE_PREEMPT | PRT_MODE_PFC | PRT_MODE_ABSORBED | PRT_MODE_PFC_MASK | PRT_MAXLEN_MAXLEN | PRT_DLY_RX
  | PRT_DLY_TX | PRT_PREEMPT_VERIFY | PRT_PREEMPT_ADD_FRAG | PRT_PREEMPT_STATE | PRT_PREEMPT_VERIFY_MS
  | PRT_PFC_QUANTA | PRT_PFC_XOFF_TX | PRT_PFC_XOFF_RX | PRT_HOLD_LIMIT | PRT_VENT_EN | PRT_VENT_TICKS
  | CLS_ROUTER_MAC_MAC | CLS_PCP_MAP_MAP | CLS_MISS_GROUP | CLS_MISS_L3_MC | CLS_MISS_L3_UC | CLS_MISS_L2_MC
  | CLS_MISS_L2_UC | CLS_PLEN4_LEN | CLS_PLEN6_LEN | CLS_SEED_L2_SEED | CLS_SEED_L3_SEED | CLS_SEED_FLOW_SEED
  | CLS_SNOOP_ACTION | CLS_SNOOP_RATE | CLS_PLACE_EN | CLS_PLACE_EXP_RANK | CLS_PLACE_MOVES | CLS_PLACE_INTERVAL
  | CLS_PLACE_BANK_SLOT_RESERVE | CLS_PLACE_BANK_SKEW | CLS_PLACE_AUDIT_UNITS | CLS_SCRUB_TICKS | CLS_PLACE_QUERY_GO
  | CLS_PLACE_QUERY_FLOW | CLS_PLACE_RESULT_DONE | CLS_PLACE_RESULT_STATE | CLS_PLACE_RESULT_WHERE
  | CLS_PLACE_RESULT_PIN | CLS_PLACE_RESULT_BANK | CLS_PLACE_RESULT_CHKU | CLS_PLACE_RESULT_POOL
  | CLS_PLACE_RESULT_REPL | CLS_PLACE_RESULT_GEN | CLS_PINS_PINS | CLS_VERSIONS_USED | CLS_VERSIONS_HELD
  | CIS_ARB_CFG_WEIGHT | CIS_ARB_CFG_BURST | CIS_ARB_CFG_WAIT_LIMIT | CIS_ARB_STAT_CREDIT | CIS_ARB_STAT_WAIT
  | CIS_STATUS_TRAINED | CIS_STATUS_REFRESH_2X | CIS_STATUS_TEMP | CIS_SCRUB_LINES | OAS_TIMING_CELLS
  | OAS_REFILL_HIGH | OAS_REFILL_LOW | OAS_FREE_RING | OAS_ONDIE_REFILL | OAS_ONDIE_CACHED | OAS_DUST_EN
  | OAS_DUST_RECLAIM | OAS_DUST_PERIOD | OAS_DUST_STATUS_STATE | OAS_DUST_STATUS_SWEEPS | OAS_DUST_LEAKED_CELLS
  | OAS_DUST_LOST_CELLS | OAS_CELL_QUERY_GO | OAS_CELL_QUERY_CELL | OAS_CELL_RESULT_DONE | OAS_CELL_RESULT_STATE
  | OAS_CELL_RESULT_HR | OAS_CELL_RESULT_POOL | OAS_CELL_RESULT_MARK | OAS_CELL_RESULT_PAR_ERR | OAS_CELL_RESULT_REF
  | OAS_CELL_LINK_PORT | OAS_CELL_LINK_NEXT | OAS_POOL_LIMIT_LIMIT | OAS_POOL_HDRM_HDRM | OAS_POOL_WARN_HIGH
  | OAS_POOL_WARN_LOW | OAS_POOL_USE_ABOVE_HIGH | OAS_POOL_USE_IN_USE | OAS_POOL_HUSE_HDRM_USE | OAS_HDRM_A_MEDIA
  | OAS_HDRM_A_TIMING | OAS_HDRM_B_BEST | OAS_HDRM_B_CONTROL | SWC_CT_EN | SWC_CT_CLASS | SWC_ADMIT_ALPHA
  | SWC_ADMIT_XON_GAP | SWC_PTP_TC_EN | SWC_PTP_MSG | SWC_PTP_MAX_RES | SWC_STOMP_FRAMES | SWC_HOLD_HELD
  | SWC_HOLD_TICKS | EGR_TLOAD_GO | EGR_TLOAD_TABLE | EGR_TLOAD_HOLD | EGR_TLOAD_COUNT | EGR_TLOAD_FIRST
  | EGR_TLOAD_STATUS_PENDING | EGR_TLOAD_STATUS_RESULT | EGR_TLOAD_STATUS_TICK | EGR_PACE_LATE_NS | EGR_PACE_WARN
  | EGR_PACED_FLOWS | EGR_CLASSQ_MEDIA | EGR_CLASSQ_CONTROL | EGR_CLASSQ_BEST | EGR_SCHED_STRICT_MIN
  | EGR_SCHED_DEMOTE | EGR_SCHED_PMAC | EGR_EXP_RATE | EGR_EXP_BURST | EGR_EXP_LEVEL_LEVEL | EGR_WGT_WEIGHT
  | EGR_GATE_ACTIVE | EGR_GATE_FALLBACK | EGR_GATE_ENTRY | EGR_GATE_GATES | EGR_GATE_SWAP_TICK | SPE_CFG_EN
  | SPE_CFG_JUMP | SPE_CFG_FILL_LAG | SPE_CFG_RESYNC | SPE_SWEEP_TICKS | SPE_QUERY_GO | SPE_QUERY_DONE
  | SPE_QUERY_PAIR | SPE_RESULT_RECORD | SPE_RESET_GO | SPE_RESET_PAIR | SPE_PROBE_EN | SPE_PROBE_PAIR
  | SPE_SKEW_MIN_NS | SPE_SKEW_MAX_NS | SPE_SKEW_SUM_NS | SPE_SKEW_COUNT_COUNT | SPE_AUDIT_LAST_FLOW | HST_KICK_KICK
  | HST_FN_CTRL_RUN | HST_FN_CTRL_QUIESCE | HST_FN_STATUS_QUIET | HST_FN_STATUS_DMA_ERR | HST_FN_STATUS_LONG_OPS
  | HST_DB_BASE_ADDR | HST_EVQ_BASE_ADDR | HST_EVQ_CTRL_EN | HST_EVQ_CTRL_LOG2_SIZE | HST_EVQ_CTRL_VECTOR
  | HST_EVQ_STATUS_ERR | HST_EVQ_STATUS_FULL | HST_EVQ_STATUS_LOST | HST_EVQ_STATUS_INDEX | HST_SHADOW_BASE_ADDR
  | HST_SHADOW_CTRL_EN | HST_SHADOW_CTRL_ENTRIES | HST_SHADOW_STATUS_ACTIVE | HST_SHADOW_STATUS_CONFLICT
  | HST_SQ_BASE_ADDR | HST_SQ_CTRL_EN | HST_SQ_CTRL_LOG2_SIZE | HST_SQ_STATUS_ERR | HST_SQ_STATUS_INDEX
  | HST_CQ_BASE_ADDR | HST_CQ_CTRL_EN | HST_CQ_CTRL_PUNT | HST_CQ_CTRL_SLOT | HST_CQ_CTRL_LOG2_SIZE
  | HST_CQ_CTRL_VECTOR | HST_CQ_CTRL_COAL_COUNT | HST_CQ_CTRL_COAL_TICKS | HST_CQ_STATUS_ERR | HST_CQ_STATUS_FULL
  | HST_CQ_STATUS_INDEX | HST_TS_SEC_SEC | HST_TS_NS_NS | HST_TS_FRAC_TRACEABLE | HST_TS_FRAC_GRAIN
  | HST_TS_TICK_TICK
deriving DecidableEq, Repr

/-- Where a field lies, and how it behaves. -/
structure FldDesc where
  base : Nat   -- address of the register (of its _LO half)
  s1 : Nat     -- stride and count of the first index
  c1 : Nat
  s2 : Nat     -- stride and count of the second index
  c2 : Nat
  hi : Nat
  lo : Nat
  kind : Kind
  rst : Nat    -- value after reset
  pair : Bool  -- held as a _LO/_HI pair (R5)
deriving DecidableEq, Repr

/-- The field tables of spec/, one row a field. -/
def Fld.desc : Fld → FldDesc
  | .SYS_ID_PART => ⟨0x0, 0x0, 1, 0x0, 1, 31, 16, .status, 20768, false⟩
  | .SYS_ID_VENDOR => ⟨0x0, 0x0, 1, 0x0, 1, 15, 0, .status, 19545, false⟩
  | .SYS_REV_MAJOR => ⟨0x4, 0x0, 1, 0x0, 1, 23, 16, .status, 1, false⟩
  | .SYS_REV_MINOR => ⟨0x4, 0x0, 1, 0x0, 1, 15, 8, .status, 0, false⟩
  | .SYS_REV_MAP => ⟨0x4, 0x0, 1, 0x0, 1, 7, 0, .status, 1, false⟩
  | .SYS_SERIAL_SERIAL => ⟨0x8, 0x0, 1, 0x0, 1, 63, 0, .status, 0, true⟩
  | .SYS_CAP_SLICES => ⟨0x10, 0x0, 1, 0x0, 1, 31, 24, .status, 8, false⟩
  | .SYS_CAP_VFS => ⟨0x10, 0x0, 1, 0x0, 1, 23, 16, .status, 15, false⟩
  | .SYS_CAP_HBM_GIB => ⟨0x10, 0x0, 1, 0x0, 1, 15, 8, .status, 8, false⟩
  | .SYS_FW_RUN_VERSION => ⟨0x14, 0x0, 1, 0x0, 1, 31, 0, .status, 0, false⟩
  | .SYS_KEY_ID_KEY => ⟨0x18, 0x0, 1, 0x0, 1, 31, 0, .status, 0, false⟩
  | .SYS_TICK_TICK => ⟨0x20, 0x0, 1, 0x0, 1, 63, 0, .status, 0, true⟩
  | .SYS_TICK_COUNT_COUNT => ⟨0x28, 0x0, 1, 0x0, 1, 63, 0, .status, 0, true⟩
  | .SYS_SCRATCH_VALUE => ⟨0x30, 0x0, 1, 0x0, 1, 31, 0, .live, 0, false⟩
  | .SYS_STRAPS_UNIT_ID => ⟨0x34, 0x0, 1, 0x0, 1, 2, 2, .status, 0, false⟩
  | .SYS_STRAPS_MGMT_SEL => ⟨0x34, 0x0, 1, 0x0, 1, 1, 1, .status, 0, false⟩
  | .SYS_COMMIT_GO => ⟨0x110, 0x0, 1, 0x0, 1, 31, 31, .pulse, 0, false⟩
  | .SYS_COMMIT_AT => ⟨0x110, 0x0, 1, 0x0, 1, 30, 30, .live, 0, false⟩
  | .SYS_COMMIT_TABLES => ⟨0x110, 0x0, 1, 0x0, 1, 29, 29, .live, 0, false⟩
  | .SYS_COMMIT_SCOPE => ⟨0x110, 0x0, 1, 0x0, 1, 18, 0, .live, 0, false⟩
  | .SYS_COMMIT_STATUS_PENDING => ⟨0x114, 0x0, 1, 0x0, 1, 31, 31, .status, 0, false⟩
  | .SYS_COMMIT_STATUS_RESULT => ⟨0x114, 0x0, 1, 0x0, 1, 30, 28, .status, 0, false⟩
  | .SYS_COMMIT_STATUS_BLOCK => ⟨0x114, 0x0, 1, 0x0, 1, 27, 23, .status, 0, false⟩
  | .SYS_COMMIT_STATUS_APPLIED_TICK => ⟨0x114, 0x0, 1, 0x0, 1, 15, 0, .status, 0, false⟩
  | .SYS_COMMIT_AT_TICK => ⟨0x118, 0x0, 1, 0x0, 1, 63, 0, .live, 0, true⟩
  | .SYS_GEN_CUR => ⟨0x120, 0x0, 1, 0x0, 1, 25, 24, .status, 0, false⟩
  | .SYS_GEN_PEND => ⟨0x120, 0x0, 1, 0x0, 1, 23, 22, .status, 1, false⟩
  | .SYS_GEN_ARMED => ⟨0x120, 0x0, 1, 0x0, 1, 21, 21, .status, 0, false⟩
  | .SYS_GEN_HELD => ⟨0x120, 0x0, 1, 0x0, 1, 20, 20, .status, 0, false⟩
  | .SYS_GEN_STALL_TICKS => ⟨0x120, 0x0, 1, 0x0, 1, 15, 0, .status, 0, false⟩
  | .SYS_GEN_DRAIN_FRAMES => ⟨0x124, 0x4, 4, 0x0, 1, 23, 0, .status, 0, false⟩
  | .SYS_BUDGET_BULK_SHARE => ⟨0x134, 0x0, 1, 0x0, 1, 12, 0, .live, 2048, false⟩
  | .SYS_TC_HORIZON_TICKS => ⟨0x138, 0x0, 1, 0x0, 1, 19, 0, .live, 0x186a0, false⟩
  | .SYS_GEN_STALL_LIMIT_TICKS => ⟨0x13C, 0x0, 1, 0x0, 1, 23, 0, .live, 10000, false⟩
  | .SYS_STATUS_READY => ⟨0x200, 0x0, 1, 0x0, 1, 31, 31, .status, 0, false⟩
  | .SYS_STATUS_PLAYA => ⟨0x200, 0x0, 1, 0x0, 1, 30, 30, .status, 0, false⟩
  | .SYS_STATUS_START => ⟨0x200, 0x0, 1, 0x0, 1, 29, 27, .status, 0, false⟩
  | .SYS_START_REASON_COUNT => ⟨0x204, 0x0, 1, 0x0, 1, 23, 20, .status, 0, false⟩
  | .SYS_START_REASON_SWITCHED => ⟨0x204, 0x0, 1, 0x0, 1, 19, 19, .status, 0, false⟩
  | .SYS_START_REASON_FALLBACK => ⟨0x204, 0x0, 1, 0x0, 1, 18, 18, .status, 0, false⟩
  | .SYS_START_REASON_SLOT => ⟨0x204, 0x0, 1, 0x0, 1, 17, 16, .status, 0, false⟩
  | .SYS_START_REASON_FAIL => ⟨0x204, 0x0, 1, 0x0, 1, 15, 8, .status, 0, false⟩
  | .SYS_START_REASON_CAUSE => ⟨0x204, 0x0, 1, 0x0, 1, 7, 0, .status, 1, false⟩
  | .SYS_START_CLEAR => ⟨0x208, 0x0, 1, 0x0, 1, 31, 31, .pulse, 0, false⟩
  | .SYS_RESET_GO => ⟨0x20C, 0x0, 1, 0x0, 1, 31, 31, .pulse, 0, false⟩
  | .SYS_RESET_KIND => ⟨0x20C, 0x0, 1, 0x0, 1, 0, 0, .live, 0, false⟩
  | .SYS_BLOCK_RESET_BLOCK => ⟨0x210, 0x0, 1, 0x0, 1, 2, 0, .pulse, 0, false⟩
  | .SYS_BOOT_SELECT => ⟨0x214, 0x0, 1, 0x0, 1, 31, 31, .status, 0, false⟩
  | .SYS_FW_VER_A_VERSION => ⟨0x218, 0x0, 1, 0x0, 1, 31, 0, .status, 0, false⟩
  | .SYS_FW_VER_B_VERSION => ⟨0x21C, 0x0, 1, 0x0, 1, 31, 0, .status, 0, false⟩
  | .SYS_CAL_EN => ⟨0x220, 0x0, 1, 0x0, 1, 31, 31, .live, 1, false⟩
  | .SYS_CAL_DELTA => ⟨0x220, 0x0, 1, 0x0, 1, 7, 0, .live, 8, false⟩
  | .SYS_THERM_CRIT => ⟨0x224, 0x0, 1, 0x0, 1, 31, 16, .live, 1680, false⟩
  | .SYS_THERM_WARN => ⟨0x224, 0x0, 1, 0x0, 1, 15, 0, .live, 1600, false⟩
  | .SYS_TEMP_MAX_SENSOR => ⟨0x228, 0x0, 1, 0x0, 1, 19, 16, .status, 0, false⟩
  | .SYS_TEMP_MAX_TEMP => ⟨0x228, 0x0, 1, 0x0, 1, 15, 0, .status, 0, false⟩
  | .SYS_AVS_TARGET_MV => ⟨0x230, 0x0, 1, 0x0, 1, 9, 0, .status, 750, false⟩
  | .SYS_TEMP_TEMP => ⟨0x240, 0x4, 16, 0x0, 1, 15, 0, .status, 0, false⟩
  | .SYS_WAKE_SUB_STATE => ⟨0x280, 0x4, 19, 0x0, 1, 31, 29, .status, 0, false⟩
  | .SYS_WAKE_PORT_STATE => ⟨0x400, 0x4, 256, 0x0, 1, 31, 29, .status, 0, false⟩
  | .SYS_WAKE_PORT_TIMING => ⟨0x400, 0x4, 256, 0x0, 1, 28, 28, .status, 0, false⟩
  | .SYS_WAKE_BUDGET_PORT_NS => ⟨0x800, 0x4, 258, 0x0, 1, 31, 0, .status, 50000, false⟩
  | .SYS_WAKE_MP_STATE => ⟨0xC10, 0x4, 2, 0x0, 1, 31, 29, .status, 0, false⟩
  | .SYS_WAKE_MP_TIMING => ⟨0xC10, 0x4, 2, 0x0, 1, 28, 28, .status, 0, false⟩
  | .HST_PUNT_MAP_EN => ⟨0x100020, 0x4, 6, 0x0, 1, 31, 31, .live, 0, false⟩
  | .HST_PUNT_MAP_FUNC => ⟨0x100020, 0x4, 6, 0x0, 1, 11, 8, .live, 0, false⟩
  | .HST_PUNT_MAP_CQ => ⟨0x100020, 0x4, 6, 0x0, 1, 7, 0, .live, 0, false⟩
  | .HST_LONG_SUSP_LIMIT_TICKS => ⟨0x100040, 0x0, 1, 0x0, 1, 23, 0, .live, 0, false⟩
  | .HST_VF_PERM_CAIRN => ⟨0x100080, 0x4, 16, 0x0, 1, 4, 4, .live, 0, false⟩
  | .HST_VF_PERM_CHK => ⟨0x100080, 0x4, 16, 0x0, 1, 3, 3, .live, 0, false⟩
  | .HST_VF_PERM_INJECT => ⟨0x100080, 0x4, 16, 0x0, 1, 2, 2, .live, 0, false⟩
  | .HST_VF_PERM_COMMIT => ⟨0x100080, 0x4, 16, 0x0, 1, 1, 1, .live, 0, false⟩
  | .HST_VF_PERM_TABLES => ⟨0x100080, 0x4, 16, 0x0, 1, 0, 0, .live, 0, false⟩
  | .HST_OP_STATE_STATE => ⟨0x100100, 0x4, 32, 0x0, 1, 31, 29, .status, 0, false⟩
  | .HST_OP_STATE_FUNC => ⟨0x100100, 0x4, 32, 0x0, 1, 27, 24, .status, 0, false⟩
  | .HST_OP_STATE_SERIAL => ⟨0x100100, 0x4, 32, 0x0, 1, 23, 8, .status, 0, false⟩
  | .HST_OP_STATE_OPCODE => ⟨0x100100, 0x4, 32, 0x0, 1, 7, 0, .status, 0, false⟩
  | .HST_EV_MASK_MASK => ⟨0x100200, 0x4, 8, 0x0, 1, 31, 0, .live, 0, false⟩
  | .HST_EV_ROUTE_FUNC => ⟨0x100220, 0x4, 32, 0x0, 1, 31, 0, .live, 0, false⟩
  | .HST_EV_SEV_SEV => ⟨0x1002A0, 0x4, 32, 0x0, 1, 31, 0, .live, 0, false⟩
  | .MBX_CTRL_LOCKED => ⟨0x200000, 0x0, 1, 0x0, 1, 31, 31, .status, 0, false⟩
  | .MBX_CTRL_LOCK => ⟨0x200000, 0x0, 1, 0x0, 1, 30, 30, .pulse, 0, false⟩
  | .MBX_XWAIT_TICKS => ⟨0x200004, 0x0, 1, 0x0, 1, 23, 0, .live, 1000, false⟩
  | .MBX_LOCK_HOLD_TICKS => ⟨0x200008, 0x0, 1, 0x0, 1, 23, 0, .live, 0xf4240, false⟩
  | .MBX_DB_SET_BITS => ⟨0x200010, 0x0, 1, 0x0, 1, 31, 0, .pulse, 0, false⟩
  | .MBX_DB_PEND_BITS => ⟨0x200020, 0x8, 7, 0x0, 1, 31, 0, .clear1, 0, false⟩
  | .MBX_DB_MASK_BITS => ⟨0x200024, 0x8, 7, 0x0, 1, 31, 0, .live, 0xffffffff, false⟩
  | .MBX_CH_BIND_VALID => ⟨0x200100, 0x80, 32, 0x0, 1, 31, 31, .frozen, 0, false⟩
  | .MBX_CH_BIND_SENDER => ⟨0x200100, 0x80, 32, 0x0, 1, 28, 24, .frozen, 0, false⟩
  | .MBX_CH_BIND_RECEIVER => ⟨0x200100, 0x80, 32, 0x0, 1, 20, 16, .frozen, 0, false⟩
  | .MBX_CH_BIND_REMOTE => ⟨0x200100, 0x80, 32, 0x0, 1, 4, 0, .frozen, 0, false⟩
  | .MBX_CH_STATUS_FULL => ⟨0x200104, 0x80, 32, 0x0, 1, 31, 31, .status, 0, false⟩
  | .MBX_CH_STATUS_REMOTE_WAIT => ⟨0x200104, 0x80, 32, 0x0, 1, 30, 30, .status, 0, false⟩
  | .MBX_CH_STATUS_XWAIT => ⟨0x200104, 0x80, 32, 0x0, 1, 29, 29, .status, 0, false⟩
  | .MBX_CH_CTRL_FLUSH => ⟨0x200108, 0x80, 32, 0x0, 1, 31, 31, .pulse, 0, false⟩
  | .MBX_CH_CTRL_DB_EN => ⟨0x200108, 0x80, 32, 0x0, 1, 30, 30, .live, 0, false⟩
  | .MBX_CH_CTRL_DB_BIT => ⟨0x200108, 0x80, 32, 0x0, 1, 4, 0, .live, 0, false⟩
  | .MBX_CH_DATA_WORD => ⟨0x200140, 0x80, 32, 0x4, 16, 31, 0, .live, 0, false⟩
  | .MBX_LOCK_GRANTED => ⟨0x202000, 0x4, 64, 0x0, 1, 31, 31, .status, 0, false⟩
  | .MBX_LOCK_ABANDONED => ⟨0x202000, 0x4, 64, 0x0, 1, 30, 30, .status, 0, false⟩
  | .MBX_LOCK_HELD => ⟨0x202000, 0x4, 64, 0x0, 1, 29, 29, .status, 0, false⟩
  | .MBX_LOCK_OWNER => ⟨0x202000, 0x4, 64, 0x0, 1, 28, 24, .status, 0, false⟩
  | .MBX_LOCK_RELEASE => ⟨0x202000, 0x4, 64, 0x0, 1, 0, 0, .pulse, 0, false⟩
  | .MBX_LOCK_PEEK_GRANTED => ⟨0x202200, 0x4, 64, 0x0, 1, 31, 31, .status, 0, false⟩
  | .MBX_LOCK_PEEK_ABANDONED => ⟨0x202200, 0x4, 64, 0x0, 1, 30, 30, .status, 0, false⟩
  | .MBX_LOCK_PEEK_HELD => ⟨0x202200, 0x4, 64, 0x0, 1, 29, 29, .status, 0, false⟩
  | .MBX_LOCK_PEEK_OWNER => ⟨0x202200, 0x4, 64, 0x0, 1, 28, 24, .status, 0, false⟩
  | .OBS_DUMP_CFG_EN => ⟨0x300100, 0x0, 1, 0x0, 1, 31, 31, .live, 0, false⟩
  | .OBS_DUMP_CFG_PORTS => ⟨0x300100, 0x0, 1, 0x0, 1, 30, 30, .frozen, 1, false⟩
  | .OBS_DUMP_CFG_FLOWS => ⟨0x300100, 0x0, 1, 0x0, 1, 29, 29, .frozen, 0, false⟩
  | .OBS_DUMP_CFG_PERIOD => ⟨0x300100, 0x0, 1, 0x0, 1, 23, 0, .live, 1000, false⟩
  | .OBS_DUMP_UNITS_UNITS => ⟨0x300104, 0x0, 1, 0x0, 1, 18, 0, .frozen, 0x7f55f, false⟩
  | .OBS_DUMP_BASE_ADDR => ⟨0x300108, 0x0, 1, 0x0, 1, 63, 12, .frozen, 0, true⟩
  | .OBS_DUMP_SLOTS_SLOTS => ⟨0x300110, 0x0, 1, 0x0, 1, 8, 0, .frozen, 16, false⟩
  | .OBS_FLOW_BASE_ADDR => ⟨0x300114, 0x0, 1, 0x0, 1, 63, 12, .frozen, 0, true⟩
  | .OBS_DUMP_STATUS_BUSY => ⟨0x30011C, 0x0, 1, 0x0, 1, 31, 31, .status, 0, false⟩
  | .OBS_DUMP_STATUS_FLOW_BUSY => ⟨0x30011C, 0x0, 1, 0x0, 1, 30, 30, .status, 0, false⟩
  | .OBS_DUMP_SEQ_SEQ => ⟨0x300120, 0x0, 1, 0x0, 1, 31, 0, .status, 0, false⟩
  | .OBS_USER_READ_FUNCS => ⟨0x300124, 0x0, 1, 0x0, 1, 15, 0, .live, 0, false⟩
  | .OBS_USER_UNITS_UNITS => ⟨0x300128, 0x0, 1, 0x0, 1, 18, 0, .live, 0, false⟩
  | .OBS_SAMP_CFG_EN => ⟨0x300200, 0x40, 2, 0x0, 1, 31, 31, .live, 0, false⟩
  | .OBS_SAMP_CFG_JITTER => ⟨0x300200, 0x40, 2, 0x0, 1, 30, 30, .frozen, 0, false⟩
  | .OBS_SAMP_CFG_LOG2 => ⟨0x300200, 0x40, 2, 0x0, 1, 28, 24, .frozen, 10, false⟩
  | .OBS_SAMP_CFG_MAX_TICK => ⟨0x300200, 0x40, 2, 0x0, 1, 15, 0, .frozen, 64, false⟩
  | .OBS_SAMP_FILTER_PORT_EN => ⟨0x300204, 0x40, 2, 0x0, 1, 31, 31, .frozen, 0, false⟩
  | .OBS_SAMP_FILTER_CLASS_EN => ⟨0x300204, 0x40, 2, 0x0, 1, 30, 30, .frozen, 0, false⟩
  | .OBS_SAMP_FILTER_CLASS => ⟨0x300204, 0x40, 2, 0x0, 1, 29, 27, .frozen, 0, false⟩
  | .OBS_SAMP_FILTER_PORT => ⟨0x300204, 0x40, 2, 0x0, 1, 8, 0, .frozen, 0, false⟩
  | .OBS_SAMP_BASE_ADDR => ⟨0x300208, 0x40, 2, 0x0, 1, 63, 12, .frozen, 0, true⟩
  | .OBS_SAMP_SIZE_LOG2_SIZE => ⟨0x300210, 0x40, 2, 0x0, 1, 4, 0, .frozen, 10, false⟩
  | .OBS_SAMP_HEAD_HEAD => ⟨0x300214, 0x40, 2, 0x0, 1, 19, 0, .live, 0, false⟩
  | .OBS_SAMP_TAIL_TAIL => ⟨0x300218, 0x40, 2, 0x0, 1, 19, 0, .status, 0, false⟩
  | .OBS_SAMP_TAKEN_COUNT => ⟨0x30021C, 0x40, 2, 0x0, 1, 31, 0, .status, 0, false⟩
  | .OBS_SAMP_LOST_FULL_COUNT => ⟨0x300220, 0x40, 2, 0x0, 1, 31, 0, .status, 0, false⟩
  | .OBS_SAMP_LOST_RATE_COUNT => ⟨0x300224, 0x40, 2, 0x0, 1, 31, 0, .status, 0, false⟩
  | .OBS_SAMP_SKIP_BUSY_COUNT => ⟨0x300228, 0x40, 2, 0x0, 1, 31, 0, .status, 0, false⟩
  | .OBS_CAIRN_CTRL_EN => ⟨0x300400, 0x0, 1, 0x0, 1, 31, 31, .live, 0, false⟩
  | .OBS_CAIRN_CFG_INTERVAL => ⟨0x300404, 0x0, 1, 0x0, 1, 23, 0, .live, 10000, false⟩
  | .OBS_CAIRN_STATUS_MIRROR_BUSY => ⟨0x300408, 0x0, 1, 0x0, 1, 31, 31, .status, 0, false⟩
  | .OBS_CAIRN_STATUS_MIRROR_ERR => ⟨0x300408, 0x0, 1, 0x0, 1, 30, 30, .sticky, 0, false⟩
  | .OBS_CAIRN_STATUS_RESTORE_BAD => ⟨0x300408, 0x0, 1, 0x0, 1, 29, 29, .sticky, 0, false⟩
  | .OBS_CAIRN_STATUS_LAST_COUNT => ⟨0x300408, 0x0, 1, 0x0, 1, 28, 16, .status, 0, false⟩
  | .OBS_CAIRN_STATUS_FIRST_COUNT => ⟨0x300408, 0x0, 1, 0x0, 1, 10, 0, .status, 0, false⟩
  | .OBS_CAIRN_NEXT_SEQ_SEQ => ⟨0x30040C, 0x0, 1, 0x0, 1, 31, 0, .status, 0, false⟩
  | .OBS_CAIRN_FIRST_SEQ_SEQ => ⟨0x300410, 0x0, 1, 0x0, 1, 31, 0, .status, 0, false⟩
  | .OBS_CAIRN_BOOT_BOOT => ⟨0x300414, 0x0, 1, 0x0, 1, 15, 0, .status, 0, false⟩
  | .OBS_U_CYC_CYCLES => ⟨0x301000, 0x100, 19, 0x0, 1, 63, 0, .status, 0, true⟩
  | .OBS_U_CNT_VALUE => ⟨0x301008, 0x100, 19, 0x8, 8, 47, 0, .status, 0, true⟩
  | .OBS_U_SEL_ALL => ⟨0x301048, 0x100, 19, 0x4, 8, 31, 31, .live, 0, false⟩
  | .OBS_U_SEL_KIND => ⟨0x301048, 0x100, 19, 0x4, 8, 30, 29, .live, 0, false⟩
  | .OBS_U_SEL_ITEM => ⟨0x301048, 0x100, 19, 0x4, 8, 28, 24, .live, 0, false⟩
  | .OBS_U_SEL_SUB => ⟨0x301048, 0x100, 19, 0x4, 8, 23, 16, .live, 0, false⟩
  | .OBS_U_IDX_IDX => ⟨0x301068, 0x100, 19, 0x4, 8, 19, 0, .live, 0, false⟩
  | .OBS_U_OVF_OVF => ⟨0x301088, 0x100, 19, 0x0, 1, 8, 0, .sticky, 0, false⟩
  | .OBS_U_CLEAR_CNT => ⟨0x30108C, 0x100, 19, 0x0, 1, 7, 0, .pulse, 0, false⟩
  | .CHK_CFG_WAIT_WARN => ⟨0x400000, 0x0, 1, 0x0, 1, 23, 4, .live, 1000, false⟩
  | .CHK_CFG_CAIRN_UNIT => ⟨0x400000, 0x0, 1, 0x0, 1, 3, 0, .frozen, 9, false⟩
  | .CHK_UNIT_CFG_REFIN => ⟨0x400100, 0x40, 16, 0x0, 1, 31, 31, .frozen, 1, false⟩
  | .CHK_UNIT_CFG_REFOUT => ⟨0x400100, 0x40, 16, 0x0, 1, 30, 30, .frozen, 1, false⟩
  | .CHK_UNIT_CFG_FINAL_INV => ⟨0x400100, 0x40, 16, 0x0, 1, 29, 29, .frozen, 1, false⟩
  | .CHK_UNIT_CFG_POOL => ⟨0x400100, 0x40, 16, 0x0, 1, 28, 28, .live, 0, false⟩
  | .CHK_UNIT_CFG_WIDTH => ⟨0x400100, 0x40, 16, 0x0, 1, 6, 0, .frozen, 32, false⟩
  | .CHK_UNIT_POLY_POLY => ⟨0x400104, 0x40, 16, 0x0, 1, 63, 0, .frozen, 0x4c11db7, true⟩
  | .CHK_UNIT_INIT_INIT => ⟨0x40010C, 0x40, 16, 0x0, 1, 63, 0, .frozen, 0xffffffff, true⟩
  | .CHK_UNIT_STATUS_BUSY => ⟨0x400114, 0x40, 16, 0x0, 1, 31, 31, .status, 0, false⟩
  | .CHK_UNIT_STATUS_USER => ⟨0x400114, 0x40, 16, 0x0, 1, 30, 28, .status, 0, false⟩
  | .CHK_UNIT_STATUS_CTX => ⟨0x400114, 0x40, 16, 0x0, 1, 27, 24, .status, 0, false⟩
  | .CHK_UNIT_STATUS_QUEUED => ⟨0x400114, 0x40, 16, 0x0, 1, 23, 16, .status, 0, false⟩
  | .CHK_UNIT_LAST_VALUE => ⟨0x400118, 0x40, 16, 0x0, 1, 63, 0, .status, 0, true⟩
  | .CHK_UNIT_TEST_GO => ⟨0x400120, 0x40, 16, 0x0, 1, 31, 31, .pulse, 0, false⟩
  | .CHK_UNIT_TEST_DONE => ⟨0x400120, 0x40, 16, 0x0, 1, 30, 30, .status, 0, false⟩
  | .CHK_UNIT_TESTV_VALUE => ⟨0x400124, 0x40, 16, 0x0, 1, 63, 0, .status, 0, true⟩
  | .CHK_UNIT_SKIPPED_COUNT => ⟨0x40012C, 0x40, 16, 0x0, 1, 31, 0, .clear1, 0, false⟩
  | .CHK_UNIT_ALIVE_COUNT => ⟨0x400130, 0x40, 16, 0x4, 4, 31, 0, .status, 0, false⟩
  | .CHK_UNIT_CLEAR_CTX => ⟨0x40013C, 0x40, 16, 0x0, 1, 15, 0, .pulse, 0, false⟩
  | .TME_CFG_COMPAT => ⟨0x500000, 0x0, 1, 0x0, 1, 31, 31, .frozen, 0, false⟩
  | .TME_CFG_SERVO_OWNER => ⟨0x500000, 0x0, 1, 0x0, 1, 30, 30, .live, 0, false⟩
  | .TME_STATUS_TRACEABLE => ⟨0x500004, 0x0, 1, 0x0, 1, 31, 31, .status, 0, false⟩
  | .TME_STATUS_STEPPED => ⟨0x500004, 0x0, 1, 0x0, 1, 30, 30, .status, 0, false⟩
  | .TME_STATUS_SLEWING => ⟨0x500004, 0x0, 1, 0x0, 1, 29, 29, .status, 0, false⟩
  | .TME_STATUS_STEPS => ⟨0x500004, 0x0, 1, 0x0, 1, 15, 0, .status, 0, false⟩
  | .TME_TRACE_SET => ⟨0x500008, 0x0, 1, 0x0, 1, 31, 31, .live, 0, false⟩
  | .TME_UTC_VALID => ⟨0x50000C, 0x0, 1, 0x0, 1, 31, 31, .live, 0, false⟩
  | .TME_UTC_LEAP61 => ⟨0x50000C, 0x0, 1, 0x0, 1, 30, 30, .live, 0, false⟩
  | .TME_UTC_LEAP59 => ⟨0x50000C, 0x0, 1, 0x0, 1, 29, 29, .live, 0, false⟩
  | .TME_UTC_OFFSET => ⟨0x50000C, 0x0, 1, 0x0, 1, 15, 0, .live, 0, false⟩
  | .TME_TIME_SEC_SEC => ⟨0x500010, 0x0, 1, 0x0, 1, 47, 0, .status, 0, true⟩
  | .TME_TIME_NS_NS => ⟨0x500018, 0x0, 1, 0x0, 1, 29, 0, .status, 0, false⟩
  | .TME_TIME_FRAC_GRAIN => ⟨0x50001C, 0x0, 1, 0x0, 1, 15, 0, .status, 0, false⟩
  | .TME_INCR_INCR => ⟨0x500020, 0x0, 1, 0x0, 1, 47, 0, .staged, 0x20000000000, true⟩
  | .TME_SLEW_AMT_AMOUNT => ⟨0x500028, 0x0, 1, 0x0, 1, 31, 0, .live, 0, false⟩
  | .TME_SLEW_RATE_PPB => ⟨0x50002C, 0x0, 1, 0x0, 1, 19, 0, .live, 10000, false⟩
  | .TME_SLEW_LEFT_LEFT => ⟨0x500030, 0x0, 1, 0x0, 1, 31, 0, .status, 0, false⟩
  | .TME_SERVO_FREQ_FREQ => ⟨0x500034, 0x0, 1, 0x0, 1, 31, 0, .live, 0, false⟩
  | .TME_SERVO_CTRL_VALID => ⟨0x500038, 0x0, 1, 0x0, 1, 31, 31, .live, 0, false⟩
  | .TME_SERVO_CTRL_TIMEOUT => ⟨0x500038, 0x0, 1, 0x0, 1, 23, 0, .live, 0xf4240, false⟩
  | .TME_TWOSTEP_AGE => ⟨0x50003C, 0x0, 1, 0x0, 1, 23, 0, .live, 0xf4240, false⟩
  | .TME_STEP_LAST_GRAINS => ⟨0x500040, 0x0, 1, 0x0, 1, 63, 0, .status, 0, true⟩
  | .TME_STEP_TICK_TICK => ⟨0x500048, 0x0, 1, 0x0, 1, 63, 0, .status, 0, true⟩
  | .TME_INST_CFG_EN => ⟨0x500100, 0x40, 4, 0x0, 1, 31, 31, .staged, 0, false⟩
  | .TME_INST_CFG_AGENT => ⟨0x500100, 0x40, 4, 0x0, 1, 30, 30, .staged, 0, false⟩
  | .TME_INST_CFG_ONE_STEP => ⟨0x500100, 0x40, 4, 0x0, 1, 29, 29, .staged, 0, false⟩
  | .TME_INST_CFG_DELAY => ⟨0x500100, 0x40, 4, 0x0, 1, 28, 28, .staged, 0, false⟩
  | .TME_INST_CFG_TRANSPORT => ⟨0x500100, 0x40, 4, 0x0, 1, 27, 26, .staged, 0, false⟩
  | .TME_INST_CFG_PROFILE => ⟨0x500100, 0x40, 4, 0x0, 1, 25, 24, .staged, 0, false⟩
  | .TME_INST_CFG_DOMAIN => ⟨0x500100, 0x40, 4, 0x0, 1, 7, 0, .staged, 127, false⟩
  | .TME_INST_ID_IDENTITY => ⟨0x500104, 0x40, 4, 0x0, 1, 63, 0, .staged, 0, true⟩
  | .TME_INST_UNTRACE_ACCURACY => ⟨0x50010C, 0x40, 4, 0x0, 1, 15, 8, .staged, 254, false⟩
  | .TME_INST_UNTRACE_CLASS => ⟨0x50010C, 0x40, 4, 0x0, 1, 7, 0, .staged, 248, false⟩
  | .TME_INST_TXS_VALID => ⟨0x500110, 0x40, 4, 0x0, 1, 31, 31, .status, 0, false⟩
  | .TME_INST_TXS_MSG => ⟨0x500110, 0x40, 4, 0x0, 1, 30, 27, .status, 0, false⟩
  | .TME_INST_TXS_PORT => ⟨0x500110, 0x40, 4, 0x0, 1, 23, 16, .status, 0, false⟩
  | .TME_INST_TXS_SEQ => ⟨0x500110, 0x40, 4, 0x0, 1, 15, 0, .status, 0, false⟩
  | .TME_INST_TXS_NS_NS => ⟨0x500114, 0x40, 4, 0x0, 1, 31, 0, .status, 0, false⟩
  | .TME_INST_TXS_GRAIN_GRAIN => ⟨0x500118, 0x40, 4, 0x0, 1, 15, 0, .status, 0, false⟩
  | .TME_INST_SRC4_ADDR => ⟨0x50011C, 0x40, 4, 0x0, 1, 31, 0, .staged, 0, false⟩
  | .TME_INST_SRC6_0_ADDR => ⟨0x500120, 0x40, 4, 0x0, 1, 31, 0, .staged, 0, false⟩
  | .TME_INST_SRC6_1_ADDR => ⟨0x500124, 0x40, 4, 0x0, 1, 31, 0, .staged, 0, false⟩
  | .TME_INST_SRC6_2_ADDR => ⟨0x500128, 0x40, 4, 0x0, 1, 31, 0, .staged, 0, false⟩
  | .TME_INST_SRC6_3_ADDR => ⟨0x50012C, 0x40, 4, 0x0, 1, 31, 0, .staged, 0, false⟩
  | .TME_INST_DMAC_MAC => ⟨0x500130, 0x40, 4, 0x0, 1, 47, 0, .staged, 0x11b19000000, true⟩
  | .TME_TIO_MODE_MODE => ⟨0x500200, 0x40, 8, 0x0, 1, 2, 0, .staged, 0, false⟩
  | .TME_TIO_WIDTH_NS => ⟨0x500204, 0x40, 8, 0x0, 1, 31, 0, .staged, 0, false⟩
  | .TME_TIO_PER_NUM_NUM => ⟨0x500208, 0x40, 8, 0x0, 1, 63, 0, .staged, 0, true⟩
  | .TME_TIO_PER_DEN_DEN => ⟨0x500210, 0x40, 8, 0x0, 1, 31, 0, .staged, 1, false⟩
  | .TME_TIO_START_SEC_SEC => ⟨0x500214, 0x40, 8, 0x0, 1, 47, 0, .staged, 0, true⟩
  | .TME_TIO_START_NS_NS => ⟨0x50021C, 0x40, 8, 0x0, 1, 29, 0, .staged, 0, false⟩
  | .TME_TIO_DLY_PS => ⟨0x500220, 0x40, 8, 0x0, 1, 15, 0, .live, 0, false⟩
  | .TME_TIO_IN_VALID => ⟨0x500224, 0x40, 8, 0x0, 1, 31, 31, .status, 0, false⟩
  | .TME_TIO_IN_RISING => ⟨0x500224, 0x40, 8, 0x0, 1, 30, 30, .status, 0, false⟩
  | .TME_TIO_IN_LEFT => ⟨0x500224, 0x40, 8, 0x0, 1, 4, 0, .status, 0, false⟩
  | .TME_TIO_IN_SEC_SEC => ⟨0x500228, 0x40, 8, 0x0, 1, 47, 0, .status, 0, true⟩
  | .TME_TIO_IN_NS_NS => ⟨0x500230, 0x40, 8, 0x0, 1, 29, 0, .status, 0, false⟩
  | .TME_TIO_IN_FRAC_GRAIN => ⟨0x500234, 0x40, 8, 0x0, 1, 15, 0, .status, 0, false⟩
  | .TME_TIO_STATUS_RUNNING => ⟨0x500238, 0x40, 8, 0x0, 1, 31, 31, .status, 0, false⟩
  | .TME_TIO_STATUS_SKIPPED => ⟨0x500238, 0x40, 8, 0x0, 1, 15, 0, .status, 0, false⟩
  | .TME_PORT_CFG_INST => ⟨0x501000, 0x20, 256, 0x0, 1, 31, 30, .staged, 0, false⟩
  | .TME_PORT_CFG_STATE => ⟨0x501000, 0x20, 256, 0x0, 1, 29, 27, .live, 0, false⟩
  | .TME_PORT_CFG_LOG_SYNC => ⟨0x501000, 0x20, 256, 0x0, 1, 23, 20, .staged, 13, false⟩
  | .TME_PORT_CFG_LOG_DREQ => ⟨0x501000, 0x20, 256, 0x0, 1, 19, 16, .staged, 13, false⟩
  | .TME_PORT_CFG_LOG_PDELAY => ⟨0x501000, 0x20, 256, 0x0, 1, 15, 12, .staged, 0, false⟩
  | .TME_PORT_LINK_DELAY => ⟨0x501004, 0x20, 256, 0x0, 1, 31, 0, .live, 0, false⟩
  | .TME_PORT_VLAN_EN => ⟨0x501008, 0x20, 256, 0x0, 1, 31, 31, .staged, 0, false⟩
  | .TME_PORT_VLAN_PCP => ⟨0x501008, 0x20, 256, 0x0, 1, 15, 13, .staged, 7, false⟩
  | .TME_PORT_VLAN_VLAN => ⟨0x501008, 0x20, 256, 0x0, 1, 11, 0, .staged, 0, false⟩
  | .SEIF_CFG_AVG => ⟨0x600000, 0x0, 1, 0x0, 1, 19, 16, .live, 7, false⟩
  | .SEIF_CFG_LOCK => ⟨0x600000, 0x0, 1, 0x0, 1, 15, 0, .live, 256, false⟩
  | .SEIF_ITM_CTRL_GO => ⟨0x600100, 0x0, 1, 0x0, 1, 31, 31, .pulse, 0, false⟩
  | .SEIF_ITM_CTRL_STOP => ⟨0x600100, 0x0, 1, 0x0, 1, 30, 30, .pulse, 0, false⟩
  | .SEIF_ITM_CTRL_CONT => ⟨0x600100, 0x0, 1, 0x0, 1, 29, 29, .live, 0, false⟩
  | .SEIF_ITM_SRC_START_FALL => ⟨0x600104, 0x0, 1, 0x0, 1, 15, 15, .frozen, 0, false⟩
  | .SEIF_ITM_SRC_START => ⟨0x600104, 0x0, 1, 0x0, 1, 12, 8, .frozen, 0, false⟩
  | .SEIF_ITM_SRC_STOP_FALL => ⟨0x600104, 0x0, 1, 0x0, 1, 7, 7, .frozen, 0, false⟩
  | .SEIF_ITM_SRC_STOP_SRC => ⟨0x600104, 0x0, 1, 0x0, 1, 4, 0, .frozen, 1, false⟩
  | .SEIF_ITM_N_N => ⟨0x600108, 0x0, 1, 0x0, 1, 15, 0, .frozen, 16, false⟩
  | .SEIF_ITM_WIN_NS => ⟨0x60010C, 0x0, 1, 0x0, 1, 31, 0, .frozen, 0x1dcd6500, false⟩
  | .SEIF_ITM_TIMEOUT_NS => ⟨0x600110, 0x0, 1, 0x0, 1, 31, 0, .frozen, 0x1dcd6500, false⟩
  | .SEIF_ITM_AGE_AUTO => ⟨0x600114, 0x0, 1, 0x0, 1, 31, 31, .live, 1, false⟩
  | .SEIF_ITM_AGE_PPB => ⟨0x600114, 0x0, 1, 0x0, 1, 30, 0, .live, 0, false⟩
  | .SEIF_ITM_STATUS_BUSY => ⟨0x600118, 0x0, 1, 0x0, 1, 31, 31, .status, 0, false⟩
  | .SEIF_ITM_STATUS_CAL_BUSY => ⟨0x600118, 0x0, 1, 0x0, 1, 30, 30, .status, 0, false⟩
  | .SEIF_ITM_STATUS_RESULT => ⟨0x600118, 0x0, 1, 0x0, 1, 29, 27, .status, 0, false⟩
  | .SEIF_ITM_STATUS_COUNT => ⟨0x600118, 0x0, 1, 0x0, 1, 15, 0, .status, 0, false⟩
  | .SEIF_ITM_FLAGS_UNDER => ⟨0x60011C, 0x0, 1, 0x0, 1, 31, 24, .status, 0, false⟩
  | .SEIF_ITM_FLAGS_REVERSED => ⟨0x60011C, 0x0, 1, 0x0, 1, 23, 16, .status, 0, false⟩
  | .SEIF_ITM_FLAGS_TIMEOUT => ⟨0x60011C, 0x0, 1, 0x0, 1, 15, 8, .status, 0, false⟩
  | .SEIF_ITM_FLAGS_IGNORED => ⟨0x60011C, 0x0, 1, 0x0, 1, 7, 0, .status, 0, false⟩
  | .SEIF_ITM_MEAN_MEAN => ⟨0x600120, 0x0, 1, 0x0, 1, 63, 0, .status, 0, true⟩
  | .SEIF_ITM_DEV_DEV => ⟨0x600128, 0x0, 1, 0x0, 1, 31, 0, .status, 0, false⟩
  | .SEIF_ITM_MIN_MIN => ⟨0x60012C, 0x0, 1, 0x0, 1, 63, 0, .status, 0, true⟩
  | .SEIF_ITM_MAX_MAX => ⟨0x600134, 0x0, 1, 0x0, 1, 63, 0, .status, 0, true⟩
  | .SEIF_ITM_LAST_LAST => ⟨0x60013C, 0x0, 1, 0x0, 1, 63, 0, .status, 0, true⟩
  | .SEIF_ITM_CAL_GO => ⟨0x600144, 0x0, 1, 0x0, 1, 31, 31, .pulse, 0, false⟩
  | .SEIF_ITM_CAL_TEMP => ⟨0x600144, 0x0, 1, 0x0, 1, 30, 16, .status, 0, false⟩
  | .SEIF_ITM_CAL_RESID => ⟨0x600144, 0x0, 1, 0x0, 1, 15, 0, .status, 0, false⟩
  | .SEIF_PORT_STATUS_RX_STATE => ⟨0x601000, 0x40, 256, 0x0, 1, 31, 29, .status, 0, false⟩
  | .SEIF_PORT_STATUS_TX_STATE => ⟨0x601000, 0x40, 256, 0x0, 1, 28, 26, .status, 0, false⟩
  | .SEIF_PORT_STATUS_NOREC => ⟨0x601000, 0x40, 256, 0x0, 1, 25, 25, .status, 0, false⟩
  | .SEIF_PORT_STATUS_VALID => ⟨0x601000, 0x40, 256, 0x0, 1, 24, 24, .status, 0, false⟩
  | .SEIF_PORT_PHASE_RX_PHASE => ⟨0x601004, 0x40, 256, 0x0, 1, 20, 0, .status, 0, false⟩
  | .SEIF_PORT_PHASE_TX_PHASE => ⟨0x601008, 0x40, 256, 0x0, 1, 20, 0, .status, 0, false⟩
  | .SEIF_PORT_FREQ_FREQ => ⟨0x60100C, 0x40, 256, 0x0, 1, 31, 0, .status, 0, false⟩
  | .SEIF_PORT_RESID_ASYM => ⟨0x601010, 0x40, 256, 0x0, 1, 31, 16, .status, 0, false⟩
  | .SEIF_PORT_RESID_PHASE => ⟨0x601010, 0x40, 256, 0x0, 1, 15, 0, .status, 0, false⟩
  | .SEIF_PORT_MOD_RX => ⟨0x601014, 0x40, 256, 0x0, 1, 31, 16, .staged, 0, false⟩
  | .SEIF_PORT_MOD_TX => ⟨0x601014, 0x40, 256, 0x0, 1, 15, 0, .staged, 0, false⟩
  | .SEIF_PORT_PEER_PS => ⟨0x601018, 0x40, 256, 0x0, 1, 31, 0, .staged, 0, false⟩
  | .SEIF_PORT_FIBRE_PS => ⟨0x60101C, 0x40, 256, 0x0, 1, 31, 0, .staged, 0, false⟩
  | .SEIF_PORT_DLOC_PS => ⟨0x601020, 0x40, 256, 0x0, 1, 31, 0, .status, 0, false⟩
  | .SEIF_PORT_ASYM_GRAINS => ⟨0x601024, 0x40, 256, 0x0, 1, 31, 0, .status, 0, false⟩
  | .SEIF_PORT_PKG_RX => ⟨0x601028, 0x40, 256, 0x0, 1, 31, 16, .status, 0, false⟩
  | .SEIF_PORT_PKG_TX => ⟨0x601028, 0x40, 256, 0x0, 1, 15, 0, .status, 0, false⟩
  | .SEIF_PORT_BRD_RX => ⟨0x60102C, 0x40, 256, 0x0, 1, 31, 16, .status, 0, false⟩
  | .SEIF_PORT_BRD_TX => ⟨0x60102C, 0x40, 256, 0x0, 1, 15, 0, .status, 0, false⟩
  | .SEIF_PORT_STEP_PS => ⟨0x601030, 0x40, 256, 0x0, 1, 31, 0, .status, 0, false⟩
  | .REF_CFG_QL_MODE => ⟨0x700000, 0x0, 1, 0x0, 1, 31, 31, .staged, 0, false⟩
  | .REF_CFG_DIS_GATES => ⟨0x700000, 0x0, 1, 0x0, 1, 23, 16, .live, 4, false⟩
  | .REF_CFG_DISAGREE => ⟨0x700000, 0x0, 1, 0x0, 1, 15, 0, .live, 20, false⟩
  | .REF_SLEW_LIMIT_D1 => ⟨0x700004, 0x0, 1, 0x0, 1, 31, 16, .live, 10000, false⟩
  | .REF_SLEW_LIMIT_D0 => ⟨0x700004, 0x0, 1, 0x0, 1, 15, 0, .live, 1000, false⟩
  | .REF_MON_GATE_MS => ⟨0x700008, 0x0, 1, 0x0, 1, 15, 0, .live, 1000, false⟩
  | .REF_XO_TRUSTED => ⟨0x70000C, 0x0, 1, 0x0, 1, 31, 31, .status, 0, false⟩
  | .REF_XO_PPB => ⟨0x70000C, 0x0, 1, 0x0, 1, 30, 0, .status, 0, false⟩
  | .REF_XO_MEAS_PPB => ⟨0x700010, 0x0, 1, 0x0, 1, 31, 0, .status, 0, false⟩
  | .REF_XO_TRUST_S => ⟨0x700014, 0x0, 1, 0x0, 1, 23, 0, .live, 0x15180, false⟩
  | .REF_HOLD_CFG_START_S => ⟨0x700018, 0x0, 1, 0x0, 1, 29, 20, .staged, 300, false⟩
  | .REF_HOLD_CFG_END_S => ⟨0x700018, 0x0, 1, 0x0, 1, 19, 10, .staged, 30, false⟩
  | .REF_HOLD_CFG_MIN_S => ⟨0x700018, 0x0, 1, 0x0, 1, 9, 0, .staged, 10, false⟩
  | .REF_ESMC_EN => ⟨0x70001C, 0x0, 1, 0x0, 1, 31, 31, .live, 0, false⟩
  | .REF_ESMC_HOLD_SSM => ⟨0x70001C, 0x0, 1, 0x0, 1, 7, 4, .live, 11, false⟩
  | .REF_ESMC_FREE_SSM => ⟨0x70001C, 0x0, 1, 0x0, 1, 3, 0, .live, 11, false⟩
  | .REF_QL_MAP_GRADE => ⟨0x700020, 0x0, 1, 0x0, 1, 63, 0, .live, 0xf888888888888888, true⟩
  | .REF_QL_EMAP_GRADE => ⟨0x700028, 0x0, 1, 0x0, 1, 31, 0, .live, 0x88888888, false⟩
  | .REF_PORTSLOT_PORT => ⟨0x700040, 0x4, 8, 0x0, 1, 7, 0, .frozen, 0, false⟩
  | .REF_IN_CFG_PPS => ⟨0x700060, 0x4, 4, 0x0, 1, 31, 31, .frozen, 0, false⟩
  | .REF_IN_CFG_FREQ_HZ => ⟨0x700060, 0x4, 4, 0x0, 1, 27, 0, .frozen, 0x989680, false⟩
  | .REF_ESMC_TXMASK_PORTS => ⟨0x700080, 0x4, 8, 0x0, 1, 31, 0, .live, 0, false⟩
  | .REF_SLOT_OFS_PPB => ⟨0x700100, 0x8, 13, 0x0, 1, 31, 0, .status, 0, false⟩
  | .REF_SLOT_QL_ESMC_SEEN => ⟨0x700104, 0x8, 13, 0x0, 1, 31, 31, .status, 0, false⟩
  | .REF_SLOT_QL_ENH => ⟨0x700104, 0x8, 13, 0x0, 1, 15, 8, .status, 0, false⟩
  | .REF_SLOT_QL_GRADE => ⟨0x700104, 0x8, 13, 0x0, 1, 7, 4, .status, 15, false⟩
  | .REF_SLOT_QL_SSM => ⟨0x700104, 0x8, 13, 0x0, 1, 3, 0, .status, 15, false⟩
  | .REF_DPLL_CFG_PBO => ⟨0x700200, 0x100, 2, 0x0, 1, 31, 31, .staged, 0, false⟩
  | .REF_DPLL_CFG_PULL => ⟨0x700200, 0x100, 2, 0x0, 1, 29, 20, .staged, 92, false⟩
  | .REF_DPLL_CFG_ACQ_LIMIT => ⟨0x700200, 0x100, 2, 0x0, 1, 19, 8, .staged, 60, false⟩
  | .REF_DPLL_CFG_ACQ_BW => ⟨0x700200, 0x100, 2, 0x0, 1, 7, 0, .staged, 100, false⟩
  | .REF_DPLL_STATUS_STATE => ⟨0x700204, 0x100, 2, 0x0, 1, 31, 29, .status, 0, false⟩
  | .REF_DPLL_STATUS_SELECTED => ⟨0x700204, 0x100, 2, 0x0, 1, 28, 25, .status, 15, false⟩
  | .REF_DPLL_STATUS_SATURATED => ⟨0x700204, 0x100, 2, 0x0, 1, 24, 24, .status, 0, false⟩
  | .REF_DPLL_STATUS_BW_NOW => ⟨0x700204, 0x100, 2, 0x0, 1, 23, 0, .status, 0, false⟩
  | .REF_DPLL_FREQ_PPB => ⟨0x700208, 0x100, 2, 0x0, 1, 31, 0, .status, 0, false⟩
  | .REF_DPLL_HOLD_PPB => ⟨0x70020C, 0x100, 2, 0x0, 1, 31, 0, .status, 0, false⟩
  | .REF_DPLL_HOLD_INFO_SHORT => ⟨0x700210, 0x100, 2, 0x0, 1, 31, 31, .status, 0, false⟩
  | .REF_DPLL_HOLD_INFO_ENTRIES => ⟨0x700210, 0x100, 2, 0x0, 1, 9, 0, .status, 0, false⟩
  | .REF_DPLL_PBO_PS => ⟨0x700214, 0x100, 2, 0x0, 1, 63, 0, .status, 0, true⟩
  | .REF_DPLL_PBO_LAST_PS => ⟨0x70021C, 0x100, 2, 0x0, 1, 31, 0, .status, 0, false⟩
  | .REF_DPLL_HOLD_TICKS_TICKS => ⟨0x700220, 0x100, 2, 0x0, 1, 63, 0, .status, 0, true⟩
  | .REF_DPLL_PHASE_PS => ⟨0x700228, 0x100, 2, 0x0, 1, 31, 0, .status, 0, false⟩
  | .REF_C_CTRL_REVERT => ⟨0x700400, 0x200, 2, 0x20, 13, 31, 31, .staged, 0, false⟩
  | .REF_C_CTRL_GRADE => ⟨0x700400, 0x200, 2, 0x20, 13, 11, 8, .staged, 8, false⟩
  | .REF_C_CTRL_RANK => ⟨0x700400, 0x200, 2, 0x20, 13, 3, 0, .staged, 0, false⟩
  | .REF_C_SOFT_PPB => ⟨0x700404, 0x200, 2, 0x20, 13, 31, 0, .staged, 1000, false⟩
  | .REF_C_HARD_PPB => ⟨0x700408, 0x200, 2, 0x20, 13, 31, 0, .staged, 4600, false⟩
  | .REF_C_QUAL_TICKS => ⟨0x70040C, 0x200, 2, 0x20, 13, 31, 0, .staged, 0x989680, false⟩
  | .REF_C_BW_MHZ => ⟨0x700410, 0x200, 2, 0x20, 13, 13, 0, .staged, 1000, false⟩
  | .REF_C_STATUS_STATE => ⟨0x700414, 0x200, 2, 0x20, 13, 31, 29, .status, 0, false⟩
  | .REF_C_STATUS_REASON => ⟨0x700414, 0x200, 2, 0x20, 13, 28, 26, .status, 0, false⟩
  | .REF_C_STATUS_ELIGIBLE => ⟨0x700414, 0x200, 2, 0x20, 13, 25, 25, .status, 0, false⟩
  | .REF_C_STATUS_QUAL_LEFT => ⟨0x700414, 0x200, 2, 0x20, 13, 23, 0, .status, 0, false⟩
  | .OUT_CFG_ALIGN_RATE => ⟨0x800000, 0x0, 1, 0x0, 1, 31, 24, .live, 1, false⟩
  | .OUT_CFG_RET_MS => ⟨0x800000, 0x0, 1, 0x0, 1, 15, 0, .live, 100, false⟩
  | .OUT_SYN1_FREQ => ⟨0x800004, 0x0, 1, 0x0, 1, 1, 0, .frozen, 0, false⟩
  | .OUT_CLK_CFG_EN => ⟨0x800100, 0x20, 8, 0x0, 1, 31, 31, .live, 0, false⟩
  | .OUT_CLK_CFG_OE => ⟨0x800100, 0x20, 8, 0x0, 1, 30, 30, .live, 0, false⟩
  | .OUT_CLK_CFG_SHARED => ⟨0x800100, 0x20, 8, 0x0, 1, 29, 29, .frozen, 0, false⟩
  | .OUT_CLK_CFG_AUTO_RET => ⟨0x800100, 0x20, 8, 0x0, 1, 28, 28, .live, 1, false⟩
  | .OUT_CLK_CFG_ALIGN_MODE => ⟨0x800100, 0x20, 8, 0x0, 1, 27, 27, .live, 1, false⟩
  | .OUT_CLK_CFG_MODE => ⟨0x800100, 0x20, 8, 0x0, 1, 26, 26, .staged, 0, false⟩
  | .OUT_CLK_CFG_SRC => ⟨0x800100, 0x20, 8, 0x0, 1, 25, 25, .staged, 0, false⟩
  | .OUT_CLK_CFG_DIV => ⟨0x800100, 0x20, 8, 0x0, 1, 19, 0, .staged, 800, false⟩
  | .OUT_CLK_FDIV_FDIV => ⟨0x800104, 0x20, 8, 0x0, 1, 23, 0, .staged, 2, false⟩
  | .OUT_CLK_WIDTH_WIDTH => ⟨0x800108, 0x20, 8, 0x0, 1, 23, 0, .staged, 1, false⟩
  | .OUT_CLK_PHASE_PS => ⟨0x80010C, 0x20, 8, 0x0, 1, 31, 0, .live, 0, false⟩
  | .OUT_CLK_STATUS_STATE => ⟨0x800110, 0x20, 8, 0x0, 1, 31, 29, .status, 0, false⟩
  | .OUT_CLK_STATUS_NEED_ALIGN => ⟨0x800110, 0x20, 8, 0x0, 1, 28, 28, .status, 0, false⟩
  | .OUT_CLK_STATUS_GATE => ⟨0x800110, 0x20, 8, 0x0, 1, 27, 27, .status, 0, false⟩
  | .OUT_CLK_STATUS_LINE_LOCK => ⟨0x800110, 0x20, 8, 0x0, 1, 26, 26, .status, 0, false⟩
  | .OUT_CLK_STATUS_SETTING => ⟨0x800110, 0x20, 8, 0x0, 1, 25, 16, .status, 0, false⟩
  | .OUT_CLK_STATUS_RESID => ⟨0x800110, 0x20, 8, 0x0, 1, 15, 0, .status, 32768, false⟩
  | .OUT_CLK_OFS_PS => ⟨0x800114, 0x20, 8, 0x0, 1, 31, 0, .status, 0, false⟩
  | .OUT_CLK_CAL_TEMP => ⟨0x800118, 0x20, 8, 0x0, 1, 31, 16, .status, 0, false⟩
  | .OUT_CLK_CAL_RESID => ⟨0x800118, 0x20, 8, 0x0, 1, 15, 0, .status, 32768, false⟩
  | .OUT_TIO_CFG_SHARED => ⟨0x800200, 0x10, 8, 0x0, 1, 31, 31, .frozen, 0, false⟩
  | .OUT_TIO_STATUS_STATE => ⟨0x800204, 0x10, 8, 0x0, 1, 31, 29, .status, 0, false⟩
  | .OUT_TIO_STATUS_GATE => ⟨0x800204, 0x10, 8, 0x0, 1, 27, 27, .status, 0, false⟩
  | .OUT_TIO_STATUS_LINE_LOCK => ⟨0x800204, 0x10, 8, 0x0, 1, 26, 26, .status, 0, false⟩
  | .OUT_TIO_STATUS_RESID => ⟨0x800204, 0x10, 8, 0x0, 1, 15, 0, .status, 32768, false⟩
  | .PAIR_CFG_EN => ⟨0x900000, 0x0, 1, 0x0, 1, 31, 31, .staged, 0, false⟩
  | .PAIR_CFG_INBAND => ⟨0x900000, 0x0, 1, 0x0, 1, 30, 30, .frozen, 0, false⟩
  | .PAIR_CFG_RANK => ⟨0x900000, 0x0, 1, 0x0, 1, 27, 24, .staged, 8, false⟩
  | .PAIR_CFG_JOIN_WAIT => ⟨0x900000, 0x0, 1, 0x0, 1, 23, 16, .live, 16, false⟩
  | .PAIR_CFG_CHK_TX => ⟨0x900000, 0x0, 1, 0x0, 1, 11, 8, .frozen, 10, false⟩
  | .PAIR_CFG_CHK_RX => ⟨0x900000, 0x0, 1, 0x0, 1, 7, 4, .frozen, 11, false⟩
  | .PAIR_INBAND_PORT => ⟨0x900004, 0x0, 1, 0x0, 1, 8, 0, .frozen, 0, false⟩
  | .PAIR_INBAND_MAC_MAC => ⟨0x900008, 0x0, 1, 0x0, 1, 47, 0, .frozen, 0, true⟩
  | .PAIR_STATUS_ROLE => ⟨0x900010, 0x0, 1, 0x0, 1, 31, 31, .status, 0, false⟩
  | .PAIR_STATUS_STATE => ⟨0x900010, 0x0, 1, 0x0, 1, 30, 28, .status, 0, false⟩
  | .PAIR_STATUS_UNIT => ⟨0x900010, 0x0, 1, 0x0, 1, 27, 27, .status, 0, false⟩
  | .PAIR_STATUS_PEER_CLAIM => ⟨0x900010, 0x0, 1, 0x0, 1, 23, 16, .status, 0, false⟩
  | .PAIR_STATUS_OWN_CLAIM => ⟨0x900010, 0x0, 1, 0x0, 1, 15, 8, .status, 0, false⟩
  | .PAIR_STATUS_PEER_SRC => ⟨0x900010, 0x0, 1, 0x0, 1, 7, 6, .status, 0, false⟩
  | .PAIR_PATHS_MY0 => ⟨0x900014, 0x0, 1, 0x0, 1, 31, 31, .status, 0, false⟩
  | .PAIR_PATHS_MY1 => ⟨0x900014, 0x0, 1, 0x0, 1, 30, 30, .status, 0, false⟩
  | .PAIR_PATHS_CLAIM_RX => ⟨0x900014, 0x0, 1, 0x0, 1, 29, 29, .status, 0, false⟩
  | .PAIR_PATHS_MYW_MISS => ⟨0x900014, 0x0, 1, 0x0, 1, 15, 8, .status, 0, false⟩
  | .PAIR_PATHS_INB_MISS => ⟨0x900014, 0x0, 1, 0x0, 1, 7, 0, .status, 0, false⟩
  | .PAIR_EPOCH_SENT_EPOCH => ⟨0x900018, 0x0, 1, 0x0, 1, 31, 0, .status, 0, false⟩
  | .PAIR_EPOCH_HELD_EPOCH => ⟨0x90001C, 0x0, 1, 0x0, 1, 31, 0, .status, 0, false⟩
  | .PAIR_EPOCH_GAP_EPOCHS => ⟨0x900020, 0x0, 1, 0x0, 1, 31, 0, .status, 0, false⟩
  | .PAIR_TOFS_NS => ⟨0x900024, 0x0, 1, 0x0, 1, 31, 0, .status, 0, false⟩
  | .PAIR_HANDOVER_TICK => ⟨0x900028, 0x0, 1, 0x0, 1, 31, 0, .status, 0, false⟩
  | .PAIR_HEALTH_OWN => ⟨0x90002C, 0x0, 1, 0x0, 1, 31, 29, .status, 0, false⟩
  | .PAIR_HEALTH_PEER => ⟨0x90002C, 0x0, 1, 0x0, 1, 28, 26, .status, 0, false⟩
  | .PAIR_HEALTH_DRV_TIO => ⟨0x90002C, 0x0, 1, 0x0, 1, 15, 8, .clear1, 0, false⟩
  | .PAIR_HEALTH_DRV_CLK => ⟨0x90002C, 0x0, 1, 0x0, 1, 7, 0, .clear1, 0, false⟩
  | .PAIR_COPY_CFG_FULL_EVERY => ⟨0x900030, 0x0, 1, 0x0, 1, 7, 0, .live, 64, false⟩
  | .LN_LADDER_ATTEMPTS => ⟨0xA00000, 0x0, 1, 0x0, 1, 31, 24, .live, 8, false⟩
  | .LN_LADDER_RUNG_TIMEOUT => ⟨0xA00000, 0x0, 1, 0x0, 1, 23, 12, .live, 100, false⟩
  | .LN_LADDER_BACKOFF_BASE => ⟨0xA00000, 0x0, 1, 0x0, 1, 11, 0, .live, 10, false⟩
  | .LN_MERIT_MIN_MIN => ⟨0xA00008, 0x0, 1, 0x0, 1, 47, 0, .live, 0x908070403820, true⟩
  | .LN_TABLE_CTRL_RELOAD => ⟨0xA00010, 0x0, 1, 0x0, 1, 0, 0, .pulse, 0, false⟩
  | .LN_TABLE_STATUS_VALID => ⟨0xA00014, 0x0, 1, 0x0, 1, 31, 31, .status, 0, false⟩
  | .LN_TABLE_STATUS_CRC_ERR => ⟨0xA00014, 0x0, 1, 0x0, 1, 30, 30, .sticky, 0, false⟩
  | .LN_TABLE_STATUS_DEFAULTS => ⟨0xA00014, 0x0, 1, 0x0, 1, 29, 29, .status, 0, false⟩
  | .LN_TABLE_STATUS_VERSION => ⟨0xA00014, 0x0, 1, 0x0, 1, 15, 0, .status, 0, false⟩
  | .LN_BOARD_ID_ID => ⟨0xA00018, 0x0, 1, 0x0, 1, 31, 0, .status, 0, false⟩
  | .LN_CAL_CTRL_EN => ⟨0xA0001C, 0x0, 1, 0x0, 1, 31, 31, .live, 1, false⟩
  | .LN_CAL_CTRL_PER_SLICE => ⟨0xA0001C, 0x0, 1, 0x0, 1, 3, 0, .live, 1, false⟩
  | .LN_SWEEP_DWELL => ⟨0xA00020, 0x0, 1, 0x0, 1, 4, 0, .live, 20, false⟩
  | .LN_CFG_TRAIN => ⟨0xA01000, 0x1000, 260, 0x0, 1, 27, 26, .frozen, 3, false⟩
  | .LN_CFG_RAW => ⟨0xA01000, 0x1000, 260, 0x0, 1, 25, 25, .frozen, 0, false⟩
  | .LN_CFG_PRBS => ⟨0xA01000, 0x1000, 260, 0x0, 1, 24, 21, .frozen, 0, false⟩
  | .LN_CFG_POL_TX_INV => ⟨0xA01000, 0x1000, 260, 0x0, 1, 20, 20, .frozen, 0, false⟩
  | .LN_CFG_POL_RX_INV => ⟨0xA01000, 0x1000, 260, 0x0, 1, 19, 19, .frozen, 0, false⟩
  | .LN_CFG_FIXED_RUNG => ⟨0xA01000, 0x1000, 260, 0x0, 1, 18, 16, .frozen, 5, false⟩
  | .LN_CFG_ATTEMPTS => ⟨0xA01000, 0x1000, 260, 0x0, 1, 15, 8, .frozen, 0, false⟩
  | .LN_STATUS_STATE => ⟨0xA01004, 0x1000, 260, 0x0, 1, 31, 28, .status, 0, false⟩
  | .LN_STATUS_RUNG => ⟨0xA01004, 0x1000, 260, 0x0, 1, 27, 25, .status, 0, false⟩
  | .LN_STATUS_EDGE => ⟨0xA01004, 0x1000, 260, 0x0, 1, 24, 24, .status, 0, false⟩
  | .LN_STATUS_PRECODE_TX => ⟨0xA01004, 0x1000, 260, 0x0, 1, 23, 23, .status, 0, false⟩
  | .LN_STATUS_PRECODE_RX => ⟨0xA01004, 0x1000, 260, 0x0, 1, 22, 22, .status, 0, false⟩
  | .LN_STATUS_SIGNAL => ⟨0xA01004, 0x1000, 260, 0x0, 1, 21, 21, .status, 0, false⟩
  | .LN_STATUS_LOCK => ⟨0xA01004, 0x1000, 260, 0x0, 1, 20, 20, .status, 0, false⟩
  | .LN_STATUS_PARTNER => ⟨0xA01004, 0x1000, 260, 0x0, 1, 19, 18, .status, 0, false⟩
  | .LN_STATUS_MERIT => ⟨0xA01004, 0x1000, 260, 0x0, 1, 15, 8, .status, 0, false⟩
  | .LN_STATUS_ATTEMPTS => ⟨0xA01004, 0x1000, 260, 0x0, 1, 7, 0, .status, 0, false⟩
  | .LN_TXFIR_TAPS => ⟨0xA01008, 0x1000, 260, 0x0, 1, 31, 0, .status, 0, false⟩
  | .LN_RXEQ_CTLE_PEAK => ⟨0xA0100C, 0x1000, 260, 0x0, 1, 15, 8, .status, 0, false⟩
  | .LN_RXEQ_CTLE_DC => ⟨0xA0100C, 0x1000, 260, 0x0, 1, 7, 0, .status, 0, false⟩
  | .LN_CAL_MERIT_AFTER => ⟨0xA01010, 0x1000, 260, 0x0, 1, 31, 24, .status, 0, false⟩
  | .LN_CAL_MERIT_BEFORE => ⟨0xA01010, 0x1000, 260, 0x0, 1, 23, 16, .status, 0, false⟩
  | .LN_CAL_TEMP => ⟨0xA01010, 0x1000, 260, 0x0, 1, 15, 0, .status, 0, false⟩
  | .LN_SLIP_CUM => ⟨0xA01014, 0x1000, 260, 0x0, 1, 15, 0, .status, 0, false⟩
  | .LN_RAW_MARKER_MARKER => ⟨0xA01018, 0x1000, 260, 0x0, 1, 63, 0, .live, 0, true⟩
  | .LN_RAW_MATCH_COUNT => ⟨0xA01020, 0x1000, 260, 0x0, 1, 31, 0, .status, 0, false⟩
  | .LN_PRBS_ERR_ERRORS => ⟨0xA01024, 0x1000, 260, 0x0, 1, 63, 0, .status, 0, true⟩
  | .PRT_PFC_MAP_TIMING => ⟨0xC00000, 0x0, 1, 0x0, 1, 14, 12, .staged, 7, false⟩
  | .PRT_PFC_MAP_EXPRESS => ⟨0xC00000, 0x0, 1, 0x0, 1, 11, 9, .staged, 6, false⟩
  | .PRT_PFC_MAP_MEDIA => ⟨0xC00000, 0x0, 1, 0x0, 1, 8, 6, .staged, 5, false⟩
  | .PRT_PFC_MAP_CONTROL => ⟨0xC00000, 0x0, 1, 0x0, 1, 5, 3, .staged, 4, false⟩
  | .PRT_PFC_MAP_BEST => ⟨0xC00000, 0x0, 1, 0x0, 1, 2, 0, .staged, 0, false⟩
  | .PRT_MPCFG_MP1 => ⟨0xC00004, 0x0, 1, 0x0, 1, 7, 4, .frozen, 0, false⟩
  | .PRT_MPCFG_MP0 => ⟨0xC00004, 0x0, 1, 0x0, 1, 3, 0, .frozen, 0, false⟩
  | .PRT_MODE_ADMIN_UP => ⟨0xC04000, 0x800, 258, 0x0, 1, 31, 31, .status, 0, false⟩
  | .PRT_MODE_UP => ⟨0xC04000, 0x800, 258, 0x0, 1, 30, 30, .status, 0, false⟩
  | .PRT_MODE_RATE => ⟨0xC04000, 0x800, 258, 0x0, 1, 29, 27, .status, 1, false⟩
  | .PRT_MODE_WIDTH => ⟨0xC04000, 0x800, 258, 0x0, 1, 26, 23, .status, 1, false⟩
  | .PRT_MODE_FEC => ⟨0xC04000, 0x800, 258, 0x0, 1, 22, 21, .status, 0, false⟩
  | .PRT_MODE_PREEMPT => ⟨0xC04000, 0x800, 258, 0x0, 1, 20, 20, .status, 0, false⟩
  | .PRT_MODE_PFC => ⟨0xC04000, 0x800, 258, 0x0, 1, 19, 19, .status, 0, false⟩
  | .PRT_MODE_ABSORBED => ⟨0xC04000, 0x800, 258, 0x0, 1, 18, 18, .status, 0, false⟩
  | .PRT_MODE_PFC_MASK => ⟨0xC04000, 0x800, 258, 0x0, 1, 7, 0, .status, 0, false⟩
  | .PRT_MAXLEN_MAXLEN => ⟨0xC04004, 0x800, 258, 0x0, 1, 13, 0, .frozen, 9216, false⟩
  | .PRT_DLY_RX => ⟨0xC04008, 0x800, 258, 0x0, 1, 31, 16, .status, 0, false⟩
  | .PRT_DLY_TX => ⟨0xC04008, 0x800, 258, 0x0, 1, 15, 0, .status, 0, false⟩
  | .PRT_PREEMPT_VERIFY => ⟨0xC0400C, 0x800, 258, 0x0, 1, 31, 31, .frozen, 1, false⟩
  | .PRT_PREEMPT_ADD_FRAG => ⟨0xC0400C, 0x800, 258, 0x0, 1, 30, 29, .frozen, 0, false⟩
  | .PRT_PREEMPT_STATE => ⟨0xC0400C, 0x800, 258, 0x0, 1, 28, 27, .status, 0, false⟩
  | .PRT_PREEMPT_VERIFY_MS => ⟨0xC0400C, 0x800, 258, 0x0, 1, 7, 0, .frozen, 10, false⟩
  | .PRT_PFC_QUANTA => ⟨0xC04010, 0x800, 258, 0x0, 1, 31, 16, .live, 65535, false⟩
  | .PRT_PFC_XOFF_TX => ⟨0xC04010, 0x800, 258, 0x0, 1, 15, 8, .status, 0, false⟩
  | .PRT_PFC_XOFF_RX => ⟨0xC04010, 0x800, 258, 0x0, 1, 7, 0, .status, 0, false⟩
  | .PRT_HOLD_LIMIT => ⟨0xC04014, 0x800, 258, 0x0, 1, 23, 0, .live, 1000, false⟩
  | .PRT_VENT_EN => ⟨0xC04018, 0x800, 258, 0x0, 1, 28, 24, .live, 11, false⟩
  | .PRT_VENT_TICKS => ⟨0xC04018, 0x800, 258, 0x0, 1, 23, 0, .live, 10000, false⟩
  | .CLS_ROUTER_MAC_MAC => ⟨0xD00000, 0x0, 1, 0x0, 1, 47, 0, .staged, 0, true⟩
  | .CLS_PCP_MAP_MAP => ⟨0xD00008, 0x0, 1, 0x0, 1, 23, 0, .staged, 0x6e4924, false⟩
  | .CLS_MISS_GROUP => ⟨0xD0000C, 0x0, 1, 0x0, 1, 31, 16, .staged, 0, false⟩
  | .CLS_MISS_L3_MC => ⟨0xD0000C, 0x0, 1, 0x0, 1, 7, 6, .staged, 0, false⟩
  | .CLS_MISS_L3_UC => ⟨0xD0000C, 0x0, 1, 0x0, 1, 5, 4, .staged, 0, false⟩
  | .CLS_MISS_L2_MC => ⟨0xD0000C, 0x0, 1, 0x0, 1, 3, 2, .staged, 0, false⟩
  | .CLS_MISS_L2_UC => ⟨0xD0000C, 0x0, 1, 0x0, 1, 1, 0, .staged, 0, false⟩
  | .CLS_PLEN4_LEN => ⟨0xD00010, 0x0, 1, 0x0, 1, 63, 0, .staged, 0xffffffffffffffff, true⟩
  | .CLS_PLEN6_LEN => ⟨0xD00018, 0x0, 1, 0x0, 1, 63, 0, .staged, 0xffffffffffffffff, true⟩
  | .CLS_SEED_L2_SEED => ⟨0xD00020, 0x0, 1, 0x0, 1, 31, 0, .frozen, 0, false⟩
  | .CLS_SEED_L3_SEED => ⟨0xD00024, 0x0, 1, 0x0, 1, 31, 0, .frozen, 0, false⟩
  | .CLS_SEED_FLOW_SEED => ⟨0xD00028, 0x0, 1, 0x0, 1, 31, 0, .frozen, 0, false⟩
  | .CLS_SNOOP_ACTION => ⟨0xD00030, 0x0, 1, 0x0, 1, 8, 8, .live, 0, false⟩
  | .CLS_SNOOP_RATE => ⟨0xD00030, 0x0, 1, 0x0, 1, 7, 0, .live, 16, false⟩
  | .CLS_PLACE_EN => ⟨0xD00034, 0x0, 1, 0x0, 1, 31, 31, .live, 1, false⟩
  | .CLS_PLACE_EXP_RANK => ⟨0xD00034, 0x0, 1, 0x0, 1, 30, 27, .live, 8, false⟩
  | .CLS_PLACE_MOVES => ⟨0xD00034, 0x0, 1, 0x0, 1, 26, 16, .live, 256, false⟩
  | .CLS_PLACE_INTERVAL => ⟨0xD00034, 0x0, 1, 0x0, 1, 15, 0, .live, 1000, false⟩
  | .CLS_PLACE_BANK_SLOT_RESERVE => ⟨0xD00038, 0x0, 1, 0x0, 1, 31, 16, .live, 4096, false⟩
  | .CLS_PLACE_BANK_SKEW => ⟨0xD00038, 0x0, 1, 0x0, 1, 7, 0, .live, 25, false⟩
  | .CLS_PLACE_AUDIT_UNITS => ⟨0xD0003C, 0x0, 1, 0x0, 1, 15, 0, .live, 61440, false⟩
  | .CLS_SCRUB_TICKS => ⟨0xD00040, 0x0, 1, 0x0, 1, 23, 0, .live, 10000, false⟩
  | .CLS_PLACE_QUERY_GO => ⟨0xD00048, 0x0, 1, 0x0, 1, 31, 31, .pulse, 0, false⟩
  | .CLS_PLACE_QUERY_FLOW => ⟨0xD00048, 0x0, 1, 0x0, 1, 22, 0, .live, 0, false⟩
  | .CLS_PLACE_RESULT_DONE => ⟨0xD0004C, 0x0, 1, 0x0, 1, 31, 31, .status, 0, false⟩
  | .CLS_PLACE_RESULT_STATE => ⟨0xD0004C, 0x0, 1, 0x0, 1, 30, 28, .status, 0, false⟩
  | .CLS_PLACE_RESULT_WHERE => ⟨0xD0004C, 0x0, 1, 0x0, 1, 27, 27, .status, 0, false⟩
  | .CLS_PLACE_RESULT_PIN => ⟨0xD0004C, 0x0, 1, 0x0, 1, 26, 26, .status, 0, false⟩
  | .CLS_PLACE_RESULT_BANK => ⟨0xD0004C, 0x0, 1, 0x0, 1, 25, 20, .status, 0, false⟩
  | .CLS_PLACE_RESULT_CHKU => ⟨0xD0004C, 0x0, 1, 0x0, 1, 19, 15, .status, 0, false⟩
  | .CLS_PLACE_RESULT_POOL => ⟨0xD0004C, 0x0, 1, 0x0, 1, 14, 13, .status, 0, false⟩
  | .CLS_PLACE_RESULT_REPL => ⟨0xD0004C, 0x0, 1, 0x0, 1, 12, 11, .status, 0, false⟩
  | .CLS_PLACE_RESULT_GEN => ⟨0xD0004C, 0x0, 1, 0x0, 1, 10, 9, .status, 0, false⟩
  | .CLS_PINS_PINS => ⟨0xD00050, 0x0, 1, 0x0, 1, 16, 0, .status, 0, false⟩
  | .CLS_VERSIONS_USED => ⟨0xD00054, 0x0, 1, 0x0, 1, 31, 17, .status, 0, false⟩
  | .CLS_VERSIONS_HELD => ⟨0xD00054, 0x0, 1, 0x0, 1, 16, 0, .status, 0, false⟩
  | .CIS_ARB_CFG_WEIGHT => ⟨0xE00000, 0x4, 8, 0x0, 1, 29, 16, .live, 0, false⟩
  | .CIS_ARB_CFG_BURST => ⟨0xE00000, 0x4, 8, 0x0, 1, 15, 12, .live, 0, false⟩
  | .CIS_ARB_CFG_WAIT_LIMIT => ⟨0xE00000, 0x4, 8, 0x0, 1, 11, 0, .live, 0, false⟩
  | .CIS_ARB_STAT_CREDIT => ⟨0xE00020, 0x4, 8, 0x0, 1, 31, 16, .status, 0, false⟩
  | .CIS_ARB_STAT_WAIT => ⟨0xE00020, 0x4, 8, 0x0, 1, 11, 0, .status, 0, false⟩
  | .CIS_STATUS_TRAINED => ⟨0xE00040, 0x0, 1, 0x0, 1, 31, 31, .status, 0, false⟩
  | .CIS_STATUS_REFRESH_2X => ⟨0xE00040, 0x0, 1, 0x0, 1, 30, 30, .status, 0, false⟩
  | .CIS_STATUS_TEMP => ⟨0xE00040, 0x0, 1, 0x0, 1, 15, 0, .status, 0, false⟩
  | .CIS_SCRUB_LINES => ⟨0xE00044, 0x0, 1, 0x0, 1, 11, 0, .live, 64, false⟩
  | .OAS_TIMING_CELLS => ⟨0xF00000, 0x0, 1, 0x0, 1, 19, 0, .frozen, 8192, false⟩
  | .OAS_REFILL_HIGH => ⟨0xF00004, 0x0, 1, 0x0, 1, 27, 16, .live, 3840, false⟩
  | .OAS_REFILL_LOW => ⟨0xF00004, 0x0, 1, 0x0, 1, 11, 0, .live, 3072, false⟩
  | .OAS_FREE_RING => ⟨0xF00008, 0x0, 1, 0x0, 1, 19, 0, .status, 0, false⟩
  | .OAS_ONDIE_REFILL => ⟨0xF0000C, 0x0, 1, 0x0, 1, 28, 16, .status, 0, false⟩
  | .OAS_ONDIE_CACHED => ⟨0xF0000C, 0x0, 1, 0x0, 1, 11, 0, .status, 0, false⟩
  | .OAS_DUST_EN => ⟨0xF00010, 0x0, 1, 0x0, 1, 31, 31, .live, 1, false⟩
  | .OAS_DUST_RECLAIM => ⟨0xF00010, 0x0, 1, 0x0, 1, 30, 30, .live, 0, false⟩
  | .OAS_DUST_PERIOD => ⟨0xF00010, 0x0, 1, 0x0, 1, 23, 0, .live, 10000, false⟩
  | .OAS_DUST_STATUS_STATE => ⟨0xF00014, 0x0, 1, 0x0, 1, 31, 30, .status, 0, false⟩
  | .OAS_DUST_STATUS_SWEEPS => ⟨0xF00014, 0x0, 1, 0x0, 1, 15, 0, .status, 0, false⟩
  | .OAS_DUST_LEAKED_CELLS => ⟨0xF00018, 0x0, 1, 0x0, 1, 19, 0, .status, 0, false⟩
  | .OAS_DUST_LOST_CELLS => ⟨0xF0001C, 0x0, 1, 0x0, 1, 19, 0, .status, 0, false⟩
  | .OAS_CELL_QUERY_GO => ⟨0xF00020, 0x0, 1, 0x0, 1, 31, 31, .pulse, 0, false⟩
  | .OAS_CELL_QUERY_CELL => ⟨0xF00020, 0x0, 1, 0x0, 1, 19, 0, .live, 0, false⟩
  | .OAS_CELL_RESULT_DONE => ⟨0xF00024, 0x0, 1, 0x0, 1, 31, 31, .status, 0, false⟩
  | .OAS_CELL_RESULT_STATE => ⟨0xF00024, 0x0, 1, 0x0, 1, 30, 30, .status, 0, false⟩
  | .OAS_CELL_RESULT_HR => ⟨0xF00024, 0x0, 1, 0x0, 1, 29, 29, .status, 0, false⟩
  | .OAS_CELL_RESULT_POOL => ⟨0xF00024, 0x0, 1, 0x0, 1, 28, 27, .status, 0, false⟩
  | .OAS_CELL_RESULT_MARK => ⟨0xF00024, 0x0, 1, 0x0, 1, 26, 26, .status, 0, false⟩
  | .OAS_CELL_RESULT_PAR_ERR => ⟨0xF00024, 0x0, 1, 0x0, 1, 25, 25, .status, 0, false⟩
  | .OAS_CELL_RESULT_REF => ⟨0xF00024, 0x0, 1, 0x0, 1, 9, 0, .status, 0, false⟩
  | .OAS_CELL_LINK_PORT => ⟨0xF00028, 0x0, 1, 0x0, 1, 27, 20, .status, 0, false⟩
  | .OAS_CELL_LINK_NEXT => ⟨0xF00028, 0x0, 1, 0x0, 1, 19, 0, .status, 0, false⟩
  | .OAS_POOL_LIMIT_LIMIT => ⟨0xF00100, 0x20, 4, 0x0, 1, 19, 0, .staged, 0, false⟩
  | .OAS_POOL_HDRM_HDRM => ⟨0xF00104, 0x20, 4, 0x0, 1, 19, 0, .staged, 0, false⟩
  | .OAS_POOL_WARN_HIGH => ⟨0xF00108, 0x20, 4, 0x0, 1, 31, 16, .live, 0, false⟩
  | .OAS_POOL_WARN_LOW => ⟨0xF00108, 0x20, 4, 0x0, 1, 15, 0, .live, 0, false⟩
  | .OAS_POOL_USE_ABOVE_HIGH => ⟨0xF0010C, 0x20, 4, 0x0, 1, 31, 31, .status, 0, false⟩
  | .OAS_POOL_USE_IN_USE => ⟨0xF0010C, 0x20, 4, 0x0, 1, 19, 0, .status, 0, false⟩
  | .OAS_POOL_HUSE_HDRM_USE => ⟨0xF00110, 0x20, 4, 0x0, 1, 19, 0, .status, 0, false⟩
  | .OAS_HDRM_A_MEDIA => ⟨0xF01000, 0x8, 256, 0x0, 1, 31, 16, .staged, 0, false⟩
  | .OAS_HDRM_A_TIMING => ⟨0xF01000, 0x8, 256, 0x0, 1, 15, 0, .staged, 0, false⟩
  | .OAS_HDRM_B_BEST => ⟨0xF01004, 0x8, 256, 0x0, 1, 31, 16, .staged, 0, false⟩
  | .OAS_HDRM_B_CONTROL => ⟨0xF01004, 0x8, 256, 0x0, 1, 15, 0, .staged, 0, false⟩
  | .SWC_CT_EN => ⟨0x1000000, 0x0, 1, 0x0, 1, 31, 31, .live, 1, false⟩
  | .SWC_CT_CLASS => ⟨0x1000000, 0x0, 1, 0x0, 1, 28, 24, .live, 31, false⟩
  | .SWC_ADMIT_ALPHA => ⟨0x1000004, 0x0, 1, 0x0, 1, 27, 24, .staged, 0, false⟩
  | .SWC_ADMIT_XON_GAP => ⟨0x1000004, 0x0, 1, 0x0, 1, 19, 0, .staged, 256, false⟩
  | .SWC_PTP_TC_EN => ⟨0x1000008, 0x0, 1, 0x0, 1, 31, 31, .live, 0, false⟩
  | .SWC_PTP_MSG => ⟨0x1000008, 0x0, 1, 0x0, 1, 19, 16, .live, 15, false⟩
  | .SWC_PTP_MAX_RES => ⟨0x1000008, 0x0, 1, 0x0, 1, 15, 0, .live, 1000, false⟩
  | .SWC_STOMP_FRAMES => ⟨0x100000C, 0x0, 1, 0x0, 1, 31, 0, .status, 0, false⟩
  | .SWC_HOLD_HELD => ⟨0x1001000, 0x4, 258, 0x0, 1, 31, 24, .status, 0, false⟩
  | .SWC_HOLD_TICKS => ⟨0x1001000, 0x4, 258, 0x0, 1, 23, 0, .status, 0, false⟩
  | .EGR_TLOAD_GO => ⟨0x1100000, 0x0, 1, 0x0, 1, 31, 31, .pulse, 0, false⟩
  | .EGR_TLOAD_TABLE => ⟨0x1100000, 0x0, 1, 0x0, 1, 30, 30, .live, 0, false⟩
  | .EGR_TLOAD_HOLD => ⟨0x1100000, 0x0, 1, 0x0, 1, 29, 29, .live, 0, false⟩
  | .EGR_TLOAD_COUNT => ⟨0x1100000, 0x0, 1, 0x0, 1, 28, 18, .live, 0, false⟩
  | .EGR_TLOAD_FIRST => ⟨0x1100000, 0x0, 1, 0x0, 1, 17, 0, .live, 0, false⟩
  | .EGR_TLOAD_STATUS_PENDING => ⟨0x1100004, 0x0, 1, 0x0, 1, 31, 31, .status, 0, false⟩
  | .EGR_TLOAD_STATUS_RESULT => ⟨0x1100004, 0x0, 1, 0x0, 1, 30, 28, .status, 0, false⟩
  | .EGR_TLOAD_STATUS_TICK => ⟨0x1100004, 0x0, 1, 0x0, 1, 15, 0, .status, 0, false⟩
  | .EGR_PACE_LATE_NS => ⟨0x1100008, 0x0, 1, 0x0, 1, 31, 16, .live, 200, false⟩
  | .EGR_PACE_WARN => ⟨0x1100008, 0x0, 1, 0x0, 1, 15, 0, .live, 256, false⟩
  | .EGR_PACED_FLOWS => ⟨0x110000C, 0x0, 1, 0x0, 1, 16, 0, .status, 0, false⟩
  | .EGR_CLASSQ_MEDIA => ⟨0x1100010, 0x0, 1, 0x0, 1, 11, 8, .staged, 12, false⟩
  | .EGR_CLASSQ_CONTROL => ⟨0x1100010, 0x0, 1, 0x0, 1, 7, 4, .staged, 13, false⟩
  | .EGR_CLASSQ_BEST => ⟨0x1100010, 0x0, 1, 0x0, 1, 3, 0, .staged, 0, false⟩
  | .EGR_SCHED_STRICT_MIN => ⟨0x1104000, 0x40, 256, 0x0, 1, 31, 28, .staged, 8, false⟩
  | .EGR_SCHED_DEMOTE => ⟨0x1104000, 0x40, 256, 0x0, 1, 19, 16, .staged, 14, false⟩
  | .EGR_SCHED_PMAC => ⟨0x1104000, 0x40, 256, 0x0, 1, 15, 0, .staged, 32767, false⟩
  | .EGR_EXP_RATE => ⟨0x1104004, 0x40, 256, 0x0, 1, 31, 16, .live, 2000, false⟩
  | .EGR_EXP_BURST => ⟨0x1104004, 0x40, 256, 0x0, 1, 15, 0, .live, 512, false⟩
  | .EGR_EXP_LEVEL_LEVEL => ⟨0x1104008, 0x40, 256, 0x0, 1, 31, 0, .status, 512, false⟩
  | .EGR_WGT_WEIGHT => ⟨0x110400C, 0x40, 256, 0x4, 4, 31, 0, .live, 0x1010101, false⟩
  | .EGR_GATE_ACTIVE => ⟨0x110401C, 0x40, 256, 0x0, 1, 31, 31, .status, 0, false⟩
  | .EGR_GATE_FALLBACK => ⟨0x110401C, 0x40, 256, 0x0, 1, 30, 30, .status, 0, false⟩
  | .EGR_GATE_ENTRY => ⟨0x110401C, 0x40, 256, 0x0, 1, 25, 16, .status, 0, false⟩
  | .EGR_GATE_GATES => ⟨0x110401C, 0x40, 256, 0x0, 1, 15, 0, .status, 65535, false⟩
  | .EGR_GATE_SWAP_TICK => ⟨0x1104020, 0x40, 256, 0x0, 1, 31, 0, .status, 0, false⟩
  | .SPE_CFG_EN => ⟨0x1200000, 0x0, 1, 0x0, 1, 31, 31, .live, 1, false⟩
  | .SPE_CFG_JUMP => ⟨0x1200000, 0x0, 1, 0x0, 1, 30, 16, .staged, 4096, false⟩
  | .SPE_CFG_FILL_LAG => ⟨0x1200000, 0x0, 1, 0x0, 1, 15, 4, .staged, 4095, false⟩
  | .SPE_CFG_RESYNC => ⟨0x1200000, 0x0, 1, 0x0, 1, 3, 0, .staged, 8, false⟩
  | .SPE_SWEEP_TICKS => ⟨0x1200004, 0x0, 1, 0x0, 1, 23, 0, .live, 2000, false⟩
  | .SPE_QUERY_GO => ⟨0x1200008, 0x0, 1, 0x0, 1, 31, 31, .pulse, 0, false⟩
  | .SPE_QUERY_DONE => ⟨0x1200008, 0x0, 1, 0x0, 1, 30, 30, .status, 0, false⟩
  | .SPE_QUERY_PAIR => ⟨0x1200008, 0x0, 1, 0x0, 1, 19, 0, .live, 0, false⟩
  | .SPE_RESULT_RECORD => ⟨0x120000C, 0x0, 1, 0x0, 1, 63, 0, .status, 0, true⟩
  | .SPE_RESET_GO => ⟨0x1200014, 0x0, 1, 0x0, 1, 31, 31, .pulse, 0, false⟩
  | .SPE_RESET_PAIR => ⟨0x1200014, 0x0, 1, 0x0, 1, 19, 0, .live, 0, false⟩
  | .SPE_PROBE_EN => ⟨0x1200018, 0x0, 1, 0x0, 1, 31, 31, .live, 0, false⟩
  | .SPE_PROBE_PAIR => ⟨0x1200018, 0x0, 1, 0x0, 1, 19, 0, .live, 0, false⟩
  | .SPE_SKEW_MIN_NS => ⟨0x120001C, 0x0, 1, 0x0, 1, 31, 0, .status, 0, false⟩
  | .SPE_SKEW_MAX_NS => ⟨0x1200020, 0x0, 1, 0x0, 1, 31, 0, .status, 0, false⟩
  | .SPE_SKEW_SUM_NS => ⟨0x1200024, 0x0, 1, 0x0, 1, 63, 0, .status, 0, true⟩
  | .SPE_SKEW_COUNT_COUNT => ⟨0x120002C, 0x0, 1, 0x0, 1, 31, 0, .status, 0, false⟩
  | .SPE_AUDIT_LAST_FLOW => ⟨0x1200030, 0x0, 1, 0x0, 1, 22, 0, .status, 0, false⟩
  | .HST_KICK_KICK => ⟨0x4000000, 0x4000, 16, 0x0, 1, 0, 0, .pulse, 0, false⟩
  | .HST_FN_CTRL_RUN => ⟨0x4000010, 0x4000, 16, 0x0, 1, 31, 31, .live, 0, false⟩
  | .HST_FN_CTRL_QUIESCE => ⟨0x4000010, 0x4000, 16, 0x0, 1, 30, 30, .set1, 0, false⟩
  | .HST_FN_STATUS_QUIET => ⟨0x4000014, 0x4000, 16, 0x0, 1, 31, 31, .status, 1, false⟩
  | .HST_FN_STATUS_DMA_ERR => ⟨0x4000014, 0x4000, 16, 0x0, 1, 30, 30, .clear1, 0, false⟩
  | .HST_FN_STATUS_LONG_OPS => ⟨0x4000014, 0x4000, 16, 0x0, 1, 3, 0, .status, 0, false⟩
  | .HST_DB_BASE_ADDR => ⟨0x4000018, 0x4000, 16, 0x0, 1, 63, 12, .frozen, 0, true⟩
  | .HST_EVQ_BASE_ADDR => ⟨0x4000020, 0x4000, 16, 0x0, 1, 63, 12, .frozen, 0, true⟩
  | .HST_EVQ_CTRL_EN => ⟨0x4000028, 0x4000, 16, 0x0, 1, 31, 31, .live, 0, false⟩
  | .HST_EVQ_CTRL_LOG2_SIZE => ⟨0x4000028, 0x4000, 16, 0x0, 1, 20, 16, .frozen, 6, false⟩
  | .HST_EVQ_CTRL_VECTOR => ⟨0x4000028, 0x4000, 16, 0x0, 1, 5, 0, .frozen, 0, false⟩
  | .HST_EVQ_STATUS_ERR => ⟨0x400002C, 0x4000, 16, 0x0, 1, 31, 29, .status, 0, false⟩
  | .HST_EVQ_STATUS_FULL => ⟨0x400002C, 0x4000, 16, 0x0, 1, 28, 28, .status, 0, false⟩
  | .HST_EVQ_STATUS_LOST => ⟨0x400002C, 0x4000, 16, 0x0, 1, 27, 16, .status, 0, false⟩
  | .HST_EVQ_STATUS_INDEX => ⟨0x400002C, 0x4000, 16, 0x0, 1, 15, 0, .status, 0, false⟩
  | .HST_SHADOW_BASE_ADDR => ⟨0x4000400, 0x4000, 16, 0x10, 7, 63, 12, .staged, 0, true⟩
  | .HST_SHADOW_CTRL_EN => ⟨0x4000408, 0x4000, 16, 0x10, 7, 31, 31, .staged, 0, false⟩
  | .HST_SHADOW_CTRL_ENTRIES => ⟨0x4000408, 0x4000, 16, 0x10, 7, 22, 0, .staged, 0, false⟩
  | .HST_SHADOW_STATUS_ACTIVE => ⟨0x400040C, 0x4000, 16, 0x10, 7, 31, 31, .status, 0, false⟩
  | .HST_SHADOW_STATUS_CONFLICT => ⟨0x400040C, 0x4000, 16, 0x10, 7, 30, 30, .clear1, 0, false⟩
  | .HST_SQ_BASE_ADDR => ⟨0x4001000, 0x4000, 16, 0x10, 256, 63, 12, .frozen, 0, true⟩
  | .HST_SQ_CTRL_EN => ⟨0x4001008, 0x4000, 16, 0x10, 256, 31, 31, .live, 0, false⟩
  | .HST_SQ_CTRL_LOG2_SIZE => ⟨0x4001008, 0x4000, 16, 0x10, 256, 20, 16, .frozen, 6, false⟩
  | .HST_SQ_STATUS_ERR => ⟨0x400100C, 0x4000, 16, 0x10, 256, 31, 29, .status, 0, false⟩
  | .HST_SQ_STATUS_INDEX => ⟨0x400100C, 0x4000, 16, 0x10, 256, 15, 0, .status, 0, false⟩
  | .HST_CQ_BASE_ADDR => ⟨0x4002000, 0x4000, 16, 0x10, 256, 63, 12, .frozen, 0, true⟩
  | .HST_CQ_CTRL_EN => ⟨0x4002008, 0x4000, 16, 0x10, 256, 31, 31, .live, 0, false⟩
  | .HST_CQ_CTRL_PUNT => ⟨0x4002008, 0x4000, 16, 0x10, 256, 30, 30, .frozen, 0, false⟩
  | .HST_CQ_CTRL_SLOT => ⟨0x4002008, 0x4000, 16, 0x10, 256, 29, 28, .frozen, 0, false⟩
  | .HST_CQ_CTRL_LOG2_SIZE => ⟨0x4002008, 0x4000, 16, 0x10, 256, 27, 23, .frozen, 6, false⟩
  | .HST_CQ_CTRL_VECTOR => ⟨0x4002008, 0x4000, 16, 0x10, 256, 22, 17, .frozen, 0, false⟩
  | .HST_CQ_CTRL_COAL_COUNT => ⟨0x4002008, 0x4000, 16, 0x10, 256, 15, 8, .live, 0, false⟩
  | .HST_CQ_CTRL_COAL_TICKS => ⟨0x4002008, 0x4000, 16, 0x10, 256, 7, 0, .live, 0, false⟩
  | .HST_CQ_STATUS_ERR => ⟨0x400200C, 0x4000, 16, 0x10, 256, 31, 29, .status, 0, false⟩
  | .HST_CQ_STATUS_FULL => ⟨0x400200C, 0x4000, 16, 0x10, 256, 28, 28, .status, 0, false⟩
  | .HST_CQ_STATUS_INDEX => ⟨0x400200C, 0x4000, 16, 0x10, 256, 15, 0, .status, 0, false⟩
  | .HST_TS_SEC_SEC => ⟨0x5000000, 0x10000, 16, 0x0, 1, 47, 0, .status, 0, true⟩
  | .HST_TS_NS_NS => ⟨0x5000008, 0x10000, 16, 0x0, 1, 29, 0, .status, 0, false⟩
  | .HST_TS_FRAC_TRACEABLE => ⟨0x500000C, 0x10000, 16, 0x0, 1, 31, 31, .status, 0, false⟩
  | .HST_TS_FRAC_GRAIN => ⟨0x500000C, 0x10000, 16, 0x0, 1, 15, 0, .status, 0, false⟩
  | .HST_TS_TICK_TICK => ⟨0x5000010, 0x10000, 16, 0x0, 1, 63, 0, .status, 0, true⟩

/-- Fields of the block at index 0x0 (part 0). -/
def fields0_0 : List Fld :=
  [.SYS_ID_PART, .SYS_ID_VENDOR, .SYS_REV_MAJOR, .SYS_REV_MINOR, .SYS_REV_MAP, .SYS_SERIAL_SERIAL, 
   .SYS_CAP_SLICES, .SYS_CAP_VFS, .SYS_CAP_HBM_GIB, .SYS_FW_RUN_VERSION, .SYS_KEY_ID_KEY, .SYS_TICK_TICK, 
   .SYS_TICK_COUNT_COUNT, .SYS_SCRATCH_VALUE, .SYS_STRAPS_UNIT_ID, .SYS_STRAPS_MGMT_SEL, .SYS_COMMIT_GO, 
   .SYS_COMMIT_AT, .SYS_COMMIT_TABLES, .SYS_COMMIT_SCOPE, .SYS_COMMIT_STATUS_PENDING, .SYS_COMMIT_STATUS_RESULT, 
   .SYS_COMMIT_STATUS_BLOCK, .SYS_COMMIT_STATUS_APPLIED_TICK, .SYS_COMMIT_AT_TICK, .SYS_GEN_CUR, .SYS_GEN_PEND, 
   .SYS_GEN_ARMED, .SYS_GEN_HELD, .SYS_GEN_STALL_TICKS, .SYS_GEN_DRAIN_FRAMES, .SYS_BUDGET_BULK_SHARE, 
   .SYS_TC_HORIZON_TICKS, .SYS_GEN_STALL_LIMIT_TICKS, .SYS_STATUS_READY, .SYS_STATUS_PLAYA, .SYS_STATUS_START, 
   .SYS_START_REASON_COUNT, .SYS_START_REASON_SWITCHED, .SYS_START_REASON_FALLBACK]

/-- Fields of the block at index 0x0 (part 1). -/
def fields0_1 : List Fld :=
  [.SYS_START_REASON_SLOT, .SYS_START_REASON_FAIL, .SYS_START_REASON_CAUSE, .SYS_START_CLEAR, .SYS_RESET_GO, 
   .SYS_RESET_KIND, .SYS_BLOCK_RESET_BLOCK, .SYS_BOOT_SELECT, .SYS_FW_VER_A_VERSION, .SYS_FW_VER_B_VERSION, 
   .SYS_CAL_EN, .SYS_CAL_DELTA, .SYS_THERM_CRIT, .SYS_THERM_WARN, .SYS_TEMP_MAX_SENSOR, .SYS_TEMP_MAX_TEMP, 
   .SYS_AVS_TARGET_MV, .SYS_TEMP_TEMP, .SYS_WAKE_SUB_STATE, .SYS_WAKE_PORT_STATE, .SYS_WAKE_PORT_TIMING, 
   .SYS_WAKE_BUDGET_PORT_NS, .SYS_WAKE_MP_STATE, .SYS_WAKE_MP_TIMING]

/-- Fields of the block at index 0x1 (part 0). -/
def fields1_0 : List Fld :=
  [.HST_PUNT_MAP_EN, .HST_PUNT_MAP_FUNC, .HST_PUNT_MAP_CQ, .HST_LONG_SUSP_LIMIT_TICKS, .HST_VF_PERM_CAIRN, 
   .HST_VF_PERM_CHK, .HST_VF_PERM_INJECT, .HST_VF_PERM_COMMIT, .HST_VF_PERM_TABLES, .HST_OP_STATE_STATE, 
   .HST_OP_STATE_FUNC, .HST_OP_STATE_SERIAL, .HST_OP_STATE_OPCODE, .HST_EV_MASK_MASK, .HST_EV_ROUTE_FUNC, 
   .HST_EV_SEV_SEV]

/-- Fields of the block at index 0x2 (part 0). -/
def fields2_0 : List Fld :=
  [.MBX_CTRL_LOCKED, .MBX_CTRL_LOCK, .MBX_XWAIT_TICKS, .MBX_LOCK_HOLD_TICKS, .MBX_DB_SET_BITS, .MBX_DB_PEND_BITS, 
   .MBX_DB_MASK_BITS, .MBX_CH_BIND_VALID, .MBX_CH_BIND_SENDER, .MBX_CH_BIND_RECEIVER, .MBX_CH_BIND_REMOTE, 
   .MBX_CH_STATUS_FULL, .MBX_CH_STATUS_REMOTE_WAIT, .MBX_CH_STATUS_XWAIT, .MBX_CH_CTRL_FLUSH, .MBX_CH_CTRL_DB_EN, 
   .MBX_CH_CTRL_DB_BIT, .MBX_CH_DATA_WORD, .MBX_LOCK_GRANTED, .MBX_LOCK_ABANDONED, .MBX_LOCK_HELD, 
   .MBX_LOCK_OWNER, .MBX_LOCK_RELEASE, .MBX_LOCK_PEEK_GRANTED, .MBX_LOCK_PEEK_ABANDONED, .MBX_LOCK_PEEK_HELD, 
   .MBX_LOCK_PEEK_OWNER]

/-- Fields of the block at index 0x3 (part 0). -/
def fields3_0 : List Fld :=
  [.OBS_DUMP_CFG_EN, .OBS_DUMP_CFG_PORTS, .OBS_DUMP_CFG_FLOWS, .OBS_DUMP_CFG_PERIOD, .OBS_DUMP_UNITS_UNITS, 
   .OBS_DUMP_BASE_ADDR, .OBS_DUMP_SLOTS_SLOTS, .OBS_FLOW_BASE_ADDR, .OBS_DUMP_STATUS_BUSY, 
   .OBS_DUMP_STATUS_FLOW_BUSY, .OBS_DUMP_SEQ_SEQ, .OBS_USER_READ_FUNCS, .OBS_USER_UNITS_UNITS, .OBS_SAMP_CFG_EN, 
   .OBS_SAMP_CFG_JITTER, .OBS_SAMP_CFG_LOG2, .OBS_SAMP_CFG_MAX_TICK, .OBS_SAMP_FILTER_PORT_EN, 
   .OBS_SAMP_FILTER_CLASS_EN, .OBS_SAMP_FILTER_CLASS, .OBS_SAMP_FILTER_PORT, .OBS_SAMP_BASE_ADDR, 
   .OBS_SAMP_SIZE_LOG2_SIZE, .OBS_SAMP_HEAD_HEAD, .OBS_SAMP_TAIL_TAIL, .OBS_SAMP_TAKEN_COUNT, 
   .OBS_SAMP_LOST_FULL_COUNT, .OBS_SAMP_LOST_RATE_COUNT, .OBS_SAMP_SKIP_BUSY_COUNT, .OBS_CAIRN_CTRL_EN, 
   .OBS_CAIRN_CFG_INTERVAL, .OBS_CAIRN_STATUS_MIRROR_BUSY, .OBS_CAIRN_STATUS_MIRROR_ERR, 
   .OBS_CAIRN_STATUS_RESTORE_BAD, .OBS_CAIRN_STATUS_LAST_COUNT, .OBS_CAIRN_STATUS_FIRST_COUNT, 
   .OBS_CAIRN_NEXT_SEQ_SEQ, .OBS_CAIRN_FIRST_SEQ_SEQ, .OBS_CAIRN_BOOT_BOOT, .OBS_U_CYC_CYCLES]

/-- Fields of the block at index 0x3 (part 1). -/
def fields3_1 : List Fld :=
  [.OBS_U_CNT_VALUE, .OBS_U_SEL_ALL, .OBS_U_SEL_KIND, .OBS_U_SEL_ITEM, .OBS_U_SEL_SUB, .OBS_U_IDX_IDX, 
   .OBS_U_OVF_OVF, .OBS_U_CLEAR_CNT]

/-- Fields of the block at index 0x4 (part 0). -/
def fields4_0 : List Fld :=
  [.CHK_CFG_WAIT_WARN, .CHK_CFG_CAIRN_UNIT, .CHK_UNIT_CFG_REFIN, .CHK_UNIT_CFG_REFOUT, .CHK_UNIT_CFG_FINAL_INV, 
   .CHK_UNIT_CFG_POOL, .CHK_UNIT_CFG_WIDTH, .CHK_UNIT_POLY_POLY, .CHK_UNIT_INIT_INIT, .CHK_UNIT_STATUS_BUSY, 
   .CHK_UNIT_STATUS_USER, .CHK_UNIT_STATUS_CTX, .CHK_UNIT_STATUS_QUEUED, .CHK_UNIT_LAST_VALUE, .CHK_UNIT_TEST_GO, 
   .CHK_UNIT_TEST_DONE, .CHK_UNIT_TESTV_VALUE, .CHK_UNIT_SKIPPED_COUNT, .CHK_UNIT_ALIVE_COUNT, 
   .CHK_UNIT_CLEAR_CTX]

/-- Fields of the block at index 0x5 (part 0). -/
def fields5_0 : List Fld :=
  [.TME_CFG_COMPAT, .TME_CFG_SERVO_OWNER, .TME_STATUS_TRACEABLE, .TME_STATUS_STEPPED, .TME_STATUS_SLEWING, 
   .TME_STATUS_STEPS, .TME_TRACE_SET, .TME_UTC_VALID, .TME_UTC_LEAP61, .TME_UTC_LEAP59, .TME_UTC_OFFSET, 
   .TME_TIME_SEC_SEC, .TME_TIME_NS_NS, .TME_TIME_FRAC_GRAIN, .TME_INCR_INCR, .TME_SLEW_AMT_AMOUNT, 
   .TME_SLEW_RATE_PPB, .TME_SLEW_LEFT_LEFT, .TME_SERVO_FREQ_FREQ, .TME_SERVO_CTRL_VALID, .TME_SERVO_CTRL_TIMEOUT, 
   .TME_TWOSTEP_AGE, .TME_STEP_LAST_GRAINS, .TME_STEP_TICK_TICK, .TME_INST_CFG_EN, .TME_INST_CFG_AGENT, 
   .TME_INST_CFG_ONE_STEP, .TME_INST_CFG_DELAY, .TME_INST_CFG_TRANSPORT, .TME_INST_CFG_PROFILE, 
   .TME_INST_CFG_DOMAIN, .TME_INST_ID_IDENTITY, .TME_INST_UNTRACE_ACCURACY, .TME_INST_UNTRACE_CLASS, 
   .TME_INST_TXS_VALID, .TME_INST_TXS_MSG, .TME_INST_TXS_PORT, .TME_INST_TXS_SEQ, .TME_INST_TXS_NS_NS, 
   .TME_INST_TXS_GRAIN_GRAIN]

/-- Fields of the block at index 0x5 (part 1). -/
def fields5_1 : List Fld :=
  [.TME_INST_SRC4_ADDR, .TME_INST_SRC6_0_ADDR, .TME_INST_SRC6_1_ADDR, .TME_INST_SRC6_2_ADDR, 
   .TME_INST_SRC6_3_ADDR, .TME_INST_DMAC_MAC, .TME_TIO_MODE_MODE, .TME_TIO_WIDTH_NS, .TME_TIO_PER_NUM_NUM, 
   .TME_TIO_PER_DEN_DEN, .TME_TIO_START_SEC_SEC, .TME_TIO_START_NS_NS, .TME_TIO_DLY_PS, .TME_TIO_IN_VALID, 
   .TME_TIO_IN_RISING, .TME_TIO_IN_LEFT, .TME_TIO_IN_SEC_SEC, .TME_TIO_IN_NS_NS, .TME_TIO_IN_FRAC_GRAIN, 
   .TME_TIO_STATUS_RUNNING, .TME_TIO_STATUS_SKIPPED, .TME_PORT_CFG_INST, .TME_PORT_CFG_STATE, 
   .TME_PORT_CFG_LOG_SYNC, .TME_PORT_CFG_LOG_DREQ, .TME_PORT_CFG_LOG_PDELAY, .TME_PORT_LINK_DELAY, 
   .TME_PORT_VLAN_EN, .TME_PORT_VLAN_PCP, .TME_PORT_VLAN_VLAN]

/-- Fields of the block at index 0x6 (part 0). -/
def fields6_0 : List Fld :=
  [.SEIF_CFG_AVG, .SEIF_CFG_LOCK, .SEIF_ITM_CTRL_GO, .SEIF_ITM_CTRL_STOP, .SEIF_ITM_CTRL_CONT, 
   .SEIF_ITM_SRC_START_FALL, .SEIF_ITM_SRC_START, .SEIF_ITM_SRC_STOP_FALL, .SEIF_ITM_SRC_STOP_SRC, .SEIF_ITM_N_N, 
   .SEIF_ITM_WIN_NS, .SEIF_ITM_TIMEOUT_NS, .SEIF_ITM_AGE_AUTO, .SEIF_ITM_AGE_PPB, .SEIF_ITM_STATUS_BUSY, 
   .SEIF_ITM_STATUS_CAL_BUSY, .SEIF_ITM_STATUS_RESULT, .SEIF_ITM_STATUS_COUNT, .SEIF_ITM_FLAGS_UNDER, 
   .SEIF_ITM_FLAGS_REVERSED, .SEIF_ITM_FLAGS_TIMEOUT, .SEIF_ITM_FLAGS_IGNORED, .SEIF_ITM_MEAN_MEAN, 
   .SEIF_ITM_DEV_DEV, .SEIF_ITM_MIN_MIN, .SEIF_ITM_MAX_MAX, .SEIF_ITM_LAST_LAST, .SEIF_ITM_CAL_GO, 
   .SEIF_ITM_CAL_TEMP, .SEIF_ITM_CAL_RESID, .SEIF_PORT_STATUS_RX_STATE, .SEIF_PORT_STATUS_TX_STATE, 
   .SEIF_PORT_STATUS_NOREC, .SEIF_PORT_STATUS_VALID, .SEIF_PORT_PHASE_RX_PHASE, .SEIF_PORT_PHASE_TX_PHASE, 
   .SEIF_PORT_FREQ_FREQ, .SEIF_PORT_RESID_ASYM, .SEIF_PORT_RESID_PHASE, .SEIF_PORT_MOD_RX]

/-- Fields of the block at index 0x6 (part 1). -/
def fields6_1 : List Fld :=
  [.SEIF_PORT_MOD_TX, .SEIF_PORT_PEER_PS, .SEIF_PORT_FIBRE_PS, .SEIF_PORT_DLOC_PS, .SEIF_PORT_ASYM_GRAINS, 
   .SEIF_PORT_PKG_RX, .SEIF_PORT_PKG_TX, .SEIF_PORT_BRD_RX, .SEIF_PORT_BRD_TX, .SEIF_PORT_STEP_PS]

/-- Fields of the block at index 0x7 (part 0). -/
def fields7_0 : List Fld :=
  [.REF_CFG_QL_MODE, .REF_CFG_DIS_GATES, .REF_CFG_DISAGREE, .REF_SLEW_LIMIT_D1, .REF_SLEW_LIMIT_D0, 
   .REF_MON_GATE_MS, .REF_XO_TRUSTED, .REF_XO_PPB, .REF_XO_MEAS_PPB, .REF_XO_TRUST_S, .REF_HOLD_CFG_START_S, 
   .REF_HOLD_CFG_END_S, .REF_HOLD_CFG_MIN_S, .REF_ESMC_EN, .REF_ESMC_HOLD_SSM, .REF_ESMC_FREE_SSM, 
   .REF_QL_MAP_GRADE, .REF_QL_EMAP_GRADE, .REF_PORTSLOT_PORT, .REF_IN_CFG_PPS, .REF_IN_CFG_FREQ_HZ, 
   .REF_ESMC_TXMASK_PORTS, .REF_SLOT_OFS_PPB, .REF_SLOT_QL_ESMC_SEEN, .REF_SLOT_QL_ENH, .REF_SLOT_QL_GRADE, 
   .REF_SLOT_QL_SSM, .REF_DPLL_CFG_PBO, .REF_DPLL_CFG_PULL, .REF_DPLL_CFG_ACQ_LIMIT, .REF_DPLL_CFG_ACQ_BW, 
   .REF_DPLL_STATUS_STATE, .REF_DPLL_STATUS_SELECTED, .REF_DPLL_STATUS_SATURATED, .REF_DPLL_STATUS_BW_NOW, 
   .REF_DPLL_FREQ_PPB, .REF_DPLL_HOLD_PPB, .REF_DPLL_HOLD_INFO_SHORT, .REF_DPLL_HOLD_INFO_ENTRIES, 
   .REF_DPLL_PBO_PS]

/-- Fields of the block at index 0x7 (part 1). -/
def fields7_1 : List Fld :=
  [.REF_DPLL_PBO_LAST_PS, .REF_DPLL_HOLD_TICKS_TICKS, .REF_DPLL_PHASE_PS, .REF_C_CTRL_REVERT, .REF_C_CTRL_GRADE, 
   .REF_C_CTRL_RANK, .REF_C_SOFT_PPB, .REF_C_HARD_PPB, .REF_C_QUAL_TICKS, .REF_C_BW_MHZ, .REF_C_STATUS_STATE, 
   .REF_C_STATUS_REASON, .REF_C_STATUS_ELIGIBLE, .REF_C_STATUS_QUAL_LEFT]

/-- Fields of the block at index 0x8 (part 0). -/
def fields8_0 : List Fld :=
  [.OUT_CFG_ALIGN_RATE, .OUT_CFG_RET_MS, .OUT_SYN1_FREQ, .OUT_CLK_CFG_EN, .OUT_CLK_CFG_OE, .OUT_CLK_CFG_SHARED, 
   .OUT_CLK_CFG_AUTO_RET, .OUT_CLK_CFG_ALIGN_MODE, .OUT_CLK_CFG_MODE, .OUT_CLK_CFG_SRC, .OUT_CLK_CFG_DIV, 
   .OUT_CLK_FDIV_FDIV, .OUT_CLK_WIDTH_WIDTH, .OUT_CLK_PHASE_PS, .OUT_CLK_STATUS_STATE, .OUT_CLK_STATUS_NEED_ALIGN, 
   .OUT_CLK_STATUS_GATE, .OUT_CLK_STATUS_LINE_LOCK, .OUT_CLK_STATUS_SETTING, .OUT_CLK_STATUS_RESID, 
   .OUT_CLK_OFS_PS, .OUT_CLK_CAL_TEMP, .OUT_CLK_CAL_RESID, .OUT_TIO_CFG_SHARED, .OUT_TIO_STATUS_STATE, 
   .OUT_TIO_STATUS_GATE, .OUT_TIO_STATUS_LINE_LOCK, .OUT_TIO_STATUS_RESID]

/-- Fields of the block at index 0x9 (part 0). -/
def fields9_0 : List Fld :=
  [.PAIR_CFG_EN, .PAIR_CFG_INBAND, .PAIR_CFG_RANK, .PAIR_CFG_JOIN_WAIT, .PAIR_CFG_CHK_TX, .PAIR_CFG_CHK_RX, 
   .PAIR_INBAND_PORT, .PAIR_INBAND_MAC_MAC, .PAIR_STATUS_ROLE, .PAIR_STATUS_STATE, .PAIR_STATUS_UNIT, 
   .PAIR_STATUS_PEER_CLAIM, .PAIR_STATUS_OWN_CLAIM, .PAIR_STATUS_PEER_SRC, .PAIR_PATHS_MY0, .PAIR_PATHS_MY1, 
   .PAIR_PATHS_CLAIM_RX, .PAIR_PATHS_MYW_MISS, .PAIR_PATHS_INB_MISS, .PAIR_EPOCH_SENT_EPOCH, 
   .PAIR_EPOCH_HELD_EPOCH, .PAIR_EPOCH_GAP_EPOCHS, .PAIR_TOFS_NS, .PAIR_HANDOVER_TICK, .PAIR_HEALTH_OWN, 
   .PAIR_HEALTH_PEER, .PAIR_HEALTH_DRV_TIO, .PAIR_HEALTH_DRV_CLK, .PAIR_COPY_CFG_FULL_EVERY]

/-- Fields of the block at index 0xA (part 0). -/
def fieldsA_0 : List Fld :=
  [.LN_LADDER_ATTEMPTS, .LN_LADDER_RUNG_TIMEOUT, .LN_LADDER_BACKOFF_BASE, .LN_MERIT_MIN_MIN, 
   .LN_TABLE_CTRL_RELOAD, .LN_TABLE_STATUS_VALID, .LN_TABLE_STATUS_CRC_ERR, .LN_TABLE_STATUS_DEFAULTS, 
   .LN_TABLE_STATUS_VERSION, .LN_BOARD_ID_ID, .LN_CAL_CTRL_EN, .LN_CAL_CTRL_PER_SLICE, .LN_SWEEP_DWELL, 
   .LN_CFG_TRAIN, .LN_CFG_RAW, .LN_CFG_PRBS, .LN_CFG_POL_TX_INV, .LN_CFG_POL_RX_INV, .LN_CFG_FIXED_RUNG, 
   .LN_CFG_ATTEMPTS, .LN_STATUS_STATE, .LN_STATUS_RUNG, .LN_STATUS_EDGE, .LN_STATUS_PRECODE_TX, 
   .LN_STATUS_PRECODE_RX, .LN_STATUS_SIGNAL, .LN_STATUS_LOCK, .LN_STATUS_PARTNER, .LN_STATUS_MERIT, 
   .LN_STATUS_ATTEMPTS, .LN_TXFIR_TAPS, .LN_RXEQ_CTLE_PEAK, .LN_RXEQ_CTLE_DC, .LN_CAL_MERIT_AFTER, 
   .LN_CAL_MERIT_BEFORE, .LN_CAL_TEMP, .LN_SLIP_CUM, .LN_RAW_MARKER_MARKER, .LN_RAW_MATCH_COUNT, 
   .LN_PRBS_ERR_ERRORS]

/-- Fields of the block at index 0xC (part 0). -/
def fieldsC_0 : List Fld :=
  [.PRT_PFC_MAP_TIMING, .PRT_PFC_MAP_EXPRESS, .PRT_PFC_MAP_MEDIA, .PRT_PFC_MAP_CONTROL, .PRT_PFC_MAP_BEST, 
   .PRT_MPCFG_MP1, .PRT_MPCFG_MP0, .PRT_MODE_ADMIN_UP, .PRT_MODE_UP, .PRT_MODE_RATE, .PRT_MODE_WIDTH, 
   .PRT_MODE_FEC, .PRT_MODE_PREEMPT, .PRT_MODE_PFC, .PRT_MODE_ABSORBED, .PRT_MODE_PFC_MASK, .PRT_MAXLEN_MAXLEN, 
   .PRT_DLY_RX, .PRT_DLY_TX, .PRT_PREEMPT_VERIFY, .PRT_PREEMPT_ADD_FRAG, .PRT_PREEMPT_STATE, 
   .PRT_PREEMPT_VERIFY_MS, .PRT_PFC_QUANTA, .PRT_PFC_XOFF_TX, .PRT_PFC_XOFF_RX, .PRT_HOLD_LIMIT, .PRT_VENT_EN, 
   .PRT_VENT_TICKS]

/-- Fields of the block at index 0xD (part 0). -/
def fieldsD_0 : List Fld :=
  [.CLS_ROUTER_MAC_MAC, .CLS_PCP_MAP_MAP, .CLS_MISS_GROUP, .CLS_MISS_L3_MC, .CLS_MISS_L3_UC, .CLS_MISS_L2_MC, 
   .CLS_MISS_L2_UC, .CLS_PLEN4_LEN, .CLS_PLEN6_LEN, .CLS_SEED_L2_SEED, .CLS_SEED_L3_SEED, .CLS_SEED_FLOW_SEED, 
   .CLS_SNOOP_ACTION, .CLS_SNOOP_RATE, .CLS_PLACE_EN, .CLS_PLACE_EXP_RANK, .CLS_PLACE_MOVES, .CLS_PLACE_INTERVAL, 
   .CLS_PLACE_BANK_SLOT_RESERVE, .CLS_PLACE_BANK_SKEW, .CLS_PLACE_AUDIT_UNITS, .CLS_SCRUB_TICKS, 
   .CLS_PLACE_QUERY_GO, .CLS_PLACE_QUERY_FLOW, .CLS_PLACE_RESULT_DONE, .CLS_PLACE_RESULT_STATE, 
   .CLS_PLACE_RESULT_WHERE, .CLS_PLACE_RESULT_PIN, .CLS_PLACE_RESULT_BANK, .CLS_PLACE_RESULT_CHKU, 
   .CLS_PLACE_RESULT_POOL, .CLS_PLACE_RESULT_REPL, .CLS_PLACE_RESULT_GEN, .CLS_PINS_PINS, .CLS_VERSIONS_USED, 
   .CLS_VERSIONS_HELD]

/-- Fields of the block at index 0xE (part 0). -/
def fieldsE_0 : List Fld :=
  [.CIS_ARB_CFG_WEIGHT, .CIS_ARB_CFG_BURST, .CIS_ARB_CFG_WAIT_LIMIT, .CIS_ARB_STAT_CREDIT, .CIS_ARB_STAT_WAIT, 
   .CIS_STATUS_TRAINED, .CIS_STATUS_REFRESH_2X, .CIS_STATUS_TEMP, .CIS_SCRUB_LINES]

/-- Fields of the block at index 0xF (part 0). -/
def fieldsF_0 : List Fld :=
  [.OAS_TIMING_CELLS, .OAS_REFILL_HIGH, .OAS_REFILL_LOW, .OAS_FREE_RING, .OAS_ONDIE_REFILL, .OAS_ONDIE_CACHED, 
   .OAS_DUST_EN, .OAS_DUST_RECLAIM, .OAS_DUST_PERIOD, .OAS_DUST_STATUS_STATE, .OAS_DUST_STATUS_SWEEPS, 
   .OAS_DUST_LEAKED_CELLS, .OAS_DUST_LOST_CELLS, .OAS_CELL_QUERY_GO, .OAS_CELL_QUERY_CELL, .OAS_CELL_RESULT_DONE, 
   .OAS_CELL_RESULT_STATE, .OAS_CELL_RESULT_HR, .OAS_CELL_RESULT_POOL, .OAS_CELL_RESULT_MARK, 
   .OAS_CELL_RESULT_PAR_ERR, .OAS_CELL_RESULT_REF, .OAS_CELL_LINK_PORT, .OAS_CELL_LINK_NEXT, 
   .OAS_POOL_LIMIT_LIMIT, .OAS_POOL_HDRM_HDRM, .OAS_POOL_WARN_HIGH, .OAS_POOL_WARN_LOW, .OAS_POOL_USE_ABOVE_HIGH, 
   .OAS_POOL_USE_IN_USE, .OAS_POOL_HUSE_HDRM_USE, .OAS_HDRM_A_MEDIA, .OAS_HDRM_A_TIMING, .OAS_HDRM_B_BEST, 
   .OAS_HDRM_B_CONTROL]

/-- Fields of the block at index 0x10 (part 0). -/
def fields10_0 : List Fld :=
  [.SWC_CT_EN, .SWC_CT_CLASS, .SWC_ADMIT_ALPHA, .SWC_ADMIT_XON_GAP, .SWC_PTP_TC_EN, .SWC_PTP_MSG, 
   .SWC_PTP_MAX_RES, .SWC_STOMP_FRAMES, .SWC_HOLD_HELD, .SWC_HOLD_TICKS]

/-- Fields of the block at index 0x11 (part 0). -/
def fields11_0 : List Fld :=
  [.EGR_TLOAD_GO, .EGR_TLOAD_TABLE, .EGR_TLOAD_HOLD, .EGR_TLOAD_COUNT, .EGR_TLOAD_FIRST, 
   .EGR_TLOAD_STATUS_PENDING, .EGR_TLOAD_STATUS_RESULT, .EGR_TLOAD_STATUS_TICK, .EGR_PACE_LATE_NS, .EGR_PACE_WARN, 
   .EGR_PACED_FLOWS, .EGR_CLASSQ_MEDIA, .EGR_CLASSQ_CONTROL, .EGR_CLASSQ_BEST, .EGR_SCHED_STRICT_MIN, 
   .EGR_SCHED_DEMOTE, .EGR_SCHED_PMAC, .EGR_EXP_RATE, .EGR_EXP_BURST, .EGR_EXP_LEVEL_LEVEL, .EGR_WGT_WEIGHT, 
   .EGR_GATE_ACTIVE, .EGR_GATE_FALLBACK, .EGR_GATE_ENTRY, .EGR_GATE_GATES, .EGR_GATE_SWAP_TICK]

/-- Fields of the block at index 0x12 (part 0). -/
def fields12_0 : List Fld :=
  [.SPE_CFG_EN, .SPE_CFG_JUMP, .SPE_CFG_FILL_LAG, .SPE_CFG_RESYNC, .SPE_SWEEP_TICKS, .SPE_QUERY_GO, 
   .SPE_QUERY_DONE, .SPE_QUERY_PAIR, .SPE_RESULT_RECORD, .SPE_RESET_GO, .SPE_RESET_PAIR, .SPE_PROBE_EN, 
   .SPE_PROBE_PAIR, .SPE_SKEW_MIN_NS, .SPE_SKEW_MAX_NS, .SPE_SKEW_SUM_NS, .SPE_SKEW_COUNT_COUNT, 
   .SPE_AUDIT_LAST_FLOW]

/-- Fields of the block at index 0x40 (part 0). -/
def fields40_0 : List Fld :=
  [.HST_KICK_KICK, .HST_FN_CTRL_RUN, .HST_FN_CTRL_QUIESCE, .HST_FN_STATUS_QUIET, .HST_FN_STATUS_DMA_ERR, 
   .HST_FN_STATUS_LONG_OPS, .HST_DB_BASE_ADDR, .HST_EVQ_BASE_ADDR, .HST_EVQ_CTRL_EN, .HST_EVQ_CTRL_LOG2_SIZE, 
   .HST_EVQ_CTRL_VECTOR, .HST_EVQ_STATUS_ERR, .HST_EVQ_STATUS_FULL, .HST_EVQ_STATUS_LOST, .HST_EVQ_STATUS_INDEX, 
   .HST_SHADOW_BASE_ADDR, .HST_SHADOW_CTRL_EN, .HST_SHADOW_CTRL_ENTRIES, .HST_SHADOW_STATUS_ACTIVE, 
   .HST_SHADOW_STATUS_CONFLICT, .HST_SQ_BASE_ADDR, .HST_SQ_CTRL_EN, .HST_SQ_CTRL_LOG2_SIZE, .HST_SQ_STATUS_ERR, 
   .HST_SQ_STATUS_INDEX, .HST_CQ_BASE_ADDR, .HST_CQ_CTRL_EN, .HST_CQ_CTRL_PUNT, .HST_CQ_CTRL_SLOT, 
   .HST_CQ_CTRL_LOG2_SIZE, .HST_CQ_CTRL_VECTOR, .HST_CQ_CTRL_COAL_COUNT, .HST_CQ_CTRL_COAL_TICKS, 
   .HST_CQ_STATUS_ERR, .HST_CQ_STATUS_FULL, .HST_CQ_STATUS_INDEX]

/-- Fields of the block at index 0x50 (part 0). -/
def fields50_0 : List Fld :=
  [.HST_TS_SEC_SEC, .HST_TS_NS_NS, .HST_TS_FRAC_TRACEABLE, .HST_TS_FRAC_GRAIN, .HST_TS_TICK_TICK]

/-- The fields of the block that holds address `a`: its 1 MiB block of BAR0 (R620; LN has two), BAR2 or BAR4. -/
def fieldsOf (a : Nat) : List Fld :=
  let k := a / 0x100000
  if k = 0x0 then fields0_0 ++ fields0_1
  else if k = 0x1 then fields1_0
  else if k = 0x2 then fields2_0
  else if k = 0x3 then fields3_0 ++ fields3_1
  else if k = 0x4 then fields4_0
  else if k = 0x5 then fields5_0 ++ fields5_1
  else if k = 0x6 then fields6_0 ++ fields6_1
  else if k = 0x7 then fields7_0 ++ fields7_1
  else if k = 0x8 then fields8_0
  else if k = 0x9 then fields9_0
  else if k = 0xA ∨ k = 0xB then fieldsA_0
  else if k = 0xC then fieldsC_0
  else if k = 0xD then fieldsD_0
  else if k = 0xE then fieldsE_0
  else if k = 0xF then fieldsF_0
  else if k = 0x10 then fields10_0
  else if k = 0x11 then fields11_0
  else if k = 0x12 then fields12_0
  else if 0x40 ≤ k ∧ k < 0x50 then fields40_0
  else if 0x50 ≤ k then fields50_0
  else []

end Machine
end Sys2Proof
end

