-- ==== Sys2Proof/Machine/State.lean ====
section
/-!
DEFINITION. The state of the block as plain data: its registers, and what each of its subsystems holds beside them.
-/
namespace Sys2Proof
namespace Machine


/-- Why a run stops. No command of this block ends in a fault: every row of the table has an effect the spec gives
(see '## Stops' of NOTES.md). -/
inductive Fault where
  /-- Raised by nobody; kept so that the type is inhabited. Safe: a machine that never raises it never stops where the
  hardware goes on. -/
  | impossible
deriving DecidableEq, Repr

/-- Why a command is refused. -/
inductive Refusal where
  /-- Raised by an arm of `exec` whose command has no meaning yet. Safe: it only stops a run. -/
  | notModelled (mnemonic : String)
deriving DecidableEq, Repr

/-- What the part has sent to the outside: the transcript of its pins, of its writes to host memory and of its answers,
newest first. It is the model's own record (log entry 3), not a store of the part. -/
inductive Out where
  /-- A completion entry written at index `idx` of completion ring `cq` of function `fn` (R98). -/
  | completion (fn cq idx : Nat) (entry : List Nat)
  /-- An event entry written at index `idx` of the event ring of function `fn` (R101). -/
  | event (fn idx : Nat) (entry : List Nat)
  /-- An MSI-X message (R104, R105). -/
  | msix (fn vector : Nat)
  /-- A punt record, and the frame bytes written before it to its slot at host address `addr` (R78, R110). -/
  | punt (fn cq idx addr : Nat) (rec frame : List Nat)
  /-- A read of host memory the part issues. -/
  | hostRead (fn what addr : Nat)
  /-- A write of data (dumps, samples, exports, sweeps) to host memory. -/
  | hostWrite (addr : Nat) (bytes : List Nat)
  /-- What a register read returned to its path (R5). -/
  | readValue (who addr value : Nat)
  /-- A frame copy leaving `port`: stomped or not, its length with FCS, and the head bytes as sent. -/
  | frame (port : Nat) (stomped : Bool) (len : Nat) (bytes : List Nat)
  /-- A PFC frame: per priority named, its quanta (R205). -/
  | pfc (port : Nat) (quanta : List (Nat × Nat))
  /-- A PAUSE frame of a management port (R291). -/
  | pause (port quanta : Nat)
  /-- A preemption verify or response mPacket (R201). -/
  | verify (port kind : Nat)
  /-- A PTP message the time engine originates on `port`. -/
  | ptp (port msg seq : Nat) (bytes : List Nat)
  /-- An ESMC PDU on `port`: event flag and SSM code (R454). -/
  | esmc (port : Nat) (event : Bool) (ssm : Nat) (tlv : Option QlTlv)
  /-- A Mywyn message on the lanes of the bitmap, with its check value and alive count (R488, R489). -/
  | mywyn (lanes : Nat) (m : MyMsg) (check alive : Nat)
  /-- An interrupt to a core (R533). -/
  | interrupt (core bits : Nat)
  /-- An in-band heartbeat frame (R491). -/
  | heartbeat (path : Nat) (m : MyMsg) (check alive : Nat)
  /-- The 32 bits of a claim frame on CLAIM_TX (R486). -/
  | claim (frame : Nat)
  /-- CLOCK output `n` makes its next rising edge at the instant `edge`, every `period` after it, and stays high for `high`
(R460, R462, R464), in parts of a ps of ch. 15. -/
  | clock (n edge period high : Nat)
  /-- The TAP shifts out its IDCODE (R647). -/
  | idcode (v : Nat)
  /-- A ladder block sent by a lane (R166): its message, its 64 bits behind the sync header 0b10, and whether the pair is
inverted (R158). -/
  | ladder (lane msg block : Nat) (inverted : Bool)
  /-- The Clause 73 base page of a lane: its rung, and the RATE, WIDTH and FEC of the port's mode (R169). -/
  | basePage (lane rung rate width fec : Nat)
  /-- Link training of a lane by the clause named, 0 for IEEE 802.3dj, with its request for precoding (R156, R169). -/
  | linkTraining (lane cl : Nat) (precode : Bool)
  /-- Clause 37 auto-negotiation of a management port begins over its UP lane (R183, R210). -/
  | clause37 (port : Nat)
  /-- Answer to a request to move a tap: 1 updated, 2 minimum, 3 maximum (R165). -/
  | tapAnswer (lane tap status : Nat)
  /-- A pin level or edge: pin group, number, value. -/
  | pin (group n value : Nat)
  /-- A flash program or erase (R575, R590). -/
  | flash (what addr : Nat) (bytes : List Nat)
  /-- An MCTP response: message type, command and data (R606). -/
  | mctp (ty cmd : Nat) (data : List Nat)
deriving DecidableEq, Repr

/-- The occurrences of one event source in the tick so far (R613). -/
structure EvAcc where
  count : Nat
  sev : Nat
  detail : List Nat
  /-- the objects affected in the tick, where the detail counts them -/
  objs : List Nat
  /-- E241 to E247: what names each VF, as (function, count, severity, detail). -/
  byFn : List (Nat × Nat × Nat × List Nat)
deriving DecidableEq, Repr

/-- No occurrence. -/
def EvAcc.zero : EvAcc := ⟨0, 0, [], [], []⟩

/-- The outcome of a command: status, long-operation handle, FINAL flag and result bytes 32-63 (R98). -/
structure Cpl where
  status : Nat
  handle : Nat
  final : Bool
  result : List Nat
  /-- the flow whose placement the entry reports as it is when it is posted (R135) -/
  place : Option Nat
deriving DecidableEq, Repr

/-- A fetched command until its completion is posted (R83, R95). -/
structure Cmd where
  id : Nat
  fn : Nat
  sq : Nat
  cq : Nat
  tag : Nat
  opcode : Nat
  quiet : Bool
  sqHead : Nat
  /-- host address of the descriptor and wrap ns of its arrival (R565) -/
  addr : Nat
  fetchNs : Nat
  /-- sampler 1 selected it under this SEQ (R562) -/
  samp : Option Nat
  res : Option Cpl
deriving DecidableEq, Repr

/-- A fetched command not yet started: a fence, the quiet window or an earlier one of its ring holds it (R94, R96). -/
structure Waiting where
  instr : Instr
  fn : Nat
  sq : Nat
  id : Nat
  /-- the refusal that the checks made at its fetch gave: that of its function, and of VALID_NS (R91, R124, R127) -/
  early : Option Nat
deriving DecidableEq, Repr

/-- One version of a table entry (R64). `gen` counts generations without wrapping; `val` is none for a deleted entry.
`state`: 0 sound, 1 invalid while it is refetched, 2 failed (R39, R44). -/
structure Ver where
  gen : Nat
  val : Option Line
  held : Bool
  state : Nat
  tries : Nat
  /-- tick count, plus one, of the last shadow read that failed; 0: a read is under way, or none is owed (R44) -/
  at_ : Nat
deriving DecidableEq, Repr

/-- A commit requested by SYS_COMMIT or a tick-form COMMIT_AT (R57, R136). -/
structure Commit where
  scope : Nat
  at_ : Option Nat
  tables : Bool
  cmd : Option Nat
  tag : Nat
  /-- the GO arrived in the quiet window: it skips one capture (R58) -/
  skip : Bool
deriving DecidableEq, Repr

/-- An accepted instant-form COMMIT_AT (R69, R70). `instant` is in grains. -/
structure Timed where
  cmd : Nat
  tag : Nat
  instant : Nat
  armed : Bool
  /-- unheld updates that joined the set (R74) -/
  joined : List (Nat × Option Nat)
  /-- tick count before which it may not retire: a step has passed its instant (the case under R74) -/
  notBefore : Nat
deriving DecidableEq, Repr

/-- The clear-1 and sticky bits that hardware has set in one CORE cycle (R8): the cycle, plus one, and the bits by register
key. A count that clears as one field is held as what was added to it. -/
structure HwSets where
  at_ : Nat
  bits : Tab Nat
  /-- the register writes of a CORE cycle, plus one (R626): path, identity, address, value, bits written, and the word before -/
  wroteAt : Nat
  wrote : List (Nat × Nat × Nat × Nat × Nat × Nat)
deriving DecidableEq, Repr

/-- Nothing has been set. -/
def HwSets.none_ : HwSets := ⟨0, [], 0, []⟩

/-- The clock of the part (ch. 02, 12): only the commands that time itself moves change it. -/
structure Clock where
  /-- TAI in units of 2^-40 ns (R11, R376). -/
  acc : Nat
  /-- tick number and boundaries since the last cold reset (R47) -/
  tick : Nat
  tickCount : Nat
  /-- CORE cycle within the tick, and how many the tick has (R48) -/
  cycle : Nat
  tickLen : Nat
deriving DecidableEq, Repr

/-- What the system controller and the tick keep (ch. 02, 21). -/
structure Sys where
  /-- Current generation, counted without wrapping (R63). -/
  genSeq : Nat
  /-- Frames of each generation number still inside (R65). -/
  drain : Tab Nat
  /-- Unheld updates wait for the next switch (R67); ids of their commands, with the flow
  whose placement the result reports. -/
  unheldAny : Bool
  unheld : List (Nat × Option Nat)
  /-- No automatic switch until a commit switches tables (R73). -/
  noAuto : Bool
  /-- A switch is due and waits for its drain count (R66, R68). -/
  switchDue : Bool
  /-- the switch due is one the device makes itself (R67) -/
  switchAuto : Bool
  /-- The tick-form COMMIT_AT that completes with the switch due (R136). -/
  switchCmd : Option Nat
  /-- ticks the due switch, or the retirement due, has waited, and whether E250 has told it (R68) -/
  stall : Nat
  stallTold : Bool
  commit : Option Commit
  /-- The staged values captured in the quiet window, by register key (R58); what the capture made of the commit: 0 none
  due, 1 applies, 2 REJECTED by block `capBlock`, 3 LATE; and the tick count, plus one, of the tick it was made in. -/
  captured : Tab Nat
  capOut : Nat
  capBlock : Nat
  capAt : Nat
  /-- Blocks that commit their own set at the next boundary (R56), the ones captured, and those that refused. -/
  selfScope : Nat
  capSelf : Nat
  capRefused : Nat
  timed : Option Timed
  timedTick : Bool
  /-- Entry updates left in this tick (R52), and this tick's BUDGET refusals. -/
  budget : Nat
  refused : Tab Nat
  refusedUpd : Nat
  /-- Ranges of tick numbers a forward step has skipped (R651). -/
  skipped : List (Nat × Nat)
  /-- tick count, plus one, at which READY was set (R595); the copy of the start record that is written next (R589) -/
  readyAt : Nat
  recCopy : Nat
  /-- tick counts at which the start under way began, and at which its ROM, INIT or FAILED state did (R591, R593) -/
  startAt : Nat
  stateAt : Nat
  /-- every rail is good, RESET_N is low, internal reset is held, and a thermal trip holds it (R583, R603) -/
  rails : Bool
  pinLow : Bool
  held : Bool
  thermHold : Bool
  /-- boundaries in a row at which each sensor has read 115 °C or more (R603) -/
  hot : Tab Nat
  /-- the start under way follows a warm reset (R592); the XO has been detected (R591) -/
  warm : Bool
  xo : Bool
  /-- tick count, plus one, of the first watchdog expiry that a second one can follow (R587) -/
  watchAt : Nat
  /-- images in the flash slots A and B: VERSION, none when unbootable (R590) -/
  slotA : Option Nat
  slotB : Option Nat
  /-- thresholds the die temperature has crossed and not yet fallen from: bit 0 WARN, bit 1 CRIT (R603) -/
  above : Nat
  /-- calibration checks a block has been due for, and its temperature at its last calibration in 1/16 °C (R604), by
  kind * 4096 + index: kind 0 lane, 1 seif direction, 2 ITM, 3 aligner -/
  calDue : Tab Nat
  calTemp : Tab Int
  /-- tick count, plus one, of the last calibration check worked -/
  calAt : Nat
  /-- budgets of subsystems (R598), and SET_WAKE_BUDGET commands that wait for the boundary, with their targets -/
  subBudget : Tab Nat
  wakeCmds : List (Nat × Nat)
  /-- the MCTP endpoint ID, 0: none -/
  mctpEid : Nat
deriving DecidableEq, Repr

/-- A long operation in its slot (R115, R116, R652). -/
structure LongOp where
  /-- State of R652: 1 ACCEPTED, 2 RUNNING, 3 SUSPENDED; 4 to 6 ended (slot free). -/
  state : Nat
  fn : Nat
  sq : Nat
  cq : Nat
  tag : Nat
  opcode : Nat
  serial : Nat
  hold : Bool
  /-- the operation's own operands, in the order of its descriptor -/
  args : List Nat
  /-- work applied so far, and the next index -/
  applied : Nat
  next : Nat
  /-- an APPLIED, then, that is written but not yet in force (R97) -/
  result : List Nat
  /-- OP_SUSPEND (1), OP_RESUME (2) and OP_CANCEL (3) accepted and waiting for the boundary, with their command ids -/
  reqs : List (Nat × Nat)
  suspTicks : Nat
  /-- an FLR cancelled it: no final completion (R118) -/
  silent : Bool
  /-- its work has ended with this status; LONG_OP_DONE posts the final completion -/
  ended : Option Nat
  /-- a cancel has taken effect and its outcome is still to come from outside (R116) -/
  cancelled : Bool
  /-- as in the command that started it (R565) -/
  addr : Nat
  fetchNs : Nat
  samp : Option Nat
  /-- head of the submission ring after its command's fetch (R98) -/
  sqHead : Nat
deriving DecidableEq, Repr

/-- A slot never used reads 0 (R652). -/
def LongOp.free : LongOp := ⟨0, 0, 0, 0, 0, 0, 0, false, [], 0, 0, [], [], 0, false, none, false, 0, 0, none, 0⟩

/-- A version a held FLOW_BULK has put into the pending generation, and what stood there before (R122). -/
structure Undo where
  table : Nat
  index : Nat
  old : Option Ver
  wrote : Option Line
deriving DecidableEq, Repr

/-- What the host engine keeps (ch. 03). Ring keys are function * 256 + ring, vector keys function * 64 + vector. -/
structure Hst where
  nextId : Nat
  /-- fetched commands in fetch order, until their completion is posted -/
  cmds : List Cmd
  /-- final completions of long operations that wait for their ring (R95) -/
  finals : List Cmd
  waiting : List Waiting
  sqTail : Tab Nat
  cqHead : Tab Nat
  evqHead : Tab Nat
  /-- phase bits (R99): unlisted, 1 -/
  cqPhase : Tab Nat
  evqPhase : Tab Nat
  /-- entries since the ring's last signal, and boundaries the oldest has waited (R104) -/
  cqUns : Tab Nat
  cqAge : Tab Nat
  evqSeq : Tab Nat
  /-- entries lost and not yet told by E242 (R102) -/
  evqOwed : Tab Nat
  /-- DB_GEN last acted on, plus one; 0: forgotten (R86) -/
  dbGen : Tab Nat
  /-- a kicked read is in flight (R89) -/
  kicked : Tab Nat
  /-- descriptors fetched in this tick, by function (R52) -/
  fetched : Tab Nat
  /-- by function: the submission ring served last, plus one, and the descriptors of its turn so far (R93) -/
  turn : Tab (Nat × Nat)
  /-- rings of the PF whose vector the VFs have taken: completion ring n, 65536 the event ring (R103) -/
  lostVec : Tab Nat
  /-- tick count, plus one, of the tick whose long-operation shares have been taken (R48, R135) -/
  sharedAt : Nat
  /-- functions for which AER has reported a read of host memory that failed (R77) -/
  aer : Tab Nat
  /-- unmasked vectors and pending bits (R105) -/
  unmasked : Tab Nat
  vecPend : Tab Nat
  numVf : Nat
  /-- function holding the registration of table t, plus one (R108) -/
  shadowOwner : Tab Nat
  /-- the long operations by slot (R115) -/
  ops : Tab LongOp
  /-- what held bulks have written since the last switch, newest first, by slot -/
  undo : Tab (List Undo)
  /-- routing in force in this tick (R618) -/
  evMask : Tab Nat
  evRoute : Tab Nat
  evSev : Tab Nat
  /-- event rings that received entries in this boundary (R105) -/
  evGot : Tab Nat
  /-- punt discards of the tick: ring bitmap and frames, by function (R111) -/
  puntDrop : Tab (Nat × Nat)
  linkRate : Nat
  linkWidth : Nat
  /-- the E253 of a start, kept until an event ring is enabled (R608) -/
  bootEvent : Option (List Nat)
deriving DecidableEq, Repr

/-- The bring-up of one lane beside its LN_STATUS (ch. 05). -/
structure Lane where
  /-- 0 ladder, 1 Clause 73, 2 fixed rung, 3 auto (R165 ff.) -/
  method : Nat
  target : Nat
  top : Nat
  maxAttempts : Nat
  /-- the slot, plus one, of the LANE_TRAIN that runs the machine; 0: the port does -/
  op : Nat
  partnerTop : Option Nat
  /-- this attempt received a ladder block, a Clause 73 page or, at a fixed rung, CDR lock (R171) -/
  heard : Bool
  /-- consecutive message periods with READY sent and received, and DONE sent and received (R168) -/
  ready : Nat
  readySent : Bool
  doneSent : Nat
  doneRcvd : Nat
  stepSent : Bool
  lowSeen : Nat
  /-- highest rung at which READY was exchanged, plus one, in any attempt (R171) -/
  best : Nat
  seq : Nat
  edgeTold : Bool
  /-- the board entry the lane trained with (R161) -/
  entry : List Nat
  /-- the lane stopped where it is after a cancel -/
  stopped : Bool
  /-- the six board entries that the bring-up took when it started (R161) -/
  table : List (List Nat)
  /-- the method with which the bring-up started, before a turn to Clause 73 (R169) -/
  train : Nat
  /-- the tick at which the lane entered its state: the start of the timeout and of the back-off (R170) -/
  since : Nat
  /-- the last level that the receiver took, for the inverse of the precoder (R155) -/
  rxPrev : Nat
deriving DecidableEq, Repr

def Lane.idle : Lane := ⟨0, 0, 0, 0, 0, none, false, 0, false, 0, 0, false, 0, 0, 0, false, [], false, [], 0, 0, 0⟩

/-- The line lanes (ch. 05). -/
structure Ln where
  lanes : Tab Lane
  /-- bytes of the board table in use; none: the built-in entries (R160) -/
  board : Option (List Nat)
  /-- last lane calibrated, by slice (R179) -/
  calLast : Tab Nat
  /-- power state of lanes, 0 active (R182) -/
  power : Tab Nat
deriving DecidableEq, Repr

/-- A PORT_SET accepted and not yet applied (R138). -/
structure PortSet where
  id : Nat
  port : Nat
  width : Nat
  rate : Nat
  fec : Nat
  admin : Bool
  preempt : Bool
  pfc : Bool
  mask : Nat
deriving DecidableEq, Repr

/-- What the port engines keep (ch. 06). Priority keys are port * 8 + priority. -/
structure Prt where
  sets : List PortSet
  /-- instant, in grains, at which a pause runs out; unlisted: not paused (R206) -/
  pauseEnd : Tab Nat
  /-- first grain at which the pause has taken hold (R206) -/
  pauseFrom : Tab Nat
  /-- grain until which a priority that has been released still starts no frame (R206) -/
  pauseTo : Tab Nat
  /-- tick, plus one, since which the priority is paused, for R208 and R209 -/
  pausedSince : Tab Nat
  /-- XOFF sent: instant of the next refresh in grains (R205) -/
  refresh : Tab Nat
  /-- E036 told for this hold: bit 0 XOFF sent, bit 1 paused (R208) -/
  holdTold : Tab Nat
  /-- vents (R209): key (port * 8 + priority) * 8 + class; frames discarded so far, plus one -/
  vent : Tab Nat
  verifyTries : Tab Nat
  /-- the tick of the last verify mPacket sent, by port (R201) -/
  verifyAt : Tab Nat
  /-- the 40 counters of R554, key port * 40 + counter -/
  cnt : Tab Nat
deriving DecidableEq, Repr

/-- The placement of a flow as one generation has it (R35, R36). -/
structure Spot where
  /-- answered from the Cistern only -/
  cacheOut : Bool
  slot : Nat
  chku : Nat
  pool : Nat
  /-- the REPL hint in force -/
  repl : Nat
  gen : Nat
deriving DecidableEq, Repr

/-- What the placement engine keeps of one flow (R232-R239). -/
structure Placement where
  /-- R239; 7: not in use -/
  state : Nat
  /-- state to go back to after MOVING -/
  prev : Nat
  /-- its placement in the current generation -/
  spot : Spot
  /-- the one written into the pending generation (R36) -/
  next : Option Spot
  /-- those that draining generations still use: the last generation that does, and the placement; oldest first -/
  older : List (Nat × Spot)
  /-- slot a move copies to -/
  newSlot : Nat
  /-- hints (R134): CACHE and REPL as recorded -/
  cacheHint : Nat
  replHint : Nat
  /-- FILLING: the line is in its way; MOVING: the copy is made -/
  ready : Bool
  /-- tick, plus one, at which FILLING or MOVING began -/
  since : Nat
  /-- a demotion, and the load that ends FAILED, wait for the next switch -/
  demote : Bool
  recover : Bool
  /-- frames in the interval, frames audited in it, arrivals since the last sample -/
  frames : Nat
  audited : Nat
  arrivals : Nat
  /-- the directory record is being reread (R242) -/
  reread : Bool
deriving DecidableEq, Repr

def Placement.default : Placement :=
  ⟨7, 0, ⟨true, 0, 0xFF, 0, 0, 0⟩, none, [], 0, 0, 0, false, 0, false, false, 0, 0, 0, false⟩

/-- A flow's counter record (R557). -/
structure FlowCnt where
  frames : Nat
  bytes : Nat
  discards : Nat
  invalid : Bool
deriving DecidableEq, Repr

def FlowCnt.zero : FlowCnt := ⟨0, 0, 0, false⟩

/-- The classifier and the Cistern (ch. 07). -/
structure Cls where
  place : Tab Placement
  /-- flow index, plus one, that holds a Cistern slot -/
  slots : Tab Nat
  cnt : Tab FlowCnt
  /-- snoop punts of the tick (R243) -/
  snoops : Nat
  /-- moves of the tick (R234) -/
  moves : Nat
  /-- flow reads outstanding at the flow-lookup requester (R227, R228) -/
  reads : List Nat
  /-- accesses of the tick by bank (R245), lookups of the interval by bank (R233) -/
  bankUse : Tab Nat
  bankLoad : Tab Nat
  /-- tick count at which the next scrub pass falls due (R241) -/
  scrubNext : Nat
  /-- when the next scoring falls due (R233): tick count -/
  intervalNext : Nat
  /-- moves chosen and not yet made: flow, and 0 promotion, 1 demotion, 2 bank move (R233, R234) -/
  todo : List (Nat × Nat)
  /-- cache ways (0, set) and slots (1, slot) that moves or deletions leave, with the last generation that uses them -/
  freeing : List (Nat × Nat × Nat)
  /-- frames audited in the last interval, by check unit (R237) -/
  auditLast : Tab Nat
  /-- line accesses that each requester of the arbiter has waiting, as runs: first line and count (R249) -/
  asks : Tab (List (Nat × Nat))
  /-- the line at which the scrub requester goes on -/
  scrubLine : Nat
  /-- tick count, plus one, since which a slice's miss queue is full (R252) -/
  missFull : Tab Nat
deriving DecidableEq, Repr

/-- The metadata of one cell (R256), but for MARK, which the sweep holds (R278). `parBad`: the stored PAR is not the parity of the
other bits; `found`: Oasis has found that (R276). -/
structure Cell where
  ref : Nat
  state : Bool
  pool : Nat
  hr : Bool
  port : Nat
  next : Nat
  parBad : Bool
  found : Bool
deriving DecidableEq, Repr

/-- A free cell that nothing has used since the fill (R270). -/
def Cell.fresh : Cell := ⟨0, false, 0, false, 0, 0, false, false⟩

/-- Free pointers in order, as ranges (first cell, count). -/
abbrev Ptrs := List (Nat × Nat)

/-- A cell granted in this CORE cycle: to which slice, for which pool and port, and whether as headroom (R264). -/
structure Grant where
  cell : Nat
  sl : Nat
  pool : Nat
  port : Nat
  hr : Bool
deriving DecidableEq, Repr

/-- What one CORE cycle has done so far at Oasis (R262, R264, R265, R274). -/
structure CycleBook where
  at_ : Nat
  reqs : Tab Nat
  grants : List Grant
  freed : Tab Nat
  /-- by cell: REF before the cycle's first decrement of it, and the decrements so far, as (slice, number) -/
  decs : Tab (Nat × List (Nat × Nat))
  /-- cells freed in this cycle with the slice that freed them: allocatable from the next one -/
  limbo : List (Nat × Nat)
deriving DecidableEq, Repr

def CycleBook.empty : CycleBook := ⟨0, [], [], [], [], []⟩

/-- The Oasis (ch. 08). -/
structure Oas where
  cells : Tab Cell
  timing : Ptrs
  /-- by slice -/
  cache : Tab Ptrs
  refill : Ptrs
  ring : Ptrs
  /-- free-ring reads outstanding: their pointers -/
  reads : List Ptrs
  /-- headroom cells, and ordinary cells, by port * 4 + pool -/
  hdrm : Tab Nat
  ord : Tab Nat
  book : CycleBook
  /-- cells the current or last sweep has marked (R278) -/
  marks : Ptrs
  /-- AUDIT_NOWs that wait for the boundary: their commands and RECLAIM -/
  audits : List (Nat × Bool)
  /-- the running sweep reclaims whatever OAS_DUST says; tick count at which it began -/
  reclaim : Bool
  began : Nat
  /-- a sweep has fallen due at this boundary -/
  due : Bool
deriving DecidableEq, Repr

/-- Where the classifier sends a frame (R217-R224, R653). -/
structure Verdict where
  /-- 0 drop, 1 port, 2 group, 3 nowhere (punt only), 5 the device's own clock port -/
  kind : Nat
  target : Nat
  /-- punt reason of the action -/
  punt : Option Nat
  /-- flow entry whose rewrites and queue apply -/
  entry : Option (List Nat)
deriving DecidableEq, Repr

/-- A copy of a frame, or a reference to it (R309-R312). -/
structure Copy where
  frame : Nat
  port : Nat
  /-- the member's VLAN rewrite (R307) -/
  vlan : Option Nat
  queue : Nat
  /-- 0: slipface; else the reason code of R299 -/
  path : Nat
  /-- pacing entry, plus one, that paces it; release instant in grains, plus one -/
  pace : Nat
  released : Nat
  /-- anchor of R342 in grains, plus one -/
  anchor : Nat
  /-- a closed gate has delayed it -/
  gated : Bool
deriving DecidableEq, Repr

/-- A copy on the wire. -/
structure Leaving where
  copy : Copy
  /-- cause of R303 in the order of its list, 6 UNDERRUN; 0: it leaves good -/
  stomp : Nat
  /-- preempted part-way (R328) -/
  paused : Bool
  bytes : List Nat
  /-- bytes in the fragments sent whole, and the instant in grains at which the one now leaving began (R202) -/
  sent : Nat
  since : Nat
deriving DecidableEq, Repr

/-- The command of an injected frame (R112-R114, R151). -/
structure Inject where
  cmd : Nat
  fn : Nat
  sq : Nat
  classify : Bool
  port : Nat
  queue : Nat
  stamp : Bool
  /-- launch instant in full grains; 0: none -/
  launch : Nat
  late : Bool
deriving DecidableEq, Repr

/-- A PTP message the device originates (R390-R394): messageType, whether it is one-step, sequenceId, the instant of a Sync
or the reception stamp it answers in full grains, and the correction its follow-up carries on. -/
structure DevMsg where
  msg : Nat
  oneStep : Bool
  seq : Nat
  stamp : Nat
  corr : Int
deriving DecidableEq, Repr

/-- A frame inside the device. -/
structure Frame where
  port : Nat
  express : Bool
  /-- the first bytes, up to 128, and the length known so far (with FCS once it has ended) -/
  head : List Nat
  len : Nat
  ended : Bool
  /-- the bytes behind the head, once it has ended -/
  rest : List Nat
  /-- ingress stamp in full TAI grains, and the steps time had made by then (R381) -/
  full : Nat
  steps : Nat
  /-- a generation has been stamped, and which (R63) -/
  stamped : Bool
  gen : Nat
  cls : Nat
  pool : Nat
  flow : Option Nat
  verdict : Verdict
  /-- 0 held at the slice input, 1 waits for a flow read, 2 waits for the merge decision, 3 decided and waiting for its
  first cell, 4 forwarded, 5 gone -/
  stage : Nat
  /-- the decision needed the Cistern (R299, condition 3) -/
  cistern : Bool
  /-- punt reasons whose copy is owed at the frame's end -/
  punts : List Nat
  /-- cause that marked it bad (R303), 0 none -/
  bad : Nat
  /-- cells held, first to last; cells asked for and not yet given -/
  cells : List Nat
  want : Nat
  /-- the cell wanted is asked for as headroom (R293) -/
  hr : Bool
  /-- copies made, references not yet released, copies presented -/
  copies : Nat
  left : Nat
  presented : Nat
  /-- store-and-forward copies that wait for the frame's end -/
  waiting : List Copy
  inject : Option Inject
  dev : Option DevMsg
  /-- egress stamp of the first copy, in full grains -/
  firstEgr : Option Nat
  /-- check unit, plus one, that audits it (R365) -/
  unit : Nat
  /-- sampler 0 follows it under this SEQ (R563) -/
  samp : Option Nat
  /-- its head waits for a head slot, or for its turn at the host port (R26, R27, R288) -/
  slot : Bool
  /-- table entries found damaged while it is looked up, as (table, index) (R39) -/
  damage : List (Nat × Nat)
  /-- CORE cycle, plus one, in which it reached the seamless engine (R358) -/
  reach : Nat
  /-- its window line has been read, and what was found damaged at the read -/
  read : Bool
  faults : SpeFaults
deriving DecidableEq, Repr

/-- No frame. -/
def Frame.none_ : Frame :=
  ⟨0, true, [], 0, false, [], 0, 0, false, 0, 0, 0, none, ⟨0, 0, none, none⟩, 5, false, [], 0, [], 0, false, 0, 0, 0, [], none,
    none, none, 0, none, false, [], 0, false, ⟨false, false, 0⟩⟩

/-- The switch core (ch. 09). -/
structure Swc where
  frames : Tab Frame
  nextFrame : Nat
  /-- tick, plus one, at which the hold of port * 8 + priority began (R296) -/
  holdSince : Tab Nat
  /-- references in each egress slice's caravan queue, and those that wait at the ingress for it (R311) -/
  caravan : Tab (List Copy)
  caravanWait : Tab (List Copy)
  /-- PAUSE is in force at a management port (R291) -/
  mpPaused : Tab Nat
  /-- injected frames not yet in the host port, oldest first -/
  inject : List Frame
  /-- CORE cycle, plus one, that the head slots stand for; by slice, the ranks of the heads that hold them, those of the next
  cycle behind those of this one; and the port from which the order of the other classes begins (R288) -/
  slotAt : Nat
  slots : Tab (List Nat)
  slotTurn : Tab Nat
  /-- CORE cycle of the tick from which the host port may start a head again, and the management port whose turn it is (R26, R27) -/
  hostNext : Nat
  hostTurn : Nat
  /-- CORE cycle, plus one, in which requests and heads that wait have last been presented again (R262, R288) -/
  coreAt : Nat
deriving DecidableEq, Repr

/-- A load that EGR_TLOAD requested (R346): its fields, and the shadow's entries as read. -/
structure TLoad where
  table : Nat
  hold : Bool
  count : Nat
  first : Nat
  entries : List (List Nat)
deriving DecidableEq, Repr

/-- The gate list a port runs (R332-R338): its entries as taken, and where it stands. -/
structure Gate where
  list : List (List Nat)
  /-- cycle number and entry in force, and whether the cut of this list version is told -/
  cycle : Int
  entry : Nat
  cutTold : Bool
  /-- a switch has changed the list: the new entries, the tick of the switch, and the instant in ns from which the new
  raster counts: the boundary of the switch, or a later time step -/
  swap : Option (List (List Nat))
  swapTick : Nat
  swapFrom : Nat
  /-- FALLBACK: the refetched entry is in, and the next cycle start ends it -/
  fallEnds : Bool
deriving DecidableEq, Repr

def Gate.open_ : Gate := ⟨[], 0, 0, false, none, 0, 0, false⟩

/-- A pacer (R341, R342). Instants in grains. -/
structure Pacer where
  tat : Nat
  held : List Copy
  /-- the last frame carried the RTP marker -/
  marker : Bool
  /-- CORE cycle, plus one, of its last release -/
  last : Nat
deriving DecidableEq, Repr

def Pacer.idle : Pacer := ⟨0, [], false, 0⟩

/-- The egress manager (ch. 10). -/
structure Egr where
  /-- by port * 16 + queue -/
  queues : Tab (List Copy)
  /-- slipface copies that hold a MAC reserved, and copies on the wire, by port * 2 + MAC (0 express, 1 preemptable) -/
  slip : Tab (List Copy)
  wire : Tab (List Leaving)
  deficit : Tab Nat
  turn : Tab Nat
  /-- token bucket in byte fractions of 1/524,288,000, and the grain at which it was brought up to date -/
  bucket : Tab Int
  bucketAt : Tab Nat
  gates : Tab Gate
  /-- by pacing entry -/
  pacers : Tab Pacer
  /-- the load that waits for the boundary; then the generation it waits for -/
  tload : Option TLoad
  tloadGen : Option Nat
deriving DecidableEq, Repr

/-- An audit in progress (R365-R367). -/
structure AuditRun where
  flow : Nat
  frame : Nat
  ingress : Nat
  alive : Nat
  /-- bytes of the region at ingress -/
  bytes : Nat
  /-- the frame has ended: the ingress value stands -/
  ready : Bool
  /-- its first copy has been presented, and neither it nor the frame has been stomped since -/
  sent : Bool
deriving DecidableEq, Repr

/-- The record of one pair (R353), without its parity bit. -/
structure PairRec where
  head : Nat
  floor : Nat
  /-- lap tags of lines 0 to 7, 2 bits each -/
  tags : Nat
  hv : Bool
  fv : Bool
  g : Bool
  gleg : Nat
  ageA : Nat
  ageB : Nat
  bgrp : Nat
  oow : Nat
deriving DecidableEq, Repr

/-- The record after reset (R354). -/
def PairRec.reset (w : Nat) : PairRec := ⟨0, 0, 0, false, false, false, 0, 0, 0, w % 8, 0⟩

/-- The seamless protection engine (ch. 11). Records unlisted read as after reset (BGRP = pair mod 8). -/
structure Spe where
  recs : Tab PairRec
  /-- BGRP as the pair directory mirror has it, by pair; an unlisted one is the reset value -/
  mirror : Tab Nat
  /-- pairs reset with another of their octet, whose next arrival opens a guard (R363) -/
  opens : List Nat
  /-- window accesses of each bank group in this CLS_PLACE.INTERVAL, and in the last one (R354) -/
  groupLoad : Tab Nat
  groupLast : Tab Nat
  /-- CORE cycle, plus one, of the last decisions, and the pairs they were taken for (R358) -/
  decidedAt : Nat
  decidedOf : List Nat
  /-- tick, plus one, since which each slice's merge queue is full (R360) -/
  full : Tab Nat
  /-- window bits by slot * 8 + line -/
  win : Tab Nat
  lost : Tab Nat
  /-- pairs that SPE_RESET named, until the boundary -/
  resets : List Nat
  /-- first-arrival stamps of the probed pair: sequence number, leg, grain -/
  probe : Tab (Nat × Nat)
  /-- audits in progress, by check unit -/
  audit : Tab (Option AuditRun)
  /-- tick count of the last sweep pass (R361) -/
  sweepAt : Nat
deriving DecidableEq, Repr

/-- A step accepted by TIME_STEP (R141): its command, and DELTA in grains, or the full time in grains. -/
structure StepReq where
  id : Nat
  absolute : Bool
  delta : Int
  full : Nat
  /-- tick count at which it was accepted -/
  since : Nat
deriving DecidableEq, Repr

/-- An entry of the two-step match table (R398). `value` is residence plus addend in grains. -/
structure TwoStep where
  /-- it waits for a Delay_Resp (a Follow_Up otherwise) -/
  resp : Bool
  domain : Nat
  seq : Nat
  spi : List Nat
  port : Nat
  value : Int
  since : Nat
deriving DecidableEq, Repr

/-- A PTP answer or Follow_Up the hardware owes (R390, R392): port, the request's bytes, its stamp in full grains, the
sequenceId, and a correction to carry on. -/
structure PtpDue where
  port : Nat
  head : List Nat
  stamp : Nat
  seq : Nat
  corr : Int
deriving DecidableEq, Repr

/-- A TIO pin beside its registers (R399-R402). -/
structure Tio where
  /-- the settings the running train uses; none: no train -/
  train : Option TioSet
  /-- earliest grain of the next rising edge -/
  after : Nat
  /-- the pulse is high until this TAI grain, counted without steps; 0: low -/
  highUntil : Nat
  /-- stamps taken, oldest first: rising, full grains -/
  fifo : List (Bool × Nat)
  /-- grain, plus one, of the last stamped edge -/
  last : Nat
deriving DecidableEq, Repr

def Tio.idle : Tio := ⟨none, 0, 0, [], 0⟩

/-- The time engine (ch. 12). -/
structure Tme where
  /-- slew remainder in 2^-40 ns (R378) -/
  slewLeft : Int
  /-- an increment or a step has been accepted since the cold reset (R382) -/
  touched : Bool
  step : List StepReq
  /-- steps that have taken effect in this tick: command, old and new tick number -/
  stepped : List (Nat × Nat × Nat)
  /-- steps made, not saturating, and the last amount in grains (R381) -/
  steps : Nat
  lastStep : Int
  /-- TIME_SET_INCR and TIO_SET commands that wait for the boundary -/
  incrs : List Nat
  tios : List (Nat × TioSet)
  /-- tick count of the owner's last write of the servo value (R384) -/
  servoAt : Nat
  /-- transmit stamps by instance, oldest first: messageType, port, sequenceId, egress grains (R395) -/
  txs : Tab (List (List Nat))
  /-- entries in the queue to C1 since the last boundary (R386) -/
  agentQ : Nat
  /-- sequenceId counters by port * 16 + messageType (R391) -/
  seqs : Tab Nat
  twoStep : List TwoStep
  followUps : List PtpDue
  delayResps : List PtpDue
  pdelayResps : List PtpDue
  /-- grain, plus one, up to which Sync instants are past, by port (R390); next Delay_Req and Pdelay_Req instants in grains -/
  lastSync : Tab Nat
  nextDreq : Tab Nat
  nextPdelay : Tab Nat
  pins : Tab Tio
deriving DecidableEq, Repr

/-- What one seif window gives (R408): phase in 2^-8 ps, frequency offset in 2^-8 ppb, and the two residuals in 2^-8 ps rms. -/
structure SeifWindow where
  phase : Nat
  freq : Int
  resPhase : Nat
  resAsym : Nat
deriving DecidableEq, Repr

/-- One direction of a port in seif, beside its registers (R407-R413). -/
structure SeifDir where
  /-- grain instant of the phase in use, for TRACKING (R411) -/
  at_ : Nat
  /-- consecutive windows that disagree with the state -/
  off : Nat
  /-- first beat seen since ACQUIRE (R410) -/
  beat : Bool
  /-- REMEASURE: state held before the trigger, sum of the commanded moves in 2^-8 ps, trigger, beats since -/
  held : Nat
  moves : Int
  trig : Nat
  beats : Nat
  /-- frequency offset in 2^-8 ppb and phase residual in 2^-8 ps rms of the last window -/
  freq : Int
  res : Nat
  /-- samples of the window in progress and of the last one, newest first, each within half a TIME cycle of the one before it,
  in 2^-8 ps (R408) -/
  samples : List Int
  last : List Int
  /-- beats in a row without an image-clock edge (R412) -/
  missed : Nat
deriving DecidableEq, Repr

def SeifDir.off0 : SeifDir := ⟨0, 0, false, 0, 0, 0, 0, 0, 0, [], [], 0⟩

/-- The interval meter, beside its registers (R418-R424). Times are in 2^-8 ps of the ITM's own count. -/
structure Itm where
  /-- pending start, held stop: capture cycle, tap, time -/
  start : Option (Nat × Nat × Int)
  stop : Option (Nat × Nat × Int)
  n : Nat
  sum : Int
  sq : Nat
  min : Int
  max : Int
  under : Nat
  reversed : Nat
  timeouts : Nat
  ignored : Nat
  consec : Nat
  /-- a calibration waits for the set to end, by trigger (1 reset, 2 GO, 3 temperature) -/
  calDue : Option Nat
  calTrig : Nat
  /-- a GO waits for the calibration to end -/
  goDue : Bool
  /-- XO time when the pending start, and when the held stop, was captured (R421) -/
  startAt : Nat
  stopAt : Nat
deriving DecidableEq, Repr

def Itm.idle : Itm := ⟨none, none, 0, 0, 0, 0, 0, 0, 0, 0, 0, 0, none, 1, false, 0, 0⟩

/-- Seif (ch. 13). Direction keys are port * 2 + direction (0 receive, 1 transmit). -/
structure Seif where
  dirs : Tab SeifDir
  /-- windows ended since the last boundary, each with the grain instant of its end (R408) -/
  due : List (Nat × Nat × SeifWindow)
  itm : Itm
  /-- hits of the delay line's taps in the last code-density test; none yet: taps of equal width (R419) -/
  taps : List Nat
deriving DecidableEq, Repr

/-- An excursion beyond SOFT_PPB (R435): boundary at which it began, offset then, and the XO second of its gate. -/
structure Excursion where
  since : Nat
  ofs : Int
  sec : Nat
deriving DecidableEq, Repr

/-- A conflict between two candidates (R439, R440): gates of disagreement in a row, and whether a tie is told. -/
structure Conflict where
  gates : Nat
  tie : Bool
deriving DecidableEq, Repr

/-- A DPLL beside its registers. Control values are in 2^-8 ppb / 10^6. -/
structure Dpll where
  ctl : Int
  target : Int
  /-- the phase taken as the candidate's zero (R447), in ps -/
  zero : Int
  /-- XO second of the loss instant, once the selected candidate has stopped being eligible (R450) -/
  loss : Option Nat
  /-- history: XO second and mean control value, newest first (R449) -/
  hist : List (Nat × Int)
  /-- this second was not wholly in NARROW or LOCKED; sum and number of its ticks' control values -/
  broken : Bool
  sum : Int
  n : Nat
  /-- bandwidth in 2^-20 mHz (R442) -/
  bw : Nat
  /-- tick counts at which ACQUIRE began, since which its phase error has stayed within ±1 ns, and at which the bandwidth in use
  was taken (R441, R442) -/
  acqAt : Nat
  withinAt : Nat
  stepAt : Nat
deriving DecidableEq, Repr

def Dpll.start : Dpll := ⟨0, 0, 0, none, [], true, 0, 0, 0, 0, 0, 0⟩

/-- The reference unit (ch. 14). Candidate keys are dpll * 13 + slot. -/
structure Ref where
  /-- slots 0 to 11 whose signal is present (R431) -/
  present : Tab Nat
  /-- last offset measured against the raw XO in 2^-8 ppb, by slot; and phase against each DPLL in ps, dpll * 16 + slot -/
  meas : Tab (Option Int)
  phase : Tab Int
  /-- a gate has ended whose checks wait for the boundary -/
  gate : Bool
  /-- tick count, plus one, at which the qualification count began -/
  qualAt : Tab Nat
  exc : Tab (Option Excursion)
  /-- by dpll * 256 + a * 16 + b, a < b -/
  conf : Tab Conflict
  dplls : Tab Dpll
  /-- XO seconds gone by -/
  sec : Nat
  /-- XO time at the last boundary, in nominal ticks / (256 × 10^15), and at the last gate's end (R432, R449) -/
  xo : Nat
  gateAt : Nat
  /-- tick count, plus one, of the last ESMC information PDUs (R454) -/
  infoAt : Nat
  /-- tick count, plus one, of the last update of REF_XO.PPB (R433) -/
  xoAt : Nat
  /-- REF_SET commands that wait for the boundary, with the candidate each writes (dpll * 13 + slot) -/
  sets : List (Nat × Nat)
  /-- tick count of the last valid PDU, and the extended QL TLV it carried, by slot (R453, R454) -/
  pduAt : Tab Nat
  tlv : Tab (Option QlTlv)
  /-- code and TLV last sent (R454) -/
  sent : Option (Nat × Option QlTlv)
deriving DecidableEq, Repr

/-- An output beside its registers (ch. 15): CLKOUT n is n, TIO n is 8 + n. Offsets are in 1/outUnit ps. -/
structure OutPin where
  /-- latest rising edge minus its nearest raster instant, the PHASE of that raster, and the period in use (0: none) -/
  ofs : Int
  phase : Int
  per : Nat
  /-- tick count at which a new setting or a jump is loaded (R462, R468), and whether it is a divider change -/
  load : Option Nat
  divChange : Bool
  /-- an alignment is under way by slew; its move so far in ps; it has reached its target -/
  slewing : Bool
  move : Int
  ready : Bool
  /-- an alignment waits for the return from bypass (R470); cause of the bypass: 1 synthesiser, 2 line -/
  want : Bool
  cause : Nat
  /-- residual measured, and the tick count at which it is written (R469) -/
  meas : Option (Nat × Nat)
  /-- tick count at which it entered BYPASS (R473); instant in grains, plus one, at which its claim gate opened (R506) -/
  since : Nat
  opened : Nat
deriving DecidableEq, Repr

def OutPin.idle : OutPin := ⟨0, 0, 0, none, false, false, 0, false, false, 0, none, 0, 0⟩

/-- An OUT_ALIGN (R468-R470), or the alignment of an epoch (R504), which has no command. -/
structure AlignReq where
  cmd : Option Nat
  mask : Nat
  jump : Bool
  started : Bool
  left : Nat
  resid : Tab Nat
deriving DecidableEq, Repr

/-- The output unit (ch. 15). -/
structure Outp where
  pins : Tab OutPin
  reqs : List AlignReq
  /-- TAI at the last boundary, in 2^-40 ns -/
  accAt : Nat
deriving DecidableEq, Repr

/-- An epoch being received, or complete and not yet applied (R504): number, the sections with their values, the sections
announced, tick count of its first message. -/
structure EpochIn where
  num : Nat
  sections : List (Nat × List Nat)
  since : Nat
deriving DecidableEq, Repr

/-- An epoch being sent (R503): number, whether it is full, and the PAIR_COPY slot that asked for it. -/
structure EpochOut where
  num : Nat
  full : Bool
  slot : Option Nat
deriving DecidableEq, Repr

/-- A handover decided and not yet at its instant (R497): D and T_h, whether this unit is the active, whether the
acknowledgement has been sent or received, and the steps of both units at D (R498). -/
structure Handover where
  d : Nat
  th : Nat
  active : Bool
  acked : Bool
  steps : Nat
  peer : Nat
deriving DecidableEq, Repr

/-- The pair unit beside its registers (ch. 16). Sources: 0 CLAIM_RX, 1 Mywyn. Paths: 0 Mywyn, 1 in-band. -/
structure Pair where
  /-- last valid claim of a source, plus one (0: expired), boundaries since its last frame, last valid ALIVE plus one -/
  claim : Tab Nat
  missed : Tab Nat
  alive : Nat
  /-- ticks in a row in which the two sources differ, and whether E211 is told -/
  differ : Nat
  told : Bool
  /-- tick count, plus one, of the last accepted heartbeat of a path; hits in a row -/
  hbAt : Tab Nat
  hits : Tab Nat
  /-- tick count, plus one, of the last heartbeat and epoch boundaries worked -/
  hbDone : Nat
  epochDone : Nat
  /-- heartbeats since JOINING without a partner claim -/
  joined : Nat
  /-- of the partner's last heartbeat: STEPS, HELD, T_SEND; own wrap ns at its arrival -/
  peerSteps : Nat
  peerHeld : Nat
  tSend : Nat
  tArr : Nat
  /-- SEQ by message TYPE; the lane the next EPOCH_DATA takes (R489) -/
  seqs : Tab Nat
  lane : Nat
  /-- slips of the search of a lane, and tick count, plus one, of the last; number of the last epoch started or applied -/
  slips : Tab Nat
  slipAt : Tab Nat
  epoch : Nat
  outs : List EpochOut
  inn : Option EpochIn
  ready : Option EpochIn
  /-- the unit holds an epoch (R495) -/
  held : Bool
  /-- values each section had in the last epoch, and the outputs an OUT_ALIGN has named since -/
  last : List (Nat × List Nat)
  aligned : Nat
  handover : Option Handover
  /-- a handover that has passed its instant: T_h and D; gates may be pending -/
  ending : Option (Nat × Nat)
  /-- the last change of role had a named instant (R475, R494, R497) -/
  named : Bool
  /-- PAIR_SWAP commands with their T_h -/
  swaps : List (Nat × Nat)
  /-- servo state of the firmware on C1, as it was last handed over, in 64-bit values (R503, R504) -/
  agent : List Nat
deriving DecidableEq, Repr

/-- What a check job is for (R512). -/
inductive JobUse where
  | selfTest
  /-- CHK_RUN in a slot -/
  | run (slot : Nat)
  /-- a Mywyn message to send; also on the in-band path for a heartbeat -/
  | send (m : MyMsg) (inband : Bool)
  /-- a message received: lane (2: in-band), message, received check and alive count, and wrap ns of its arrival -/
  | receive (lane : Nat) (m : MyMsg) (check alive at_ : Nat)
  /-- a Cairn record to write, and whether the first area takes it -/
  | cairn (rec : List Nat) (first : Bool)
  | audit
deriving DecidableEq, Repr

/-- A check job (R512, R513). -/
structure Job where
  cls : Nat
  ctx : Nat
  use : JobUse
  /-- tick count at which it arrived, and whether E218 is told -/
  since : Nat
  warned : Bool
  /-- CORE cycle in which it started, and whether it then found its unit idle (R511, R513) -/
  begun : Nat
  raced : Bool
deriving DecidableEq, Repr

/-- The check units (ch. 17). -/
structure Chk where
  running : Tab (Option Job)
  queue : Tab (List Job)
  /-- contexts that have accepted a value since their reset, by unit (R516) -/
  seen : Tab Nat
deriving DecidableEq, Repr

/-- Mailboxes and locks beside their registers (ch. 18). Keys are channels, but where said. -/
structure Mbx where
  /-- TOGGLE of the last message sent; of the last accepted, plus one, and its SRC_CH -/
  toggle : Tab Nat
  inTog : Tab Nat
  inSrc : Tab Nat
  /-- a message to the partner: 1 to be sent, 2 answered NAK, 3 waits for the path, 4 sent -/
  sending : Tab Nat
  nakTold : Tab Nat
  /-- boundaries at which both channels of a pair were full, by a * 32 + b, a < b -/
  both : Tab Nat
  /-- tick count, plus one, at which a lock was taken, and whether E230 is told, by lock -/
  lockAt : Tab Nat
  lockTold : Tab Nat
  /-- CORE cycle, plus one, of the last release of a lock, and the owner it had, by lock (R538, R539) -/
  freed : Tab (Nat × Nat)
  /-- data writes discarded because the channel was full (R526) -/
  refused : Tab Nat
  /-- tick count, plus one, of the last heartbeat boundary at which a DATA was sent again (R530) -/
  resent : Tab Nat
  /-- pairs in cross-wait, as in `both` (R535) -/
  xwaits : List Nat
  /-- CORE cycle, plus one, in which the receiver's last read emptied a channel (R527) -/
  emptied : Tab Nat
deriving DecidableEq, Repr

/-- A dump being written (R551-R555): where, its header behind STATE, and its sections. -/
structure DumpRec where
  addr : Nat
  seq : Nat
  head : List Nat
  body : List Nat
deriving DecidableEq, Repr

/-- Counters and samplers beside their registers (ch. 19). Sampler tables are by sampler. -/
structure Obs where
  /-- candidates until the next selection, next SEQ, records written in this tick, PHASE -/
  sampLeft : Tab Nat
  sampSeq : Tab Nat
  sampTick : Tab Nat
  sampPhase : Tab Nat
  /-- frames that sampler 0 follows -/
  following : Nat
  /-- counters selected anew since the last dump written, by unit -/
  selChanged : Tab Nat
  /-- tick count, plus one, of the last due dump worked; dumps skipped since the last written -/
  dumpDone : Nat
  skipped : Nat
  dump : Option DumpRec
  /-- a flow pass (R558): the address of record 0, and the records it has still to write -/
  flows : Option (Nat × List (Nat × List Nat))
  /-- CORE cycle, plus one, of the last selection of a counter (R547), by u * 8 + k; the CORE cycle of the tick at which unit u
  left its reset in it (R545) -/
  selAt : Tab Nat
  cycFrom : Tab Nat
deriving DecidableEq, Repr

/-- The figures of an open Cairn interval, but for its event counts (R570, R571). -/
structure Figs where
  ticks : Nat
  step : Bool
  untrace : Bool
  tempMax : Option Int
  tempMin : Option Int
  /-- least LIMIT − IN_USE by pool -/
  poolMin : Tab (Option Int)
  resHist : Tab Nat
  dpllOff : Nat
  dpllSeen : Nat
  phaseMax : Nat
  holdMax : Nat
  meritMin : Option Nat
  hbMiss : Nat
  roleChg : Nat
  pairSeen : Nat
  seifMax : Nat
  guard : Nat
deriving DecidableEq, Repr

def Figs.zero : Figs := ⟨0, false, false, none, none, [], [], 0, 0, 0, 0, none, 0, 0, 0, 0, 0⟩

/-- Cairn beside its registers (ch. 20). -/
structure Cairn where
  /-- occurrences of the interval by event source and by severity -/
  evt : Tab Nat
  sevCnt : Tab Nat
  figs : Figs
  /-- an interval is open -/
  opened : Bool
  /-- an arming waits for the boundary; the interval is to close early there -/
  armDue : Bool
  shortDue : Bool
  /-- CAIRN_CLEAR_FIRST commands that wait for the boundary -/
  clears : List Nat
  /-- records of intervals closed, not yet numbered, oldest first -/
  due : List (List Nat)
  first : List (List Nat)
  /-- the last area, by slot -/
  last : Tab (List Nat)
  /-- flash: the mirror by slot and the power-on count; slots to be programmed, and an erase under way -/
  mirror : Tab (List Nat)
  boot : Nat
  prog : List Nat
  erasing : Bool
deriving DecidableEq, Repr

/-- The state of the block. Every table reads its default where nothing is listed. -/
structure State where
  /-- the commands that are waiting, first in, first out -/
  pending : List Instr
  /-- the clear-1 and sticky bits that hardware has set, by register key, and the CORE cycle it did so in (R8) -/
  hw : HwSets
  /-- detections and discards of the data guard by BAR0 index of the subsystem that owns the store (R39, R40) -/
  guards : Tab Nat
  clk : Clock
  /-- values in force of the register fields that differ from their reset value (ch. 23) -/
  regs : Tab Nat
  /-- pending values of staged fields (R56) -/
  pend : Tab (Option Nat)
  /-- read latches and write holding registers of register pairs, by block * 8 + path (R5, R625) -/
  hiLatch : Tab (Option (Nat × Nat))
  loHold : Tab (Option (Nat × Nat))
  out : List Out
  /-- the model's own: counts the free values taken -/
  freeCtr : Nat
  evAcc : Tab EvAcc
  /-- versions of the table entries (R64), by table * 2^23 + index -/
  store : Tab (List Ver)
  sys : Sys
  hst : Hst
  ln : Ln
  prt : Prt
  cls : Cls
  oas : Oas
  swc : Swc
  egr : Egr
  spe : Spe
  tme : Tme
  seif : Seif
  ref : Ref
  outp : Outp
  pair : Pair
  mbx : Mbx
  chk : Chk
  obs : Obs
  cairn : Cairn
deriving DecidableEq, Repr

/-! ### The block right after its internal reset is released (R583, R621): each record of State as it starts -/

/-- Time at a cold reset (R373): a tick of 1,600 CORE cycles begins. -/
def Clock.start : Clock :=
  { acc := 0, tick := 0, tickCount := 0, cycle := 0, tickLen := 1600 }

/-- Every rail is good and internal reset has just been released (R583). -/
def Sys.start : Sys :=
  { genSeq := 0, drain := [], unheldAny := false, unheld := [], noAuto := false, switchDue := false, switchAuto := false, switchCmd := none,
    stall := 0, stallTold := false,    commit := none, captured := [], capOut := 0, capBlock := 0, capAt := 0, selfScope := 0, capSelf := 0, capRefused :=
    0, timed := none, timedTick := false, budget := 4096, refused := [], refusedUpd := 0, skipped := [], rails := true,
    pinLow := false, held := false, thermHold := false, warm := false, xo := false, watchAt := 0,
    slotA := none, slotB := none, above := 0, calDue := [], calTemp := [], calAt := 0, subBudget := [], wakeCmds := [],
    readyAt := 0, recCopy := 0, startAt := 0, stateAt := 0, hot := [], mctpEid := 0 }

def Hst.start : Hst :=
  { nextId := 0, cmds := [], finals := [], waiting := [], sqTail := [], cqHead := [], evqHead := [], cqPhase := [],
    evqPhase := [], cqUns := [], cqAge := [], evqSeq := [], evqOwed := [], dbGen := [], kicked := [], fetched := [], turn := [], lostVec := [], sharedAt := 0, aer := [],
    unmasked := [], vecPend := [], numVf := 0, shadowOwner := [], ops := [], undo := [], evMask := [], evRoute := [],
    evSev := [], evGot := [], puntDrop := [], linkRate := 0, linkWidth := 0, bootEvent := none }

def Ln.start : Ln :=
  { lanes := [], board := none, calLast := [], power := [] }

def Prt.start : Prt :=
  { sets := [], pauseEnd := [], pauseFrom := [], pauseTo := [], pausedSince := [], refresh := [], holdTold := [], vent := [],
    verifyTries := [], verifyAt := [], cnt := [] }

def Cls.start : Cls :=
  { place := [], slots := [], cnt := [], snoops := 0, moves := 0, reads := [], bankUse := [], bankLoad := [], scrubNext
    := 0, intervalNext := 0, todo := [], freeing := [], auditLast := [], asks := [], scrubLine := 0,
    missFull := [] }

def Oas.start : Oas :=
  { cells := [], timing := [], cache := [], refill := [], ring := [], reads := [], hdrm := [], ord := [], book :=
    CycleBook.empty, marks := [], audits := [], reclaim := false, began := 0, due := false }

def Swc.start : Swc :=
  { frames := [], nextFrame := 0, holdSince := [], caravan := [], caravanWait := [], mpPaused := [], inject := [],
    slotAt := 0, slots := [], slotTurn := [], hostNext := 0, hostTurn := 0, coreAt := 0 }

def Egr.start : Egr :=
  { queues := [], slip := [], wire := [], deficit := [], turn := [], bucket := [], bucketAt := [], gates := [], pacers
    := [], tload := none, tloadGen := none }

def Spe.start : Spe :=
  { recs := [], mirror := [], opens := [], groupLoad := [], groupLast := [], decidedAt := 0, decidedOf := [], full := [],
    win := [], lost := [], resets := [], probe := [], audit := [], sweepAt := 0 }

def Tme.start : Tme :=
  { slewLeft := 0, touched := false, step := [], stepped := [], steps := 0, lastStep := 0, incrs := [], tios := [],
    servoAt := 0, txs := [], agentQ := 0, seqs := [], twoStep := [], followUps := [], delayResps := [], pdelayResps :=
    [], lastSync := [], nextDreq := [], nextPdelay := [], pins := [] }

def Seif.start : Seif :=
  { dirs := [], due := [], itm := Itm.idle, taps := [] }

def Ref.start : Ref :=
  { present := [], meas := [], phase := [], gate := false, qualAt := [], exc := [], conf := [], dplls := [], sec := 0, xo := 0, gateAt := 0, infoAt := 0,
    xoAt := 0, sets := [], pduAt := [], tlv := [], sent := none }

def Outp.start : Outp :=
  { pins := [], reqs := [], accAt := 0 }

def Pair.start : Pair :=
  { claim := [], missed := [], alive := 0, differ := 0, told := false, hbAt := [], hits := [], hbDone := 0, epochDone :=
    0, joined := 0, peerSteps := 0, peerHeld := 0, tSend := 0, tArr := 0, seqs := [], lane := 0, slips := [], slipAt :=
    [], epoch := 0, outs := [], inn := none, ready := none, held := false, last := [], aligned := 0, handover := none,
    ending := none, named := false, swaps := [], agent := [] }

def Mbx.start : Mbx :=
  { toggle := [], inTog := [], inSrc := [], sending := [], nakTold := [], both := [], lockAt := [], lockTold := []
    freed := [], refused := [], resent := [], xwaits := [], emptied := [] }

def Chk.start : Chk :=
  { running := [], queue := [], seen := [] }

def Obs.start : Obs :=
  { sampLeft := [], sampSeq := [], sampTick := [], sampPhase := [], following := 0, selChanged := [], selAt := [], cycFrom := [], dumpDone := 0,
    skipped := 0, dump := none, flows := none }

def Cairn.start : Cairn :=
  { evt := [], sevCnt := [], figs := Figs.zero, opened := false, armDue := false, shortDue := false, clears := [], due
    := [], first := [], last := [], mirror := [], boot := 0, prog := [], erasing := false }

/-- The machine right after reset: power has just been applied and the start stands in its ROM state (R591); every
register reads the value of its field table (R621), and no command waits. -/
def State.reset : State :=
  { pending := [], hw := HwSets.none_, guards := [], regs := [], pend := [], hiLatch := [], loHold := [], out := [], freeCtr := 0, evAcc := [], store := [],
    clk := Clock.start, sys := Sys.start, hst := Hst.start, ln := Ln.start, prt := Prt.start, cls := Cls.start,
    oas := Oas.start, swc := Swc.start, egr := Egr.start, spe := Spe.start, tme := Tme.start, seif := Seif.start,
    ref := Ref.start, outp := Outp.start, pair := Pair.start, mbx := Mbx.start, chk := Chk.start, obs :=
    Obs.start, cairn := Cairn.start }

end Machine
end Sys2Proof
end

