-- ==== Sys2Proof/Machine/Ops.lean ====
section
/-!
DEFINITION. The named operations every family uses: registers and staged values, the transcript, event occurrences,
performance counts, free values, time, commands and their completions, generations and the versioned tables.
-/
namespace Sys2Proof
namespace Machine

/-- What a meaning answers. -/
abbrev Res := Host.Outcome State Fault Refusal

/-- A command that time does not move: whatever it does, it leaves the queue of waiting commands and the clock alone. -/
def run (f : State → State) (s : State) : Res := .next { f s with pending := s.pending, clk := s.clk }

/-- A command that may reset the part: it leaves the queue of waiting commands alone, and the clock goes on, or is that of a
reset (R585). -/
def runReset (f : State → State) (s : State) : Res :=
  let t := f s
  .next { t with pending := s.pending, clk := if t.clk = s.clk then s.clk else Clock.start }

/-- A command that moves time (ch. 02): it leaves the queue of waiting commands alone. -/
def runTick (f : State → State) (s : State) : Res := .next { f s with pending := s.pending }

/-- Work that time does not move. -/
def State.still (f : State → State) (s : State) : State := { f s with clk := s.clk }

/-! ### Registers -/

/-- Value after reset of index `i` of a field: the field table's, or the one its chapter gives by index (R246, R283,
R183, R184, R446, R518) or leaves to the part and the board (log entry 12). -/
def Fld.reset (f : Fld) (i : Nat) : Nat :=
  match f with
  | .CIS_ARB_CFG_WEIGHT => [2048, 1024, 7168, 2048, 1024, 256, 256, 128].getD i 0
  | .CIS_ARB_CFG_BURST => [1, 4, 2, 8, 2, 8, 8, 8].getD i 0
  | .CIS_ARB_CFG_WAIT_LIMIT => [8, 32, 8, 4, 8, 64, 128, 256].getD i 0
  | .OAS_POOL_LIMIT_LIMIT => [8192, 524288, 65536, 188416].getD i 0
  | .REF_DPLL_CFG_PBO => if i = 0 then 1 else 0
  | .CHK_UNIT_CFG_POOL => if i ≤ 8 then 1 else 0
  | .LN_CFG_TRAIN => if 258 ≤ i then 2 else f.desc.rst
  | .LN_CFG_FIXED_RUNG => if 258 ≤ i then 4 else f.desc.rst
  | .PRT_DLY_RX => Config.dieDelay (1 * 64 + 1 * 4) 0 % 65536
  | .PRT_DLY_TX => Config.dieDelay (1 * 64 + 1 * 4) 1 % 65536
  | .SYS_SERIAL_SERIAL => Config.serial % 2 ^ 64
  | .SYS_KEY_ID_KEY => Config.keyId % 2 ^ 32
  | .SYS_STRAPS_UNIT_ID => Config.strapUnit % 2
  | .SYS_STRAPS_MGMT_SEL => Config.strapMgmt % 2
  | .PAIR_STATUS_UNIT => Config.strapUnit % 2
  | _ => f.desc.rst

/-- Width of a field in bits. -/
def Fld.width (f : Fld) : Nat := f.desc.hi - f.desc.lo + 1

/-- The key of index `i` of field `f` in the register tables. -/
def Fld.key (f : Fld) (i : Nat) : Nat := f.ctorIdx * 8192 + i

/-- The value in force of a register field. -/
def State.reg (s : State) (f : Fld) (i : Nat := 0) : Nat := tget (f.reset i) s.regs (f.key i)

/-- Put a value into force, cut to the field's width. -/
def State.setReg (s : State) (f : Fld) (i v : Nat) : State :=
  { s with regs := tset (f.reset i) (f.key i) (v % 2 ^ f.width) s.regs }

/-- A one-bit field as a truth value. -/
def State.flag (s : State) (f : Fld) (i : Nat := 0) : Bool := s.reg f i == 1

/-- The signed value of a field. -/
def State.sreg (s : State) (f : Fld) (i : Nat := 0) : Int := sgn f.width (s.reg f i)

/-- The value after the next commit: the pending value, or the one in force (R56, R59). -/
def State.pendReg (s : State) (f : Fld) (i : Nat := 0) : Nat := (tget none s.pend (f.key i)).getD (s.reg f i)

/-- Write the pending value of a staged field (R56). -/
def State.setPend (s : State) (f : Fld) (i v : Nat) : State :=
  { s with pend := tset none (f.key i) (some (v % 2 ^ f.width)) s.pend }

/-- Add to a counting field, saturating at its width. -/
def State.countReg (s : State) (f : Fld) (i n : Nat) : State :=
  s.setReg f i (min (2 ^ f.width - 1) (s.reg f i + n))

/-- Add to a counting field that wraps. -/
def State.wrapReg (s : State) (f : Fld) (i n : Nat) : State := s.setReg f i (s.reg f i + n)

/-- Set several fields. -/
def State.setRegs (s : State) (l : List (Fld × Nat × Nat)) : State :=
  l.foldl (fun s x => s.setReg x.1 x.2.1 x.2.2) s

/-! ### Bits that hardware sets in the cycle of a write (R8) -/

/-- The CORE cycle that runs. -/
def State.coreCycle (s : State) : Nat := s.clk.tickCount * 65536 + s.clk.cycle

/-- Bits of a clear-1 or sticky field that hardware has set in the CORE cycle that runs. -/
def State.hwBits (s : State) (f : Fld) (i : Nat) : Nat :=
  if s.hw.at_ = s.coreCycle + 1 then tget 0 s.hw.bits (f.key i) else 0

/-- Note `v` as what hardware has set of a field in this cycle. -/
def State.hwNote (s : State) (f : Fld) (i v : Nat) : State :=
  { s with hw := { s.hw with
      at_ := s.coreCycle + 1, bits := tset 0 (f.key i) v (if s.hw.at_ = s.coreCycle + 1 then s.hw.bits else []) } }

/-- Hardware sets the bits `v` of a clear-1 or sticky field. -/
def State.hwSet (s : State) (f : Fld) (i v : Nat) : State :=
  (s.setReg f i (s.reg f i ||| v)).hwNote f i (s.hwBits f i ||| v)

/-- Hardware adds `n` to a count that clears as one field. -/
def State.hwCount (s : State) (f : Fld) (i n : Nat) : State :=
  (s.setReg f i (min (2 ^ f.width - 1) (s.reg f i + n))).hwNote f i (s.hwBits f i + n)

/-- A write clears the bits `v` of such a field; what hardware has set in the same cycle stays set. -/
def State.clearBits (s : State) (f : Fld) (i v : Nat) : State :=
  let old := s.reg f i
  s.setReg f i (old - (old &&& (v - (v &&& s.hwBits f i))))

/-! ### The paths of register accesses (R5, R81, R620, R625) -/

/-- The block of an address: BAR0 indices (0x0B is LN's second half), then 0x40 + f for BAR2 and 0x60 + f for BAR4. -/
def blockOf (a : Nat) : Nat :=
  if a < 0x4000000 then (if a / 0x100000 = 0xB then 0xA else a / 0x100000)
  else if a < 0x5000000 then 0x40 + (a - 0x4000000) / 0x4000
  else 0x60 + (a - 0x5000000) / 0x10000

/-- The path of an identity, in lock-port order (R537, R625). -/
def pathOf (who : Nat) : Nat := if 16 ≤ who ∧ who < 20 then who - 16 else if who = 21 then 5 else if who = 22 then 6 else 4

/-- The latch and holding register an access uses (R625). -/
def latchKey (who a : Nat) : Nat := blockOf a * 8 + pathOf who

/-- The writes of the register at `a` in the CORE cycle that runs (R626). -/
def State.wrotes (s : State) (a : Nat) : List (Nat × Nat × Nat × Nat × Nat × Nat) :=
  if s.hw.wroteAt = s.coreCycle + 1 then s.hw.wrote.filter fun x => x.2.2.1 == a else []

/-- Note a write of `v` in the bits of `m` at `a` by identity `who`, and the word it found. -/
def State.noteWrite (s : State) (who a v m old : Nat) : State :=
  { s with hw := { s.hw with
      wroteAt := s.coreCycle + 1
      wrote := (pathOf who, who, a, v, m, old) :: (if s.hw.wroteAt = s.coreCycle + 1 then s.hw.wrote else []) } }

/-! ### The transcript and free values -/

/-- Send something to the outside. -/
def State.emit (s : State) (o : Out) : State := { s with out := o :: s.out }

/-- Advance the counter that makes every free value a fresh one. -/
def State.fresh (s : State) : State := { s with freeCtr := s.freeCtr + 1 }

/-! ### Events (ch. 22) -/

/-- Default severity of an event source (R609). -/
def defaultSev (e : Nat) : Nat :=
  if e ∈ [1, 6, 8, 10, 32, 52, 82, 97, 114, 147, 163, 164, 165, 166, 168, 193, 195, 196, 201, 219, 226, 232] then 0
  else if e ∈ [3, 35, 40, 50, 54, 64, 65, 67, 80, 96, 112, 115, 118, 130, 150, 153, 154, 156, 161, 167, 170, 177, 181,
    182, 185, 188, 194, 206, 209, 217, 228, 233, 235, 246, 247, 249] then 1
  else if e ∈ [0, 5, 37, 38, 49, 53, 83, 85, 89, 90, 99, 101, 106, 117, 134, 148, 162, 180, 183, 192, 203, 205, 208, 212,
    227, 243, 244, 250] then 3
  else if e ∈ [207, 213] then 4
  else 2

/-- The severity written into an entry: the override of HST_EV_SEV in force at the start of the tick, or the occurrence's
own (R610, R618). -/
def State.severity (s : State) (e own : Nat) : Nat :=
  let n := tget 0 s.hst.evSev (e / 8) / 16 ^ (e % 8) % 16
  if 8 ≤ n then n % 8 else own

/-- Detail bytes from (width in bytes, value) fields, in order, cut to 16 B (R611, R612). -/
def det (l : List (Nat × Nat)) : List Nat := (l.flatMap fun p => le p.1 p.2).take 16

/-- Merge one occurrence into the tick's account of its source (R613): the count, the highest severity, and the detail
(the first one's, or `merge old new` where the chapter states a tick-wide value). -/
def EvAcc.add (a : EvAcc) (sev : Nat) (d : List Nat) (merge : List Nat → List Nat → List Nat) (fn : Option Nat) : EvAcc :=
  { a with
    count := a.count + 1
    sev := max a.sev sev
    detail := if a.count = 0 then d else merge a.detail d
    byFn := match fn with
      | none => a.byFn
      | some f =>
        match a.byFn.find? (fun x => x.1 == f) with
        | none => a.byFn ++ [(f, 1, sev, d)]
        | some x => a.byFn.map fun y => if y.1 = f then (f, x.2.1 + 1, max x.2.2.1 sev, x.2.2.2) else y }

/-- In playa mode only MBX, HST and SYS events are raised (R615). -/
def evAllowed (s : State) (e : Nat) : Bool :=
  !s.flag .SYS_STATUS_PLAYA || (decide (224 ≤ e) && decide (e < 232)) || decide (240 ≤ e)

/-- An occurrence of event source `e` (R613, R614). -/
def State.raiseBy (s : State) (e own : Nat) (d : List Nat) (merge : List Nat → List Nat → List Nat)
    (fn : Option Nat) : State :=
  if evAllowed s e then
    let sev := s.severity e own
    { s with
      evAcc := tset EvAcc.zero e ((tget EvAcc.zero s.evAcc e).add sev d merge fn) s.evAcc
      cairn := { s.cairn with
        evt := tupd 0 e (satAdd 0xFFFF · 1) s.cairn.evt
        sevCnt := tupd 0 sev (· + 1) s.cairn.sevCnt } }
  else s

/-- An occurrence with the default severity, whose first detail of the tick stands. -/
def State.ev (s : State) (e : Nat) (d : List (Nat × Nat)) : State :=
  s.raiseBy e (defaultSev e) (det d) (fun a _ => a) none

/-- An occurrence that names function `f` (E241 to E247, R613). -/
def State.evFn (s : State) (e f : Nat) (d : List (Nat × Nat)) : State :=
  s.raiseBy e (defaultSev e) (det d) (fun a _ => a) (some f)

/-- An occurrence with its own severity (E252, E255; R610). -/
def State.evSevBy (s : State) (e own : Nat) (d : List (Nat × Nat)) : State :=
  s.raiseBy e own (det d) (fun a _ => a) none

/-- An occurrence whose detail is a summary of the tick: `merge` gives it from the old and the new detail. -/
def State.evSum (s : State) (e : Nat) (d : List (Nat × Nat)) (merge : List Nat → List Nat → List Nat) : State :=
  s.raiseBy e (defaultSev e) (det d) merge none

/-- An occurrence whose detail names the lowest object affected in the tick and how many are affected (R186, R212): `f`
gives the fields from the count, whose 4 bytes start at byte `cpos`; the other fields are those of the lowest object. -/
def State.evObj (s : State) (e obj cpos : Nat) (f : Nat → List (Nat × Nat)) : State :=
  let a := tget EvAcc.zero s.evAcc e
  let objs := if obj ∈ a.objs then a.objs else obj :: a.objs
  let low := a.objs.all fun o => decide (obj < o)
  let s := s.raiseBy e (defaultSev e) (det (f objs.length))
    (fun old new => if low then new else slice old 0 cpos ++ le 4 objs.length ++ old.drop (cpos + 4)) none
  let b := tget EvAcc.zero s.evAcc e
  if b.count = a.count then s else { s with evAcc := tset EvAcc.zero e { b with objs := objs } s.evAcc }

/-- The common form: object number (2 B), count (4 B), then `rest` of the lowest one. -/
def State.evLow (s : State) (e obj : Nat) (rest : List (Nat × Nat)) : State :=
  s.evObj e obj 2 fun n => (2, obj) :: (4, n) :: rest

/-- How a field of a tick's summary takes one more occurrence (R613). -/
inductive Mg where
  | keep | sum | low | high | or | new | slow
deriving DecidableEq, Repr

/-- One field of `w` bytes, old and new. -/
def Mg.apply (m : Mg) (w a b : Nat) : Nat :=
  match m with
  | .keep => a
  | .sum => min (256 ^ w - 1) (a + b)
  | .low => min a b
  | .high => max a b
  | .or => a ||| b
  | .new => b
  | .slow => if sgn (8 * w) a ≤ sgn (8 * w) b then a else b

/-- Merge the details of two occurrences field by field. -/
def mergeFields : List (Nat × Mg) → List Nat → List Nat → List Nat
  | [], _, _ => []
  | (w, m) :: t, a, b => le w (m.apply w (ofLE (slice a 0 w)) (ofLE (slice b 0 w))) ++ mergeFields t (a.drop w) (b.drop w)

/-- An occurrence whose detail is a tick-wide summary, field by field (R613): (width, value, how it merges). -/
def State.evT (s : State) (e : Nat) (l : List (Nat × Nat × Mg)) : State :=
  s.evSum e (l.map fun x => (x.1, x.2.1)) fun a b => (mergeFields (l.map fun x => (x.1, x.2.2)) a b).take 16

/-- An occurrence whose detail says how many objects the tick affects: `f n` gives the fields from that count, with the way
each takes one more occurrence (R613). -/
def State.evCount (s : State) (e obj : Nat) (f : Nat → List (Nat × Nat × Mg)) : State :=
  let a := tget EvAcc.zero s.evAcc e
  let objs := if obj ∈ a.objs then a.objs else obj :: a.objs
  let l := f objs.length
  let s := s.raiseBy e (defaultSev e) (det (l.map fun x => (x.1, x.2.1)))
    (fun old new => (mergeFields (l.map fun x => (x.1, x.2.2)) old new).take 16) none
  let b := tget EvAcc.zero s.evAcc e
  if b.count = a.count then s else { s with evAcc := tset EvAcc.zero e { b with objs := objs } s.evAcc }

/-- The lowest object affected in the tick, how many are affected, and fields that merge over the tick (R186, R212, R348). -/
def State.evTally (s : State) (e obj : Nat) (l : List (Nat × Nat × Mg)) : State :=
  s.evCount e obj fun n => (2, obj, .low) :: (4, n, .new) :: l

/-- A raise under a condition. -/
def State.evIf (s : State) (c : Bool) (e : Nat) (d : List (Nat × Nat)) : State := if c then s.ev e d else s

/-! ### Performance counters (R546-R549) -/

/-- Counter `k` of unit `u` counts item `item`, quantity `q`, breakdown `b`, kind `kind`, object `idx`: from the CORE cycle
after its selection on (R547). -/
def counts (s : State) (u k item q b kind idx : Nat) : Bool :=
  let i := u * 8 + k
  let sub := s.reg .OBS_U_SEL_SUB i
  s.reg .OBS_U_SEL_ITEM i == item && tget 0 s.obs.selAt i != s.coreCycle + 1 && (max 1 (sub / 16) == q) && (sub % 16 == 0 || sub % 16 == b) &&
    s.reg .OBS_U_SEL_KIND i == kind && (s.flag .OBS_U_SEL_ALL i || s.reg .OBS_U_IDX_IDX i == idx)

/-- The lowest member of a bitmap. -/
def lowBit (n : Nat) : Nat := ((List.range 64).find? fun k => bit n k).getD 64

/-- A counter has wrapped (R549): OVF, and E232 with the units and the counters of the lowest of them. -/
def State.overflow (s : State) (u k : Nat) : State :=
  (s.hwSet .OBS_U_OVF_OVF u (2 ^ k)).evSum 232 [(3, 2 ^ u), (2, 2 ^ k)] fun a b =>
    let ua := ofLE (slice a 0 3)
    let ub := ofLE (slice b 0 3)
    let ka := ofLE (slice a 3 2)
    let kb := ofLE (slice b 3 2)
    padTo 16 (le 3 (ua ||| ub) ++ le 2 (if lowBit ub < lowBit ua then kb else if lowBit ub = lowBit ua then ka ||| kb else ka))

/-- Add `n` to counter `k` of unit `u`, which wraps at 48 bits and then reports E232 (R549). -/
def addCounter (s : State) (u k n : Nat) : State :=
  let i := u * 8 + k
  let v := s.reg .OBS_U_CNT_VALUE i + n
  let s := (s.setReg .OBS_U_CNT_VALUE i v).hwNote .OBS_U_CNT_VALUE i (s.hwBits .OBS_U_CNT_VALUE i + n)
  if v < 2 ^ 48 then s else s.overflow u k

/-- `n` occurrences that the programmable counters of unit `u` can select (R548). -/
def State.tally (s : State) (u item q b kind idx n : Nat) : State :=
  if n = 0 then s
  else (List.range 8).foldl (fun s k => if counts s u k item q b kind idx then addCounter s u k n else s) s

/-- One occurrence that concerns several objects of one kind: a counter over all of them counts it once. -/
def State.tallyAny (s : State) (u item kind : Nat) (objs : List Nat) : State :=
  (List.range 8).foldl (fun s k => if objs.any (counts s u k item 1 0 kind) then addCounter s u k 1 else s) s

/-- One occurrence of an item with one quantity and no breakdown. -/
def State.tally1 (s : State) (u item idx : Nat) : State := s.tally u item 1 0 0 idx 1

/-- An item that names a largest value holds the extreme since the last clear (R548). -/
def State.peak (s : State) (u item idx v : Nat) : State :=
  (List.range 8).foldl (fun s k =>
    if counts s u k item 1 0 0 idx then s.setReg .OBS_U_CNT_VALUE (u * 8 + k) (max v (s.reg .OBS_U_CNT_VALUE (u * 8 + k))) else s) s

/-! ### Cairn figures (R570, R571) -/

/-- Change the figures of the open interval. -/
def State.fig (s : State) (f : Figs → Figs) : State := { s with cairn := { s.cairn with figs := f s.cairn.figs } }

/-- Detections under R39 and discards under R40, in the guard counter of the subsystem with BAR0 index `b` and in Cairn's
figure. -/
def State.guard (s : State) (b n : Nat) : State :=
  ({ s with guards := tupd 0 b (· + n) s.guards } : State).fig fun f => { f with guard := f.guard + n }

/-- Bin of a residence in grains (R571): limits 100 ns, 200 ns, 400 ns, 1 µs, 10 µs, 100 µs and 1 ms. -/
def resBin (g : Nat) : Nat := ([100, 200, 400, 1000, 10000, 100000, 1000000].filter fun l => decide (l * 65536 ≤ g)).length

/-- A forwarded timing-class copy of residence `g`. -/
def State.figRes (s : State) (g : Nat) : State := s.fig fun f => { f with resHist := tupd 0 (resBin g) (satAdd 0xFFFFFF · 1) f.resHist }

/-- The free room of a pool, LIMIT − IN_USE. -/
def State.figPool (s : State) (p : Nat) (room : Int) : State :=
  s.fig fun f => { f with poolMin := tset none p (some (match tget none f.poolMin p with | some v => min v room | none => room)) f.poolMin }

/-! ### Calibration temperatures (R602, R604) -/

/-- Die temperature of sensor `k`, in 1/16 °C. -/
def State.temp (s : State) (k : Nat) : Int := s.sreg .SYS_TEMP_TEMP k

/-- A block has been calibrated at temperature `t`: kind 0 lane, 1 seif direction, 2 ITM, 3 aligner. -/
def State.calMark (s : State) (kind i : Nat) (t : Int) : State :=
  { s with sys := { s.sys with
      calTemp := tset 0 (kind * 4096 + i) t s.sys.calTemp, calDue := tdel (kind * 4096 + i) s.sys.calDue } }

/-! ### Time (R11, R46, R376-R378) -/

/-- TAI nanoseconds. -/
def State.taiNs (s : State) : Nat := s.clk.acc / 2 ^ 40

/-- TAI in grains. -/
def State.grains (s : State) : Nat := s.clk.acc / 2 ^ 24

/-- The short stamp's wrap ns (R11). -/
def State.wrapNs (s : State) : Nat := s.taiNs % 2 ^ 32

/-- The short stamp's grain. -/
def State.grain (s : State) : Nat := s.grains % 65536

/-- TIME cycles that CORE cycles `c` to `c + n` of a tick span (R16). -/
def timeEdges (c n : Nat) : Nat := (c + n) * 5 / 16 - c * 5 / 16

/-- What the slew adds in one TIME cycle, in 2^-40 ns: the rate in ppb of 2 ns, rounded down (R378). -/
def slewStep (s : State) : Nat := 2 ^ 41 * (s.reg .TME_SLEW_RATE_PPB % 2 ^ 20) / 10 ^ 9

/-- TIME runs for `n` CORE cycles: INCR a TIME cycle, and the slew while a remainder is left (R376, R378). The ranges of INCR
and of the rate keep the increment above the slew (R140, R378), so that time never runs backward. -/
def State.runTime (s : State) (n : Nat) : State :=
  let e := timeEdges s.clk.cycle n
  let d : Int := min (e * slewStep s : Nat) s.tme.slewLeft.natAbs
  let d := if s.tme.slewLeft < 0 then -d else d
  { s with
    clk := { s.clk with
      acc := max s.clk.acc (((s.clk.acc + e * s.reg .TME_INCR_INCR : Nat) : Int) + d).toNat, cycle := s.clk.cycle + n }
    tme := { s.tme with slewLeft := s.tme.slewLeft - d } }

/-- CORE cycles up to the first common TIME and CORE edge at or after `target` ns, with the slew in progress (R46, the case
under R47, R378): the least multiple of 5 TIME cycles that spans the distance. -/
def ticksTo (s : State) (target : Nat) : Nat :=
  let d := target * 2 ^ 40 - s.clk.acc
  let incr := s.reg .TME_INCR_INCR
  let step := slewStep s
  let left := s.tme.slewLeft.natAbs
  let fives (d per : Nat) : Nat := cdiv d (5 * per)
  16 * (if s.tme.slewLeft < 0 then min (fives d (incr - step)) (fives (d + left) incr)
    else if s.tme.slewLeft = 0 then fives d incr
    else max (fives d (incr + step)) (fives (d - left) incr))

/-- In the quiet window: the last 64 CORE cycles of the tick (R48). -/
def State.quietWindow (s : State) : Bool := decide (s.clk.tickLen ≤ s.clk.cycle + 64)

/-- Command execution runs: from CORE cycle 16 to the quiet window (R48). -/
def State.execWindow (s : State) : Bool := decide (16 ≤ s.clk.cycle) && !s.quietWindow

/-- Time is traceable (R385). -/
def State.traceable (s : State) : Bool := s.flag .TME_STATUS_TRACEABLE

/-! ### Commands and completions (R90-R100) -/

/-- Ring key. -/
def ring (fn n : Nat) : Nat := fn * 256 + n

/-! ### Records of the samplers (R564-R566) -/

/-- A record of sampler `k` is lost (R566): `full` says why. E235 counts the tick's losses. -/
def State.sampLose (s : State) (k : Nat) (full : Bool) : State :=
  let s := if full then s.wrapReg .OBS_SAMP_LOST_FULL_COUNT k 1 else s.wrapReg .OBS_SAMP_LOST_RATE_COUNT k 1
  s.evSum 235 [(1, k), (4, b2n full), (4, b2n !full)]
    fun a b => a.take 1 ++ le 4 (ofLE (slice a 1 4) + ofLE (slice b 1 4)) ++ le 4 (ofLE (slice a 5 4) + ofLE (slice b 5 4))
      ++ List.replicate 7 0

/-- Write a 32 B record whose first byte still lacks PHASE (R566). -/
def State.sampWrite (s : State) (k : Nat) (rec : List Nat) : State :=
  let size := 2 ^ s.reg .OBS_SAMP_SIZE_LOG2_SIZE k
  let tail := s.reg .OBS_SAMP_TAIL_TAIL k
  let next := (tail + 1) % size
  if next = s.reg .OBS_SAMP_HEAD_HEAD k then s.sampLose k true
  else if s.reg .OBS_SAMP_CFG_MAX_TICK k ≤ tget 0 s.obs.sampTick k then s.sampLose k false
  else
    let ph := tget 1 s.obs.sampPhase k
    let s := s.emit (.hostWrite (s.reg .OBS_SAMP_BASE_ADDR k * 4096 + 32 * tail) (rec.set 0 (rec.getD 0 0 % 128 + 128 * ph)))
    let s := s.setReg .OBS_SAMP_TAIL_TAIL k next
    { s with obs := { s.obs with
        sampTick := tupd 0 k (· + 1) s.obs.sampTick
        sampPhase := if next = 0 then tset 1 k (1 - ph) s.obs.sampPhase else s.obs.sampPhase } }

/-- The command record of R565. -/
def State.sampCommand (s : State) (c : Cmd) (st : Nat) : State :=
  match c.samp with
  | none => s
  | some seq =>
    let lat := (s.wrapNs + 2 ^ 32 - c.fetchNs) % 2 ^ 32
    s.sampWrite 1 (padTo 32 ([2, c.fn % 16, c.opcode, st] ++ le 2 c.sq ++ [0, 0] ++ le 8 c.addr ++ le 4 c.fetchNs
      ++ le 4 lat ++ le 4 c.tag ++ le 4 seq))

/-- QUIET and QUIESCE of a function follow its executing commands (R83): those fetched whose completion is not posted. -/
def State.settle (s : State) (fn : Nat) : State :=
  if s.hst.cmds.any fun c => c.fn == fn then s
  else (s.setReg .HST_FN_STATUS_QUIET fn 1).setReg .HST_FN_CTRL_QUIESCE fn 0

/-- Give command `id` its outcome `r`. A QUIET command that ended OK needs no completion (R90); its sampler record is written
at once (R565). The entry of any other is due and waits for its turn in its ring (R95). -/
def State.completeWith (s : State) (id : Nat) (r : Cpl) : State :=
  match s.hst.cmds.find? fun c => c.id == id with
  | none => s
  | some c =>
    if c.quiet ∧ r.status = 0 then
      (({ s with hst := { s.hst with cmds := s.hst.cmds.filter fun c => c.id != id } } : State).sampCommand c 0).settle c.fn
    else { s with hst := { s.hst with cmds := s.hst.cmds.map fun c => if c.id = id then { c with res := some r } else c } }

/-- Give command `id` its status and result bytes. -/
def State.complete (s : State) (id st : Nat) (result : List Nat) : State := s.completeWith id ⟨st, 0, false, result, none⟩

/-- Complete several commands alike. -/
def State.completeAll (s : State) (ids : List Nat) (st : Nat) (result : List Nat) : State :=
  ids.foldl (fun s i => s.complete i st result) s

/-- Completion status codes (R152). -/
def stOK : Nat := 0
def stLONG : Nat := 1
def stPARTIAL : Nat := 2
def stSUSPENDED : Nat := 3
def stBADOPCODE : Nat := 0x10
def stBADFIELD : Nat := 0x11
def stNOROOM : Nat := 0x12
def stFROZEN : Nat := 0x13
def stNOTOWNER : Nat := 0x14
def stTICKPAST : Nat := 0x15
def stBUDGET : Nat := 0x16
def stSTEPSPENT : Nat := 0x17
def stNOSHADOW : Nat := 0x18
def stHWFAULT : Nat := 0x20

/-! ### Generations and the versioned tables (R63-R68, R133) -/

/-- The tables, by shadow context number (R106). -/
def tL2 : Nat := 0
def tL3 : Nat := 1
def tGroup : Nat := 2
def tFlow : Nat := 3
def tList : Nat := 4
def tGate : Nat := 5
def tPace : Nat := 6

/-- Key of entry `i` of table `t` in the store. -/
def ekey (t i : Nat) : Nat := t * 2 ^ 23 + i

/-- Entries of each table (R106). The size of the replication-list table is that of ch. 09. -/
def tableSize (t : Nat) : Nat :=
  match t with
  | 0 => 262144 | 1 => 524288 | 2 => 65536 | 3 => 5242880 | 4 => 2097152 | 5 => 262144 | _ => 65536

/-- Every version of an entry, oldest first. -/
def State.vers (s : State) (t i : Nat) : List Ver := tget [] s.store (ekey t i)

/-- The version generation `g` resolves to: the newest written in or before it (R64). -/
def verAt (l : List Ver) (g : Nat) : Option Ver := l.foldl (fun a v => if v.gen ≤ g then some v else a) none

/-- The version of an entry that frames of generation `g` see. -/
def State.lookup (s : State) (t i g : Nat) : Option Ver := verAt (s.vers t i) g

/-- The version the newest generation sees: the pending one. -/
def State.newest (s : State) (t i : Nat) : Option Ver := (s.vers t i).getLast?

/-- Entry bytes that generation `g` sees, of a sound version. -/
def State.entryAt (s : State) (t i g : Nat) : Option Line :=
  match s.lookup t i g with
  | some v => if v.state = 0 then v.val else none
  | none => none

/-- The pending generation, counted without wrapping (R64). -/
def State.pendSeq (s : State) : Nat := s.sys.genSeq + 1

/-- Write a version into a given generation: the later update of one entry in one generation wins (R132). -/
def putVer (l : List Ver) (v : Ver) : List Ver := l.filter (fun w => w.gen != v.gen) ++ [v]

/-- Replace the versions of an entry. -/
def State.setVers (s : State) (t i : Nat) (l : List Ver) : State := { s with store := tset [] (ekey t i) l s.store }

/-- A table update: a new version in the pending generation (R64). -/
def State.update (s : State) (t i : Nat) (val : Option Line) (held : Bool) : State :=
  s.setVers t i (putVer (s.vers t i) ⟨s.pendSeq, val, held, 0, 0, 0⟩)

/-- Held versions in the pending generation (R133). -/
def State.heldCount (s : State) : Nat :=
  (s.store.filter fun p => p.2.any fun v => v.held && v.gen == s.pendSeq).length

/-- An entry already has a held version, so another takes no further room (R133). -/
def State.heldAt (s : State) (t i : Nat) : Bool := (s.vers t i).any fun v => v.held && v.gen == s.pendSeq

/-- An unheld update waits for the next switch; `id` is its command, if it has one (R67). -/
def State.awaitSwitch (s : State) (id : Option (Nat × Option Nat)) : State :=
  match s.sys.timed with
  | some t => { s with sys := { s.sys with unheldAny := true, timed := some { t with joined := t.joined ++ id.toList } } }
  | none => { s with sys := { s.sys with unheldAny := true, unheld := s.sys.unheld ++ id.toList } }

/-- The versions of a list, oldest first, that are not superseded or that a generation of `live` still sees (R65). -/
def seenVers (live : List Nat) : List Ver → List Ver
  | [] => []
  | v :: t =>
    match t with
    | [] => [v]
    | w :: _ => if live.any fun n => decide (v.gen ≤ n ∧ n < w.gen) then v :: seenVers live t else seenVers live t

/-- Drop the versions that no generation in use can see (R65); a deleted entry with nothing older or newer disappears once
every generation in use sees it. -/
def retireVers (live : List Nat) (l : List Ver) : List Ver :=
  match seenVers live l with
  | [b] => if b.val = none ∧ b.state = 0 ∧ live.all (fun n => decide (b.gen ≤ n)) then [] else [b]
  | l => l

/-- Frames of generation number `n` still inside (R65). -/
def State.drainOf (s : State) (n : Nat) : Nat := tget 0 s.sys.drain (n % 4)

/-- A comparator is armed, so that frames take the pending generation's number (R70). -/
def State.comparing (s : State) : Bool := s.sys.timed.any Timed.armed

/-- The generations in use, oldest first: those not current that have not drained, and the current one (R65). The number of the
pending one, which is also that of three generations ago, counts frames of the pending one while a comparator is armed. -/
def State.liveGens (s : State) : List Nat :=
  let g := s.sys.genSeq
  let old (k : Nat) : List Nat := if k ≤ g ∧ s.drainOf (g - k) ≠ 0 then [g - k] else []
  (if s.comparing then [] else old 3) ++ old 2 ++ old 1 ++ [g]

/-- The oldest generation still in use. -/
def State.oldestGen (s : State) : Nat := s.liveGens.headD s.sys.genSeq

/-- Retire every version superseded before the oldest generation in use (R65). -/
def State.retire (s : State) : State :=
  { s with store := (s.store.map fun p => (p.1, retireVers s.liveGens p.2)).filter fun p => decide (p.2 ≠ []) }

/-- A frame enters or leaves the drain count of its generation (R65). -/
def State.drainAdd (s : State) (g : Nat) : State :=
  { s with sys := { s.sys with drain := tupd 0 (g % 4) (· + 1) s.sys.drain } }
def State.drainSub (s : State) (g : Nat) : State :=
  { s with sys := { s.sys with drain := tupd 0 (g % 4) (· - 1) s.sys.drain } }

/-- Group `k` has list lines in generation `g` (R306). -/
def State.groupListed (s : State) (k g : Nat) : Bool :=
  match (s.lookup tGroup k g).bind Ver.val with
  | some e => e.getD 8 0 % 128 != 0
  | none => false

/-! ### Placements and the Cistern's lines (R35, R36, R232, R244, R249) -/

def State.placement (s : State) (i : Nat) : Placement := tget Placement.default s.cls.place i
def State.setPlacement (s : State) (i : Nat) (p : Placement) : State :=
  { s with cls := { s.cls with place := tset Placement.default i p s.cls.place } }

/-- Bank of a flow's slot (R232). -/
def Spot.bank (p : Spot) : Nat := p.slot % 64

/-- The placement as the pending generation will have it. -/
def Placement.plan (p : Placement) : Spot := p.next.getD p.spot

/-- A placement is changed in the pending generation (R36). -/
def Placement.put (p : Placement) (f : Spot → Spot) : Placement :=
  let q := f p.plan
  { p with next := if q = p.spot then none else some q }

/-- The placement with which frames of generation `g` complete (R36). -/
def State.spotAt (s : State) (i g : Nat) : Spot :=
  let p := s.placement i
  if s.sys.genSeq < g then p.plan
  else match p.older.find? fun x => decide (g ≤ x.1) with
    | some x => x.2
    | none => p.spot

/-- Base address and bytes of an item of the Cistern's regions (R244): 0 flow store, 1 directory mirror, 2 flow counters,
3 seamless windows, 4 pair directory mirror, 5 replication lists, 6 Oasis free ring. -/
def cisRegion (r : Nat) : Nat × Nat :=
  [(0x00000000, 64), (0x14000000, 3), (0x15000000, 16), (0x1A000000, 512), (0x3A000000, 4), (0x3A400000, 64),
    (0x42400000, 64)].getD r (0, 0)

/-- The 64 B line of item `k` of region `r`. -/
def cisLine (r k : Nat) : Nat := ((cisRegion r).1 + (cisRegion r).2 * k) / 64

/-- Lines of all the regions, which follow one another: 1,064 MiB. -/
def cisLines : Nat := 17432576

/-- Bank of a line (R244). -/
def cisBank (line : Nat) : Nat := line % 64

/-- Requester `n` asks for the lines of a run (R249). -/
def State.ask (s : State) (n line count : Nat) : State :=
  if count = 0 then s
  else { s with cls := { s.cls with asks := tset [] n (tget [] s.cls.asks n ++ [(line, count)]) s.cls.asks } }

/-- The class of a flow, by the key entry at its anchor; 5: none (R253). -/
def State.flowClass (s : State) (i : Nat) : Nat :=
  match s.entryAt tFlow i s.sys.genSeq with
  | none => 5
  | some e => match s.entryAt (b2n (bit (e.getD 1 0) 4)) (ofLE (slice e 16 4) % 2 ^ 19) s.sys.genSeq with
    | some k => k.getD 40 0 % 8
    | none => 5

/-- How flow `i` is replicated (R238): 1 expanded at the ingress slice, 2 caravan. -/
def replChoice (p : Spot) (listed : Bool) : Nat :=
  if listed ∨ p.repl = 2 then 2 else if p.repl = 1 then 1 else if p.cacheOut then 2 else 1

def State.replMode (s : State) (i g : Nat) : Nat :=
  let e := ((s.lookup tFlow i g).bind Ver.val).getD []
  let k := e.getD 0 0 / 16 % 8
  let group := decide (2 ≤ k ∧ k ≤ 4)
  if group then replChoice (s.spotAt i g) (s.groupListed (ofLE (slice e 2 2)) g) else 1

/-- The result of FLOW_ADD, FLOW_MOD and PLACE_HINT: the placement in force of flow `i`, and generation `g` (R97, R135). -/
def State.flowResult (s : State) (i g : Nat) : List Nat :=
  let p := s.spotAt i g
  [b2n p.cacheOut, p.bank, p.chku, p.pool, s.replMode i g, g % 4]

/-- Versions of an entry that stand in the version table: pending ones, and those that superseded one still in use (R230). -/
def State.versionsOf (s : State) (l : List Ver) : Nat :=
  match retireVers s.liveGens l with
  | [] => 0
  | v :: t => t.length + b2n (decide (s.sys.genSeq < v.gen))

/-- Entries of the version table in use, of the key, group, flow and list tables (R230). -/
def State.versionsUsed (s : State) : Nat :=
  (s.store.filter fun x => decide (x.1 / 2 ^ 23 ≤ tList)).foldl
    (fun n x => n + s.versionsOf x.2) 0

/-- `fresh` more version entries fit: 131,072 in the version table, 65,536 held ones (R133, R230). -/
def State.versionRoom (s : State) (held : Bool) (fresh : Nat) : Bool :=
  decide (s.versionsUsed + fresh ≤ 131072) && (!held || decide (s.heldCount + fresh ≤ 65536))

/-- The pending generation becomes current (R66): held versions in it are held no longer. -/
def State.switchGen (s : State) : State :=
  let s := { s with
    sys := { s.sys with
      genSeq := s.sys.genSeq + 1, unheldAny := false, unheld := [], noAuto := false, switchDue := false, switchAuto := false,
      stall := 0, stallTold := false }
    store := s.store.map fun (p : Nat × List Ver) => (p.1, p.2.map fun (v : Ver) => { v with held := false }) }
  (s.setReg .SYS_GEN_STALL_TICKS 0 0).tally1 0 3 0

/-- A command ends OK with the placement of flow `f` and generation `g` as its result; the entry reports the placement in force
when it is posted (R135). -/
def State.completePlace (s : State) (id f g : Nat) : State := s.completeWith id ⟨stOK, 0, false, s.flowResult f g, some f⟩

/-- Updates that a switch has made current complete, with the flow whose placement they report (R97). -/
def State.inForce (s : State) (ids : List (Nat × Option Nat)) : State :=
  ids.foldl (fun (s : State) p => match p.2 with
    | some f => s.completePlace p.1 f s.sys.genSeq
    | none => s.complete p.1 stOK []) s

/-- The registration of table `t` is held by function `f` (R108, R126). -/
def State.registered (s : State) (t f : Nat) : Bool := tget 0 s.hst.shadowOwner t == f + 1

/-- Entries of the registration of table `t` by function `f` (R107). -/
def State.shadowEntries (s : State) (t f : Nat) : Nat := s.reg .HST_SHADOW_CTRL_ENTRIES (f * 7 + t)

/-! ### XO time (R19, R432) -/

def State.dpll (s : State) (d : Nat) : Dpll := tget Dpll.start s.ref.dplls d

/-- XO time in a span of CORE cycles, whose frequency lies the control value of DPLL0 above the XO's. -/
def State.xoSpan (s : State) (cycles : Nat) : Nat := (cycles * (256 * 10 ^ 15 - (s.dpll 0).ctl) / 1600).toNat

/-- XO time now: 256 × 10^12 is a nanosecond. -/
def State.xoNow (s : State) : Nat := s.ref.xo + s.xoSpan s.clk.cycle

end Machine
end Sys2Proof
end

