-- ==== Sys2Proof/Machine/Sampler.lean ====
section
/-!
DEFINITION. The precise samplers (R562-R566): candidates, selections and records.
-/
namespace Sys2Proof
namespace Machine

/-- The gap to the next selection: 2^LOG2 candidates, and with JITTER a random part of a quarter of them (R562). The
random part is a free value (log entry 5). -/
def sampGap (s : State) (k : Nat) : Nat :=
  let n := 2 ^ s.reg .OBS_SAMP_CFG_LOG2 k
  if s.flag .OBS_SAMP_CFG_JITTER k ∧ 4 ≤ n then n - 1 + Config.freeJitter s.freeCtr % (n / 4) else n - 1

/-- A candidate that passes the filter of sampler `k`: the SEQ under which it is selected, if it is (R562, R563). -/
def State.sampCandidate (s : State) (k : Nat) (pass : Bool) : State × Option Nat :=
  if !s.flag .OBS_SAMP_CFG_EN k ∨ !pass then (s, none)
  else
    let left := tget 0 s.obs.sampLeft k
    if left ≠ 0 then ({ s with obs := { s.obs with sampLeft := tset 0 k (left - 1) s.obs.sampLeft } }, none)
    else
      let seq := tget 0 s.obs.sampSeq k
      let s := { s with obs := { s.obs with
        sampLeft := tset 0 k (sampGap s k) s.obs.sampLeft, sampSeq := tset 0 k ((seq + 1) % 2 ^ 32) s.obs.sampSeq } }
      let s := (s.wrapReg .OBS_SAMP_TAKEN_COUNT k 1).fresh
      if k = 0 ∧ 16 ≤ s.obs.following then (s.wrapReg .OBS_SAMP_SKIP_BUSY_COUNT k 1, none)
      else ((if k = 0 then { s with obs := { s.obs with following := s.obs.following + 1 } } else s), some seq)

/-- The function filter of sampler 1 (OBS_SAMPs_FILTER). -/
def State.sampCmdPass (s : State) (fn : Nat) : Bool :=
  !s.flag .OBS_SAMP_FILTER_PORT_EN 1 || s.reg .OBS_SAMP_FILTER_PORT 1 % 16 == fn

/-- The port and class filters of sampler 0. -/
def State.sampFramePass (s : State) (port cls : Nat) : Bool :=
  (!s.flag .OBS_SAMP_FILTER_PORT_EN 0 || s.reg .OBS_SAMP_FILTER_PORT 0 == port) &&
    (!s.flag .OBS_SAMP_FILTER_CLASS_EN 0 || s.reg .OBS_SAMP_FILTER_CLASS 0 == cls)

end Machine
end Sys2Proof
end

