-- ==== Sys2Proof/Machine/Commands.lean ====
section
/-!
DEFINITION. What every Igzozel command shares (ch. 03, ch. 04): the fetch of its descriptor, the ordered checks of R124,
the start of a long operation and its end.
-/
namespace Sys2Proof
namespace Machine

/-- The permission bit of HST_VFn_PERM that lets a VF issue an opcode (R122): 5 always, none PF only. -/
def vfPerm (opc : Nat) : Option Nat :=
  if opc = 0x01 ∨ opc = 0xA0 ∨ opc = 0xA1 ∨ opc = 0xA2 then some 5
  else if opc = 0x02 then some 1
  else if opc = 0x10 ∨ opc = 0x11 ∨ opc = 0x12 ∨ opc = 0x13 ∨ opc = 0x14 ∨ opc = 0x15 then some 0
  else if opc = 0x60 then some 3
  else if opc = 0x70 then some 4
  else if opc = 0xC0 then some 2
  else none

/-- The function may issue the opcode (R122, R125, R127). -/
def State.mayIssue (s : State) (fn opc : Nat) : Bool :=
  fn == 0 || match vfPerm opc with
    | some 5 => true
    | some 4 => s.flag .HST_VF_PERM_CAIRN fn
    | some 3 => s.flag .HST_VF_PERM_CHK fn
    | some 2 => s.flag .HST_VF_PERM_INJECT fn
    | some 1 => s.flag .HST_VF_PERM_COMMIT fn
    | some _ => s.flag .HST_VF_PERM_TABLES fn
    | none => false

/-- Opcodes refused on the pair standby (R122, R128). -/
def standbyRefused (opc : Nat) : Bool := opc == 0x32 || opc == 0x40 || opc == 0x41 || opc == 0x51

/-- The unit is the pair standby: its pair unit is not OFF and its role is not active (R128, R493). -/
def State.standby (s : State) : Bool := s.reg .PAIR_STATUS_STATE != 0 && !s.flag .PAIR_STATUS_ROLE

/-- HOLD is valid for table updates only (R123). -/
def holdValid (opc : Nat) : Bool := opc == 0x10 || opc == 0x11 || opc == 0x12 || opc == 0x13 || opc == 0x14

/-- VALID_NS had passed at the fetch (R91): wrap ns minus VALID_NS, signed, is greater than 0. -/
def validPassed (fetchNs v : Nat) : Bool :=
  v != 0 && decide (0 < sgn 32 (fetchNs + 2 ^ 32 - v % 2 ^ 32))

/-- What an opcode's own section adds to the checks of R124. -/
structure Checks where
  badField : Bool := false
  noShadow : Bool := false
  own : Option Nat := none
  noRoom : Bool := false
  updates : Nat := 0
  /-- what R382 refuses, when `own` is a refusal under it (E145) -/
  compat : Nat := 0
  /-- NO_ROOM because the version table is full (R230) -/
  versFull : Bool := false
  /-- HW_FAULT because the shadow entry at this host address could not be read (R120) -/
  dmaAddr : Nat := 0

/-- The checks of R124 that hang on the fetch alone: BAD_OPCODE and TICK_PAST (R91, R125, R127). -/
def State.earlyChecks (s : State) (h : Hdr) (opc fetchNs : Nat) : Option Nat :=
  if !s.mayIssue h.fn opc then some stBADOPCODE
  else if validPassed fetchNs h.validNs then some stTICKPAST
  else none

/-- The checks of R124 behind those, in their order (log entry 152). -/
def State.laterChecks (s : State) (h : Hdr) (opc : Nat) (c : Checks) : Option Nat :=
  if h.rsvd || (h.hold && !holdValid opc) || c.badField then some stBADFIELD
  else if s.standby && standbyRefused opc then some stNOTOWNER
  else if s.flag .SYS_STATUS_PLAYA && opc != 0x01 && opc != 0xB0 && opc != 0x70 then some stFROZEN
  else if c.noShadow then some stNOSHADOW
  else match c.own with
    | some st => some st
    | none =>
      if c.noRoom then some stNOROOM
      else if s.sys.budget < c.updates then some stBUDGET
      else none

/-- The checks at acceptance in the order of R124; none: accepted. -/
def State.acceptance (s : State) (h : Hdr) (opc fetchNs : Nat) (c : Checks) : Option Nat :=
  (s.earlyChecks h opc fetchNs).or (s.laterChecks h opc c)

/-- A refusal with BUDGET is reported by E249, by function (R53, R75). -/
def State.budgetRefused (s : State) (fn upd : Nat) : State :=
  let r := tupd 0 fn (satAdd 15 · 1) s.sys.refused
  let s := { s with sys := { s.sys with refused := r, refusedUpd := s.sys.refusedUpd + upd } }
  let d := le 8 ((List.range 16).foldl (fun a f => a + tget 0 r f * 16 ^ f) 0) ++ le 4 s.sys.refusedUpd
  (s.raiseBy 249 1 (padTo 16 d) (fun _ n => n) none).tally1 0 5 0

/-- A command as its row of the table gives it: opcode, own checks, and its work when they pass (with its id). -/
structure Spec where
  opc : Nat
  chk : State → Checks
  work : Nat → State → State

/-- The descriptor can be fetched from its ring (R86, R88, R93, R100): the function runs and is not quiesced, the ring is
enabled and not stopped, and no completion of the ring waits for a full completion ring. -/
def State.cqRoom (s : State) (k : Nat) : Bool :=
  s.flag .HST_CQ_CTRL_EN k && s.reg .HST_CQ_STATUS_ERR k == 0 &&
    (s.reg .HST_CQ_STATUS_INDEX k + 1) % 2 ^ s.reg .HST_CQ_CTRL_LOG2_SIZE k != tget 0 s.hst.cqHead k

/-- A descriptor waits in the ring and nothing holds it back but its turn. -/
def State.sqPending (s : State) (fn sq : Nat) : Bool :=
  let k := ring fn sq
  s.flag .HST_FN_CTRL_RUN fn && !s.flag .HST_FN_CTRL_QUIESCE fn && s.flag .HST_SQ_CTRL_EN k &&
    s.reg .HST_SQ_STATUS_ERR k == 0 && s.reg .HST_SQ_STATUS_INDEX k != tget 0 s.hst.sqTail k &&
    (s.hst.cmds ++ s.hst.finals).all fun c => !(c.fn == fn && c.sq == sq && c.res.isSome && !s.cqRoom (ring fn c.cq))

/-- The ring that the function fetches from next (R93): the one whose turn of up to 8 descriptors runs, else the next one in
ascending order, after the last one served, in which a descriptor waits. -/
def State.dueRing (s : State) (fn : Nat) : Option Nat :=
  let t := tget (0, 0) s.hst.turn fn
  if 0 < t.1 ∧ t.2 < 8 ∧ s.sqPending fn (t.1 - 1) then some (t.1 - 1)
  else ((List.range 256).map fun i => (t.1 + i) % 256).find? fun n => s.sqPending fn n

def State.fetchable (s : State) (fn sq : Nat) : Bool := s.sqPending fn sq && s.dueRing fn == some sq

/-- The ring's turn after a fetch from it. -/
def State.nextTurn (s : State) (fn sq : Nat) : Nat × Nat :=
  let t := tget (0, 0) s.hst.turn fn
  (sq + 1, if t.1 = sq + 1 ∧ t.2 < 8 then t.2 + 1 else 1)

/-- The completion ring a descriptor names can receive completions (R92). -/
def State.cqUsable (s : State) (fn cq : Nat) : Bool :=
  s.flag .HST_CQ_CTRL_EN (ring fn cq) && !s.flag .HST_CQ_CTRL_PUNT (ring fn cq)

/-- Stop a submission ring with ERR, reported by E244 (R88, R92). -/
def State.stopSq (s : State) (fn n err : Nat) : State :=
  (s.setReg .HST_SQ_STATUS_ERR (ring fn n) err).evFn 244 fn [(2, fn), (2, n), (1, err)]

/-- Fetch one descriptor (R93): the head advances, and the fetch budget of the function is charged. -/
def State.fetch (s : State) (h : Hdr) (opc : Nat) : State :=
  let k := ring h.fn h.sq
  let head := s.reg .HST_SQ_STATUS_INDEX k
  let next := (head + 1) % 2 ^ s.reg .HST_SQ_CTRL_LOG2_SIZE k
  let (s, samp) := s.sampCandidate 1 (s.sampCmdPass h.fn)
  let c : Cmd := ⟨s.hst.nextId, h.fn, h.sq, h.cq, h.tag, opc, h.quiet, next,
    s.reg .HST_SQ_BASE_ADDR k * 4096 + 64 * head, s.wrapNs, samp, none⟩
  let s := { s with hst := { s.hst with
    nextId := s.hst.nextId + 1, cmds := s.hst.cmds ++ [c], fetched := tupd 0 h.fn (· + 1) s.hst.fetched
    turn := tset (0, 0) h.fn (s.nextTurn h.fn h.sq) s.hst.turn } }
  ((s.setReg .HST_SQ_STATUS_INDEX k next).setReg .HST_FN_STATUS_QUIET h.fn 0).tally 1 1 1 0 0 h.fn 1

/-- Descriptors one function may fetch in a tick (R52). -/
def fetchBudget : Nat := 64

/-- An earlier command of the ring has not completed, or an earlier long operation of it has not ended (R94). -/
def State.ringBusy (s : State) (fn sq id : Nat) : Bool :=
  (s.hst.cmds.any fun c => c.fn == fn && c.sq == sq && decide (c.id < id)) ||
    (s.hst.finals.any fun c => c.fn == fn && c.sq == sq) ||
    (s.hst.ops.any fun p => p.2.fn == fn && p.2.sq == sq && decide (1 ≤ p.2.state ∧ p.2.state ≤ 3))

/-- A read of host memory by the device failed or was poisoned (R96, R120): what 1 doorbell, 2 descriptor, 3 shadow,
4 inject buffer. AER reports it (R77). -/
def State.dmaError (s : State) (fn addr what : Nat) : State :=
  ((({ s with hst := { s.hst with aer := tset 0 fn 1 s.hst.aer } } : State).hwSet .HST_FN_STATUS_DMA_ERR fn 1).evFn 243 fn [(2, fn), (8, addr), (1, what)]).tally 1 9 1 0 0 fn 1

/-- Start a fetched command: `early` is what the checks at its fetch gave; the later checks of R124, then its work. -/
def State.begin (s : State) (h : Hdr) (sp : Spec) (id : Nat) (early : Option Nat) : State :=
  let c := sp.chk s
  match early.or (s.laterChecks h sp.opc c) with
  | some st =>
    let s := if st = stBUDGET then s.budgetRefused h.fn c.updates else s
    let s := if st = stTICKPAST then s.tally1 0 6 0 else s
    let s := if st = stNOROOM ∧ c.versFull then s.ev 53 [(4, s.versionsUsed), (4, s.heldCount)] else s
    let s := if st = stHWFAULT then s.dmaError h.fn c.dmaAddr 3 else s
    let told := c.compat != 0 && c.own == some st && (st == stSTEPSPENT || st == stBADFIELD) &&
      !(h.rsvd || (h.hold && !holdValid sp.opc) || c.badField)
    let s := s.evIf told 145 [(1, c.compat)]
    s.complete id st []
  | none => sp.work id { s with sys := { s.sys with budget := s.sys.budget - c.updates } }

/-- The header of a waiting command's ring. -/
def sameRing (w : Waiting) (fn sq : Nat) : Bool := w.fn == fn && w.sq == sq

/-- A descriptor comes up (R52, R92-R96): it is fetched when it can be, and starts unless it arrives outside command
execution (R48), or a fence or an earlier waiting command of its ring holds it back. -/
def State.present (s : State) (h : Hdr) (i : Instr) (sp : Spec) : State :=
  if !s.fetchable h.fn h.sq then s
  else if !s.cqUsable h.fn h.cq then s.stopSq h.fn h.sq 2
  else if fetchBudget ≤ tget 0 s.hst.fetched h.fn then s
  else
    let id := s.hst.nextId
    let s := s.fetch h sp.opc
    let early := s.earlyChecks h sp.opc s.wrapNs
    if !s.execWindow ∨ s.hst.waiting.any (sameRing · h.fn h.sq) ∨ (h.fence ∧ s.ringBusy h.fn h.sq id) then
      { s with hst := { s.hst with waiting := s.hst.waiting ++ [⟨i, h.fn, h.sq, id, early⟩] } }
    else s.begin h sp id early

/-- A row of the opcode table whose command `i` has header `h` and specification `sp`. -/
def State.issue (s : State) (h : Hdr) (i : Instr) (sp : Spec) : Res := run (fun s => s.present h i sp) s

/-! ### Long operations (R115, R116) -/

def State.op (s : State) (slot : Nat) : LongOp := tget LongOp.free s.hst.ops slot
def State.setOp (s : State) (slot : Nat) (o : LongOp) : State :=
  { s with hst := { s.hst with ops := tset LongOp.free slot o s.hst.ops } }

/-- The operation holds its slot. -/
def LongOp.live (o : LongOp) : Bool := decide (1 ≤ o.state ∧ o.state ≤ 3)

/-- Slots a function holds. -/
def State.opsOf (s : State) (fn : Nat) : Nat := (s.hst.ops.filter fun p => p.2.live && p.2.fn == fn).length

/-- A free slot, unless the function already holds 8 (R115); of several the lowest (DESIGN CHOICE, log entry 151). -/
def State.freeSlot (s : State) (fn : Nat) : Option Nat :=
  if 8 ≤ s.opsOf fn then none else (List.range 32).find? fun k => !(s.op k).live

/-- The handle of slot `k` (R115). -/
def opHandle (k : Nat) (o : LongOp) : Nat := k + o.fn * 32 + o.serial % 2 ^ 23 * 512

/-- HST_OPs_STATE and HST_FN_STATUS.LONG_OPS follow the slots (R652, R83). -/
def State.showOp (s : State) (k : Nat) : State :=
  let o := s.op k
  (s.setRegs [(.HST_OP_STATE_STATE, k, o.state), (.HST_OP_STATE_FUNC, k, o.fn), (.HST_OP_STATE_SERIAL, k, o.serial),
    (.HST_OP_STATE_OPCODE, k, o.opcode)]).setReg .HST_FN_STATUS_LONG_OPS o.fn (s.opsOf o.fn)

/-- Slot `k` takes an operation in state ACCEPTED under its next serial number, and its command is answered LONG_ACCEPTED
with the handle (R115). -/
def State.acceptOp (s : State) (h : Hdr) (id opc : Nat) (args : List Nat) (k : Nat) : State :=
  let c := s.hst.cmds.find? fun c => c.id == id
  let o : LongOp := { LongOp.free with
    state := 1, fn := h.fn, sq := h.sq, cq := h.cq, tag := h.tag, opcode := opc, serial := (s.op k).serial + 1,
    hold := h.hold, args := args, addr := (c.map Cmd.addr).getD 0, fetchNs := (c.map Cmd.fetchNs).getD 0,
    samp := c.bind Cmd.samp, silent := c.isNone, sqHead := (c.map Cmd.sqHead).getD 0 }
  let s := (s.setOp k o).showOp k
  { s with hst := { s.hst with cmds := s.hst.cmds.map fun c =>
    if c.id = id then { c with samp := none, res := some ⟨stLONG, opHandle k o, false, [], none⟩ } else c } }

/-- Accept a long operation (R115): LONG_ACCEPTED at once, always posted; `first` is what acceptance itself starts. -/
def State.startOp (s : State) (h : Hdr) (id opc : Nat) (args : List Nat) (first : Nat → State → State) : State :=
  match s.freeSlot h.fn with
  | none => s.complete id stNOROOM []
  | some k => first k (s.acceptOp h id opc args k)

/-- The work of the operation in slot `k` has ended with a status and a result (R116); its final completion is posted by
LONG_OP_DONE. -/
def State.endOp (s : State) (k st : Nat) (result : List Nat) : State :=
  let o := s.op k
  if o.live then s.setOp k { o with ended := some st, result := result } else s

/-- The requests that wait for an operation complete OK (R117), behind its final completion: their handle says which. -/
def State.endRequests (s : State) (o : LongOp) (handle : Nat) : State :=
  o.reqs.foldl (fun (s : State) q => s.completeWith q.2 ⟨stOK, handle, false, [], none⟩) s

/-- Free the slot in end state `e` (4 DONE, 5 CANCELLED, 6 FAILED) and let the final completion fall due (R116); after an
FLR none is posted (R118). -/
def State.finishOp (s : State) (k e st : Nat) (result : List Nat) : State :=
  let o := s.op k
  let s := (s.setOp k { o with state := e, ended := none, reqs := [] }).showOp k
  let s :=
    if o.silent then s
    else
      let c : Cmd := ⟨s.hst.nextId, o.fn, o.sq, o.cq, o.tag, o.opcode, false, o.sqHead,
        o.addr, o.fetchNs, o.samp, some ⟨st, opHandle k o, true, result, none⟩⟩
      { s with hst := { s.hst with nextId := s.hst.nextId + 1, finals := s.hst.finals ++ [c] } }
  s.endRequests o (opHandle k o)

end Machine
end Sys2Proof
end

