-- ==== Sys2Proof/Machine/Check.lean ====
section
/-!
DEFINITION. Check units (ch. 17): values, alive contexts, the queue of each unit, and the commands that queue a job.
-/
namespace Sys2Proof
namespace Machine

/-- The check value of unit `n` over a stream (R510). -/
def State.chkValue (s : State) (n : Nat) (d : List Nat) : Nat :=
  let w := s.reg .CHK_UNIT_CFG_WIDTH n
  checkValue w (s.reg .CHK_UNIT_POLY_POLY n) (s.reg .CHK_UNIT_INIT_INIT n) (s.flag .CHK_UNIT_CFG_REFIN n)
    (s.flag .CHK_UNIT_CFG_REFOUT n) (s.flag .CHK_UNIT_CFG_FINAL_INV n) d

/-! ### Alive contexts (R515, R516) -/

/-- The count of context `k` of unit `n`. -/
def State.alive (s : State) (n k : Nat) : Nat := s.reg .CHK_UNIT_ALIVE_COUNT (4 * n + k / 4) / 256 ^ (k % 4) % 256

def State.setAlive (s : State) (n k v : Nat) : State :=
  let i := 4 * n + k / 4
  let lo := 8 * (k % 4)
  let s := s.setReg .CHK_UNIT_ALIVE_COUNT i (setBits (s.reg .CHK_UNIT_ALIVE_COUNT i) (lo + 7) lo v)
  { s with chk := { s.chk with seen := tupd 0 n (· ||| 2 ^ k) s.chk.seen } }

/-- A transmit job takes the next count (R515). -/
def State.takeAlive (s : State) (n k : Nat) : State × Nat :=
  let a := (s.alive n k + 1) % 256
  (s.setAlive n k a, a)

/-- A context goes back to its state after reset (R516). -/
def State.clearAlive (s : State) (n k : Nat) : State :=
  let s := s.setAlive n k 0
  { s with chk := { s.chk with seen := tset 0 n (s.chk.seen |> fun t => setBits (tget 0 t n) k k 0) s.chk.seen } }

/-- `k` of item `item` in the counters of unit `n` and in those of class `cls` (R521). -/
def State.chkTally (s : State) (item n cls k : Nat) : State := (s.tally 4 item 1 0 0 n k).tally 4 item 1 0 1 cls k

/-- A job of class `cls` over `len` bytes has completed (R521). -/
def State.jobCounted (s : State) (n cls len : Nat) : State := (s.chkTally 1 n cls 1).chkTally 2 n cls len

/-- The verdict on a value that a job of class 2 received (R516): 1 NEXT, 2 REPEAT, 3 SKIP, 4 MISMATCH. -/
def State.judgeAlive (s : State) (n k : Nat) (good : Bool) (a : Nat) : State × Nat :=
  if !good then (s.chkTally 8 n 2 1, 4)
  else
    let c := s.alive n k
    if !bit (tget 0 s.chk.seen n) k ∨ a = (c + 1) % 256 then ((s.setAlive n k a).chkTally 5 n 2 1, 1)
    else if a = c then
      ((s.evT 217 [(2, 2 ^ n, .or), (4, 0, .sum), (4, 1, .sum), (2, k, .low)]).chkTally 6 n 2 1, 2)
    else
      let skip := (a + 512 - c - 1) % 256
      let s := ((s.setAlive n k a).hwCount .CHK_UNIT_SKIPPED_COUNT n skip).evT 217
        [(2, 2 ^ n, .or), (4, 1, .sum), (4, 0, .sum), (2, k, .low)]
      ((s.chkTally 7 n 2 1).chkTally 9 n 2 skip, 3)

/-! ### Queues (R513) -/

def State.jobOf (s : State) (n : Nat) : Option Job := tget none s.chk.running n
def State.jobsOf (s : State) (n : Nat) : List Job := tget [] s.chk.queue n

/-- STATUS follows the running job and the queue. -/
def State.showUnit (s : State) (n : Nat) : State :=
  let s := s.setReg .CHK_UNIT_STATUS_QUEUED n (min 255 (s.jobsOf n).length)
  match s.jobOf n with
  | none => s.setReg .CHK_UNIT_STATUS_BUSY n 0
  | some j => s.setRegs [(.CHK_UNIT_STATUS_BUSY, n, 1), (.CHK_UNIT_STATUS_CTX, n, j.ctx),
      (.CHK_UNIT_STATUS_USER, n, match j.use with | .selfTest => 6 | _ => j.cls)]

/-- Start a job on an idle unit. -/
def State.runJob (s : State) (n : Nat) (j : Job) : State :=
  ({ s with chk := { s.chk with running := tset none n (some { j with begun := s.coreCycle }) s.chk.running } }).showUnit n

/-- The first waiting job of the lowest class. -/
def nextJob (l : List Job) : Option Job :=
  (List.range 6).findSome? fun c => l.find? fun j => j.cls == c

/-- A waiting job can start: not that of a CHK_RUN suspended before its stream starts (R518). -/
def State.canStart (s : State) (j : Job) : Bool :=
  match j.use with
  | .run k => (s.op k).state != 3
  | _ => true

/-- The unit is free: it starts the waiting job of the lowest class, in arrival order (R513). -/
def State.nextOnUnit (s : State) (n : Nat) : State :=
  let s := { s with chk := { s.chk with running := tdel n s.chk.running } }
  match nextJob ((s.jobsOf n).filter s.canStart) with
  | none => s.showUnit n
  | some j => ({ s with chk := { s.chk with queue := tset [] n ((s.jobsOf n).erase j) s.chk.queue } }).runJob n j

/-- A job arrives at a unit. Of the jobs that arrive at an idle unit in one CORE cycle, that of the lowest class starts; an
audit never waits (R513, R514). -/
def State.queueJob (s : State) (n cls ctx : Nat) (use : JobUse) : State :=
  let j : Job := ⟨cls, ctx, use, s.clk.tickCount, false, 0, false⟩
  let queued (l : List Job) : State := { s with chk := { s.chk with queue := tset [] n l s.chk.queue } }
  match s.jobOf n with
  | none => s.runJob n { j with raced := true }
  | some r =>
    if r.raced ∧ r.begun = s.coreCycle ∧ cls < r.cls ∧ r.use ≠ .audit then
      (queued ({ r with raced := false } :: s.jobsOf n)).runJob n { j with raced := true }
    else (queued (s.jobsOf n ++ [j])).showUnit n

/-- The unit is idle and no job waits (R514). -/
def State.unitFree (s : State) (n : Nat) : Bool := (s.jobOf n).isNone && (s.jobsOf n).isEmpty

/-- A job has waited WAIT_WARN ticks (R519, E218). -/
def doChkWait (n : Nat) (s : State) : State :=
  let lim := s.reg .CHK_CFG_WAIT_WARN
  if lim = 0 then s
  else match (s.jobsOf n).find? fun j => !j.warned && decide (lim ≤ s.clk.tickCount - j.since) with
    | none => s
    | some j =>
      let s := { s with chk := { s.chk with
        queue := tset [] n ((s.jobsOf n).map fun k => if k = j then { k with warned := true } else k) s.chk.queue } }
      s.ev 218 [(2, n), (1, j.cls), (1, ((s.jobOf n).map Job.cls).getD 0)]

def execChkWait (n : Nat) (s : State) : Res := run (doChkWait n) s

/-- The test string of a self-test: "123456789" (R519). -/
def testString : List Nat := [0x31, 0x32, 0x33, 0x34, 0x35, 0x36, 0x37, 0x38, 0x39]

/-- CHK_UNITn_TEST with GO: a class 5 job over the test string (R519). -/
def doSelfTest (n : Nat) (s : State) : State :=
  if 16 ≤ n then s else (s.setReg .CHK_UNIT_TEST_DONE n 0).queueJob n 5 15 .selfTest

def execSelfTest (n : Nat) (s : State) : Res := run (doSelfTest n) s

/-- CHK_UNITn_CLEAR: the contexts of the bits written go back to their reset state (R516, R519). -/
def doAliveClear (n ctx : Nat) (s : State) : State :=
  if 16 ≤ n then s
  else ((List.range 16).filter fun k => bit ctx k).foldl (fun (s : State) k => s.clearAlive n k) s

def execAliveClear (n ctx : Nat) (s : State) : Res := run (doAliveClear n ctx) s

/-- The unit a CHK_RUN is bound to (R517). -/
def State.bindUnit (s : State) (u : Nat) : Nat :=
  if u < 16 then u
  else
    let pool := (List.range 16).filter fun n => s.flag .CHK_UNIT_CFG_POOL n
    match pool.find? fun n => s.unitFree n with
    | some n => n
    | none => pool.foldl (fun a n => if (s.jobsOf n).length < (s.jobsOf a).length then n else a) (pool.headD 0)

/-- CHK_RUN (R146, R517): a long operation whose job waits on its unit. UNIT 0xFF with no unit of the pool is NO_ROOM (DESIGN
CHOICE, log entry 173). -/
def specChkRun (h : Hdr) (u addr len : Nat) : Spec :=
  { opc := 0x60
    chk := fun s =>
      { badField := (decide (15 < u) && u != 0xFF) || len == 0 || decide (2 ^ 32 ≤ len)
        noRoom := (s.freeSlot h.fn).isNone ||
          (u == 0xFF && (List.range 16).all fun n => !s.flag .CHK_UNIT_CFG_POOL n) }
    work := fun id s =>
      let n := s.bindUnit u
      s.startOp h id 0x60 [n, addr, len] fun slot s => s.queueJob n 5 15 (.run slot) }

def execChkRun (h : Hdr) (u addr len : Nat) (s : State) : Res := s.issue h (.chkRun h u addr len) (specChkRun h u addr len)

end Machine
end Sys2Proof
end

