-- ==== Sys2Proof/Machine/Cairn.lean ====
section
/-!
DEFINITION. The Cairn event recorder (R569-R581).
-/
namespace Sys2Proof
namespace Machine

/-! ### Records (R570, R571) -/

/-- First event number of each EVT group of R571, and the end. -/
def evtGroups : List Nat := [0, 32, 48, 80, 96, 112, 128, 144, 160, 176, 192, 200, 216, 232, 240, 248, 256]

/-- Occurrences of group `g`. -/
def Cairn.group (c : Cairn) (g : Nat) : Nat :=
  min 0xFFFF ((c.evt.filter fun x => decide (evtGroups.getD g 0 ≤ x.1) && decide (x.1 < evtGroups.getD (g + 1) 0)).foldl (fun n x => n + x.2) 0)

/-- Bytes 4 to 119 of a record of the interval so far. -/
def State.figBytes (s : State) (ty : Nat) (short : Bool) (reason failed ticks : Nat) : List Nat :=
  let c := s.cairn
  let f := c.figs
  let playa := s.flag .SYS_STATUS_PLAYA
  let o (v : Nat) := if playa then 0 else v
  let temp (t : Option Int) := le 2 (unsgn 16 (t.getD 0))
  [ty, b2n short + 2 * o (b2n f.step) + 4 * o (b2n f.untrace) + 8 * b2n playa, reason % 256, failed] ++ le 4 (min (2 ^ 32 - 1) ticks) ++
    temp f.tempMax ++ temp f.tempMin ++ (List.range 16).flatMap (fun g => le 2 (c.group g)) ++
    (List.range 3).flatMap (fun k => le 2 (min 0xFFFF (tget 0 c.sevCnt (2 + k)))) ++ [0, 0] ++
    (List.range 4).flatMap (fun p => le 4 (o (unsgn 32 (satS 32 ((tget none f.poolMin p).getD 0))))) ++
    (List.range 8).flatMap (fun b => le 3 (o (tget 0 f.resHist b))) ++ le 3 (o (min 0xFFFFFF f.dpllOff)) ++ [o f.dpllSeen] ++
    le 4 (o (min (2 ^ 32 - 1) f.phaseMax)) ++ le 2 (o (min 0xFFFF f.holdMax)) ++ [o (f.meritMin.getD 0)] ++ [o (min 255 (tget 0 c.evt 2))] ++
    le 2 (o (min 0xFFFF f.hbMiss)) ++ [o (min 255 f.roleChg)] ++ [o f.pairSeen] ++ le 2 (o f.seifMax) ++
    le 2 (o (s.reg .SEIF_ITM_CAL_RESID)) ++ le 4 (min (2 ^ 32 - 1) f.guard)

/-- The figures start afresh. -/
def State.figsClear (s : State) : State := { s with cairn := { s.cairn with figs := Figs.zero, evt := [], sevCnt := [] } }

/-- A record takes the next SEQ and waits for its check unit (R572, R573). -/
def State.cairnNumber (s : State) (body : List Nat) : State :=
  let q := s.reg .OBS_CAIRN_NEXT_SEQ_SEQ
  (s.setReg .OBS_CAIRN_NEXT_SEQ_SEQ 0 (q + 1)).queueJob (s.reg .CHK_CFG_CAIRN_UNIT) 3 1 (.cairn (le 4 q ++ body) true)

/-- The records of intervals that have closed go first. -/
def State.cairnFlush (s : State) : State :=
  s.cairn.due.foldl (fun (s : State) b => s.cairnNumber b) { s with cairn := { s.cairn with due := [] } }

/-- An ARM record (R576): TICKS gives INTERVAL. -/
def State.cairnArm (s : State) : State :=
  let z := { s with cairn := { s.cairn with figs := Figs.zero, evt := [], sevCnt := [] } }
  s.cairnFlush.cairnNumber (State.figBytes z 3 false 0 0 (s.reg .OBS_CAIRN_CFG_INTERVAL))

/-- A START record while Cairn is armed (R579; log entry 28); its only figure of an interval is the temperature. -/
def State.cairnStart (s : State) : State :=
  if !s.flag .OBS_CAIRN_CTRL_EN then s
  else
    let t := s.sreg .SYS_TEMP_MAX_TEMP
    let z := { s with cairn := { s.cairn with figs := { Figs.zero with tempMax := some t, tempMin := some t }, evt := [], sevCnt := [] } }
    s.cairnFlush.cairnNumber (State.figBytes z 2 false (s.reg .SYS_START_REASON_CAUSE) (s.reg .SYS_START_REASON_COUNT) 0)

/-- MIRROR_BUSY while programming or an erase is pending (R575, R577). -/
def State.showMirror (s : State) : State :=
  s.setReg .OBS_CAIRN_STATUS_MIRROR_BUSY 0 (b2n (!s.cairn.prog.isEmpty || s.cairn.erasing))

/-- A record's check value is ready: it enters its areas (R573-R575). -/
def State.cairnChecked (s : State) (body : List Nat) (first : Bool) (value alive : Nat) : State :=
  let r := padTo 128 (padTo 120 body ++ le 4 value ++ [alive] ++ le 2 s.cairn.boot)
  let slot := ofLE (slice body 0 4) % 4096
  let s := { s with cairn := { s.cairn with last := tins slot r s.cairn.last } }
  let s := s.setReg .OBS_CAIRN_STATUS_LAST_COUNT 0 s.cairn.last.length
  let n := s.cairn.first.length
  if !first ∨ 1024 ≤ n then s
  else
    let s := { s with cairn := { s.cairn with first := s.cairn.first ++ [r], prog := s.cairn.prog ++ [n] } }
    let s := s.setReg .OBS_CAIRN_STATUS_FIRST_COUNT 0 (n + 1)
    let s := if n = 0 then s.setReg .OBS_CAIRN_FIRST_SEQ_SEQ 0 (ofLE (slice body 0 4)) else s
    s.showMirror

/-! ### Rows -/

/-- CAIRN_INTERVAL_CLOSE: records of the intervals that boundaries have closed are written (R569). -/
def doCairnIntervalClose (s : State) : State := s.cairnFlush
def execCairnIntervalClose (s : State) : Res := run doCairnIntervalClose s

/-- CAIRN_ENABLE_WRITE: a write of OBS_CAIRN_CTRL.EN (R569, R576). -/
def doCairnEnableWrite (en : Bool) (s : State) : State :=
  if s.flag .OBS_CAIRN_CTRL_EN = en then s
  else
    let s := s.setReg .OBS_CAIRN_CTRL_EN 0 (b2n en)
    if en then { s with cairn := { s.cairn with armDue := true } }
    else { s with cairn := { s.cairn with armDue := false, shortDue := s.cairn.opened } }

def execCairnEnableWrite (en : Bool) (s : State) : Res := run (doCairnEnableWrite en) s

/-- CAIRN_INTERVAL_WRITE: values outside 1,000 to 10,000,000 read back as the nearer limit (R569, R581). -/
def doCairnIntervalWrite (v : Nat) (s : State) : State :=
  let s := s.setReg .OBS_CAIRN_CFG_INTERVAL 0 (max 1000 (min 10000000 (v % 2 ^ 24)))
  { s with cairn := { s.cairn with shortDue := s.cairn.shortDue || s.cairn.opened } }

def execCairnIntervalWrite (v : Nat) (s : State) : Res := run (doCairnIntervalWrite v) s

/-- CAIRN_MIRROR_PROGRAM_DONE: the oldest record to be programmed is in the mirror, or fails its readback (R575). -/
def doCairnMirrorProgramDone (ok : Bool) (s : State) : State :=
  match s.cairn.prog with
  | [] => s
  | n :: t =>
    if s.cairn.erasing then s
    else
      let r := s.cairn.first.getD n []
      let s := { s with cairn := { s.cairn with prog := t, mirror := if ok then tins n r s.cairn.mirror else s.cairn.mirror } }
      let s := if ok then s.emit (.flash 1 (0x20000 + 128 * n) r) else s.hwSet .OBS_CAIRN_STATUS_MIRROR_ERR 0 1
      s.showMirror

def execCairnMirrorProgramDone (ok : Bool) (s : State) : Res := run (doCairnMirrorProgramDone ok) s

/-- MIRROR_ERASE_DONE (R577). -/
def doMirrorEraseDone (s : State) : State :=
  if s.cairn.erasing then
    (({ s with cairn := { s.cairn with erasing := false, mirror := [] } } : State).emit (.flash 2 0x20000 [])).showMirror
  else s

def execMirrorEraseDone (s : State) : Res := run doMirrorEraseDone s

/-- CAIRN_CLEAR_FIRST (R147, R577). -/
def specCairnClearFirst (confirm : Nat) : Spec :=
  { opc := 0x71
    chk := fun s => { badField := s.cairn.first.isEmpty || confirm != s.reg .OBS_CAIRN_FIRST_SEQ_SEQ }
    work := fun id s => { s with cairn := { s.cairn with clears := s.cairn.clears ++ [id] } } }

def execCairnClearFirst (h : Hdr) (confirm : Nat) (s : State) : Res := s.issue h (.cairnClearFirst h confirm) (specCairnClearFirst confirm)

/-! ### Export (R580) -/

/-- The record of SEQ `q` in an area: 0 first, 1 last. Restored slots of TYPE 0 hold none. -/
def State.cairnFind (s : State) (area q : Nat) : Option (List Nat) :=
  let is (r : List Nat) : Bool := r.getD 4 0 != 0 && ofLE (slice r 0 4) == q
  if area = 0 then s.cairn.first.find? is
  else
    let r := tget [] s.cairn.last (q % 4096)
    if is r then some r else none

/-- CAIRN_EXPORT; its arguments are AREA, COUNT and ADDR. -/
def specCairnExport (h : Hdr) (area seq count addr len : Nat) : Spec :=
  { opc := 0x70
    chk := fun s =>
      { badField := decide (1 < area) || addr % 128 != 0 || decide (len < 128 * count) || decide (2 ^ 32 ≤ seq) || (s.cairnFind area seq).isNone
        noRoom := (s.freeSlot h.fn).isNone }
    work := fun id s => s.startOp h id 0x70 [area, count, addr] fun k s => s.setOp k { s.op k with next := seq } }

def execCairnExport (h : Hdr) (area seq count addr len : Nat) (s : State) : Res :=
  s.issue h (.cairnExport h area seq count addr len) (specCairnExport h area seq count addr len)

/-- The final result: records written, the first SEQ not exported, BOOT. -/
def State.exportResult (s : State) (o : LongOp) : List Nat := le 4 o.applied ++ le 4 o.next ++ le 2 s.cairn.boot

/-- Copy up to `n` records. -/
def State.exportStep : Nat → Nat → State → State
  | 0, _, s => s
  | n + 1, k, s =>
    let o := s.op k
    if o.args.getD 1 0 ≤ o.applied then s.endOp k stOK (s.exportResult o)
    else match s.cairnFind (o.args.getD 0 0) o.next with
      | none => s.endOp k stOK (s.exportResult o)
      | some r =>
        let s := s.emit (.hostWrite (o.args.getD 2 0 + 128 * o.applied) r)
        State.exportStep n k (s.setOp k { o with applied := o.applied + 1, next := (o.next + 1) % 2 ^ 32 })

/-- An export whose last record has been copied ends. -/
def State.exportEnd (s : State) (k : Nat) : State :=
  let o := s.op k
  if o.ended.isNone ∧ o.args.getD 1 0 ≤ o.applied then s.endOp k stOK (s.exportResult o) else s

/-! ### The boundary -/

/-- CAIRN_CLEAR_FIRST applies: running exports of the first area end, the area is emptied, and the mirror erased (R577, R580). -/
def State.cairnClear (s : State) : State :=
  if s.cairn.clears = [] then s
  else
    let ids := s.cairn.clears
    -- records of intervals that have closed are not the new record 0
    let s := s.cairnFlush
    let s := s.hst.ops.foldl (fun (s : State) x =>
      if x.2.live ∧ x.2.opcode = 0x70 ∧ x.2.args.getD 0 0 = 0 ∧ x.2.ended.isNone then s.endOp x.1 stOK (s.exportResult x.2) else s) s
    let noFirst (j : Job) : Job := match j.use with
      | .cairn r _ => { j with use := .cairn r false }
      | _ => j
    let s : State := { s with
      cairn := { s.cairn with clears := [], first := [], prog := [], erasing := true }
      chk := { s.chk with
        running := s.chk.running.map fun (x : Nat × Option Job) => (x.1, x.2.map noFirst)
        queue := s.chk.queue.map fun (x : Nat × List Job) => (x.1, x.2.map noFirst) } }
    let s := (s.setReg .OBS_CAIRN_STATUS_FIRST_COUNT 0 0).showMirror
    let s := s.completeAll ids stOK []
    if s.flag .OBS_CAIRN_CTRL_EN ∧ !s.cairn.armDue then s.cairnArm else s

/-- Registers of a field that are listed, as (index, value). -/
def State.listed (s : State) (f : Fld) : List (Nat × Nat) :=
  (s.regs.filter fun x => x.1 / 8192 == f.ctorIdx).map fun x => (x.1 % 8192, x.2)

def optMax (a : Option Int) (v : Int) : Option Int := some (match a with | some x => max x v | none => v)
def optMin (a : Option Int) (v : Int) : Option Int := some (match a with | some x => min x v | none => v)

/-- The figures that are sampled at every boundary (R571). -/
def State.cairnSample (s : State) : State :=
  let t := s.sreg .SYS_TEMP_MAX_TEMP
  let st := s.reg .REF_DPLL_STATUS_STATE 0
  let merits := (s.listed .LN_STATUS_STATE).filterMap fun x => if x.2 = 6 then some (s.reg .LN_STATUS_MERIT x.1) else none
  let top (f : Fld) := (s.listed f).foldl (fun a x => max a x.2) 0
  let s := (List.range 4).foldl (fun (s : State) p => s.figPool p ((s.reg .OAS_POOL_LIMIT_LIMIT p : Int) - s.reg .OAS_POOL_USE_IN_USE p)) s
  s.fig fun f => { f with
    ticks := f.ticks + 1
    untrace := f.untrace || !s.traceable
    tempMax := optMax f.tempMax t, tempMin := optMin f.tempMin t
    dpllOff := f.dpllOff + b2n (st != 2 && st != 3)
    dpllSeen := f.dpllSeen ||| 2 ^ st
    phaseMax := max f.phaseMax (s.sreg .REF_DPLL_PHASE_PS 0).natAbs
    holdMax := max f.holdMax (top .SWC_HOLD_TICKS)
    meritMin := merits.foldl (fun a v => some (match a with | some x => min x v | none => v)) f.meritMin
    pairSeen := f.pairSeen ||| 2 ^ s.reg .PAIR_STATUS_STATE
    seifMax := max f.seifMax (top .SEIF_PORT_RESID_PHASE) }

/-- Cairn's work at a boundary: an interval that is due closes, a clear applies, an arming opens the first interval, the
boundary's figures are taken, and exports copy up to 64 records each (R569, R576, R577, R580). -/
def State.cairnTick (s : State) : State :=
  let en := s.flag .OBS_CAIRN_CTRL_EN
  let c := s.cairn
  let s := if c.opened ∧ (c.shortDue ∨ s.reg .OBS_CAIRN_CFG_INTERVAL ≤ c.figs.ticks) then
      let b := s.figBytes 1 c.shortDue 0 0 c.figs.ticks
      ({ s with cairn := { s.cairn with due := s.cairn.due ++ [b], opened := en && !c.armDue, shortDue := false } } : State).figsClear
    else { s with cairn := { s.cairn with shortDue := false } }
  let s := s.cairnClear
  let s := if en ∧ s.cairn.armDue then
      ({ s.cairnArm with cairn := { s.cairnArm.cairn with armDue := false, opened := true } } : State).figsClear
    else s
  let s := if s.cairn.opened then s.cairnSample else s
  s.hst.ops.foldl (fun (s : State) x =>
    if x.2.live ∧ x.2.state = 2 ∧ x.2.opcode = 0x70 ∧ x.2.ended.isNone then (State.exportStep 64 x.1 s).exportEnd x.1 else s) s

end Machine
end Sys2Proof
end

