-- ==== Sys2Proof/Machine/Lanes.lean ====
section
/-!
DEFINITION. Line lanes (ch. 05): the board table, merit, the bring-up machine of R174, raw mode and bit-slip.
-/
namespace Sys2Proof
namespace Machine

/-- Lane index of the LANE operand of R138's table: 0 to 255, M0 and M1 (256, 257), MY0 and MY1 (258, 259). -/
def laneIndex (lane : Nat) : Option Nat :=
  if lane < 256 then some lane
  else if lane = 0x100 ∨ lane = 0x101 then some (lane - 0x100 + 256)
  else if lane = 0x110 ∨ lane = 0x111 then some (lane - 0x110 + 258)
  else none

def isMywyn (i : Nat) : Bool := decide (258 ≤ i)

def State.lane (s : State) (i : Nat) : Lane := tget Lane.idle s.ln.lanes i
def State.setLane (s : State) (i : Nat) (l : Lane) : State :=
  { s with ln := { s.ln with lanes := tset Lane.idle i l s.ln.lanes } }
def State.laneState (s : State) (i : Nat) : Nat := s.reg .LN_STATUS_STATE i
/-- The lane enters state `st`, and the time in it begins (R174). -/
def State.setLaneState (s : State) (i st : Nat) : State :=
  (s.setLane i { s.lane i with since := s.clk.tickCount }).setReg .LN_STATUS_STATE i st

/-! ### PAM4 levels (R155) -/

/-- Level of a pair of bits by Gray code, first bit as most significant. -/
def grayLevel (hi lo : Bool) : Nat :=
  match hi, lo with | false, false => 0 | false, true => 1 | true, true => 2 | true, false => 3

/-- The pair of bits that a level stands for, first bit first. -/
def grayBits (l : Nat) : List Bool := [decide (2 ≤ l), decide (l = 1 ∨ l = 2)]

/-- The precoder: P(j) := (G(j) − P(j−1)) mod 4, `p` the last symbol sent. -/
def precode (p : Nat) : List Nat → List Nat
  | [] => []
  | g :: t => let q := (g + 4 - p % 4) % 4; q :: precode q t

/-- Its inverse in the receiver: G(j) := (P(j) + P(j−1)) mod 4. -/
def unprecode (p : Nat) : List Nat → List Nat
  | [] => []
  | q :: t => (q + p) % 4 :: unprecode q t

/-- The levels of a string of bits: Gray-coded pairs. -/
def pamLevels : List Bool → List Nat
  | a :: b :: t => grayLevel a b :: pamLevels t
  | _ => []

/-- The number whose bits are `l`, the first bit received as bit 0 (log entry 154). -/
def ofBits : List Bool → Nat
  | [] => 0
  | b :: t => b2n b + 2 * ofBits t

/-! ### The board table (R157-R161) -/

/-- The built-in entry of R160. -/
def builtinEntry : List Nat := [0, 0xF8, 104, 0xF0, 12, 8, 0xFF, 8, 1, 0, 0, 0, 0, 0, 0, 0]

/-- The table's checks (R160): MAGIC, VERSION, the header sizes and TABLE_CRC over its bytes with bytes 60-63 read as 0. -/
def boardOk (t : List Nat) : Bool :=
  let f (i n : Nat) := ofLE (slice t i n)
  f 0 4 == 0x59424C54 && f 4 2 == 1 && f 6 2 == 260 && f 8 2 == 6 && f 10 2 == 16 && f 12 4 == 0x40 &&
    f 16 4 == 0x6200 && f 20 4 == 4096 && f 24 4 == 0x7200 && t.length == 0x7200 &&
    f 60 4 == crc32 (t.take 60 ++ [0, 0, 0, 0] ++ t.drop 64)

/-- The entry of lane index `i` at rung `r` (R157). -/
def State.boardEntry (s : State) (i r : Nat) : List Nat :=
  match s.ln.board with
  | some t => slice t (0x40 + 16 * (6 * i + r)) 16
  | none => builtinEntry

/-- The six entries of lane index `i`: a bring-up takes them when it starts (R161). -/
def State.boardEntries (s : State) (i : Nat) : List (List Nat) := (List.range 6).map (s.boardEntry i)

/-- The entry with which the lane's bring-up runs at rung `r`. -/
def Lane.entryAt (l : Lane) (r : Nat) : List Nat := l.table.getD r []

/-- |PRE2| + |PRE1| + MAIN + |POST1| ≤ 128 and VALID (R159). -/
def entryUsed (e : List Nat) : Bool :=
  let a (k : Nat) := (sgn 8 (e.getD k 0)).natAbs
  bit (e.getD 8 0) 0 && decide (a 0 + a 1 + e.getD 2 0 + a 3 ≤ 128)

/-- The next used rung above `r`, up to `top` (R159, R167). -/
def State.nextRung (s : State) (i r top : Nat) : Option Nat :=
  (List.range (top + 1)).find? fun q => decide (r < q) && entryUsed ((s.lane i).entryAt q)

/-- Minimum merit of a rung (LN_MERIT_MIN). -/
def State.meritMin (s : State) (r : Nat) : Nat := s.reg .LN_MERIT_MIN_MIN / 256 ^ r % 256

/-- Take a board table, or fall back on the built-in entries (R160, R161). -/
def State.loadBoard (s : State) (t : List Nat) : State :=
  if boardOk t then
    let id := ofLE (slice t 28 4)
    let s := { s with ln := { s.ln with board := some t } }
    (s.setRegs [(.LN_TABLE_STATUS_VALID, 0, 1), (.LN_TABLE_STATUS_DEFAULTS, 0, 0), (.LN_TABLE_STATUS_VERSION, 0, 1),
      (.LN_BOARD_ID_ID, 0, id)]).ev 0 [(2, 0), (4, 260), (1, 2), (4, id), (2, 1)]
  else
    let s := { s with ln := { s.ln with board := none } }
    (s.setRegs [(.LN_TABLE_STATUS_VALID, 0, 0), (.LN_TABLE_STATUS_DEFAULTS, 0, 1), (.LN_TABLE_STATUS_CRC_ERR, 0, 1),
      (.LN_TABLE_STATUS_VERSION, 0, 0), (.LN_BOARD_ID_ID, 0, 0)]).ev 0 [(2, 0), (4, 260), (1, 1), (4, 0), (2, 0)]

/-- RELOAD (R161): lanes take the entries at their next bring-up. `table` is what the flash holds. -/
def doReload (table : List Nat) (s : State) : State := (s.loadBoard table)

/-- The row of `doReload`. -/
def execReload (table : List Nat) (s : State) : Res := run (doReload table) s

/-! ### Lanes and their ports (R188-R190) -/

/-- The port that owns lane index `i`: the nearest port at or below it that is not absorbed (R190). -/
def State.portOfLane (s : State) (i : Nat) : Nat :=
  if 256 ≤ i then i
  else (((List.range 8).map (i - ·)).find? fun p => !s.flag .PRT_MODE_ABSORBED p).getD i

/-- A port is to be up: ADMIN_UP is 1, or PRT_MPCFG gives a management port its mode (R173, R183, R210). -/
def State.adminOn (s : State) (p : Nat) : Bool :=
  if p < 256 then s.flag .PRT_MODE_ADMIN_UP p
  else (if p = 256 then s.reg .PRT_MPCFG_MP0 else if p = 257 then s.reg .PRT_MPCFG_MP1 else 0) != 0

/-- Attempts of a bring-up that ADMIN_UP starts, or that LANE_TRAIN leaves to the default. -/
def State.attemptsDefault (s : State) (i : Nat) : Nat :=
  if s.reg .LN_CFG_ATTEMPTS i = 0 then s.reg .LN_LADDER_ATTEMPTS else s.reg .LN_CFG_ATTEMPTS i

/-- A port stops: E033 when it was up (R212). -/
def State.portDown (s : State) (p cause : Nat) : State :=
  if s.flag .PRT_MODE_UP p then
    (s.setRegs [(.PRT_MODE_UP, p, 0), (.PRT_PREEMPT_STATE, p, 0)]).evLow 33 p [(1, cause)]
  else s

/-! ### Seif's directions follow their lane (R412) -/

/-- State of direction `d` (0 receive, 1 transmit) of port `p` in seif. -/
def State.seifState (s : State) (p d : Nat) : Nat :=
  if d = 0 then s.reg .SEIF_PORT_STATUS_RX_STATE p else s.reg .SEIF_PORT_STATUS_TX_STATE p

/-- A direction changes state: E161 (R429). -/
def State.setSeifState (s : State) (p d st : Nat) : State :=
  if s.seifState p d = st then s
  else
    let s := s.setReg (if d = 0 then .SEIF_PORT_STATUS_RX_STATE else .SEIF_PORT_STATUS_TX_STATE) p st
    (s.evObj 161 p 4 fun n => [(2, p), (1, d + 1), (1, st), (4, n)]).tally1 6 3 p

/-- Lane `i` comes up: both directions of the port it is the first lane of start to ACQUIRE (R412). -/
def State.seifLaneUp (s : State) (i : Nat) : State :=
  if i < 256 ∧ !s.flag .PRT_MODE_ABSORBED i then
    let s := { s with seif := { s.seif with dirs := tdel (2 * i) (tdel (2 * i + 1) s.seif.dirs) } }
    let t := s.temp (i / 32)
    (((s.setSeifState i 0 1).setSeifState i 1 1).calMark 1 (2 * i) t).calMark 1 (2 * i + 1) t
  else s

/-- Lane `i` is not UP any more: both directions are OFF, and φ reads 0 (R412). -/
def State.seifLaneDown (s : State) (i : Nat) : State :=
  if i < 256 then
    let s := { s with seif := { s.seif with dirs := tdel (2 * i) (tdel (2 * i + 1) s.seif.dirs) } }
    ((s.setSeifState i 0 0).setSeifState i 1 0).setRegs
      [(.SEIF_PORT_STATUS_VALID, i, 0), (.SEIF_PORT_PHASE_RX_PHASE, i, 0), (.SEIF_PORT_PHASE_TX_PHASE, i, 0)]
  else s

/-! ### The bring-up machine (R166-R174) -/

/-- The method TRAIN selects on a lane (R183, R184 for M0, M1 and the Mywyn lanes). -/
def trainMethod (i train rung : Nat) : Nat :=
  if isMywyn i then 2
  else if 256 ≤ i then
    if rung = 0 then 2 else if rung = 1 then (match train with | 0 => 2 | 3 => 1 | t => t) else train
  else train

/-- Lowest rung of a method (R170): rung 2 for the ladder, the target for Clause 73 and a fixed rung. -/
def lowRung (l : Lane) : Nat := if l.method = 0 ∨ l.method = 3 then min 2 l.target else l.target

/-- PARTNER code of a method in use (LN_STATUS.PARTNER). -/
def partnerCode (m : Nat) : Nat := match m with | 0 => 1 | 1 => 2 | 2 => 3 | _ => 0

/-- Flag `k` of the board entry in use (R158). -/
def Lane.entryFlag (l : Lane) (k : Nat) : Bool := bit (l.entry.getD 8 0) k

/-- The transmit pair is inverted: by the board or by LN_CFG, not by both (R158). -/
def State.txInverted (s : State) (i : Nat) : Bool := (s.lane i).entryFlag 2 != s.flag .LN_CFG_POL_TX_INV i
def State.rxInverted (s : State) (i : Nat) : Bool := (s.lane i).entryFlag 3 != s.flag .LN_CFG_POL_RX_INV i

/-- The lane's partner has been asked to precode and does: a fixed rung exchanges no request (R156). -/
def State.rxPrecoded (s : State) (i : Nat) : Bool :=
  let l := s.lane i
  l.entryFlag 1 && l.method != 2 && decide (3 ≤ s.reg .LN_STATUS_RUNG i)

/-- The partner's request for precoding, which the transmitter follows at rungs 3 to 5 (R156). -/
def State.askPrecode (s : State) (i : Nat) (on : Bool) : State :=
  s.setRegs [(.LN_STATUS_PRECODE_RX, i, b2n on), (.LN_STATUS_PRECODE_TX, i, b2n (on && decide (3 ≤ s.reg .LN_STATUS_RUNG i)))]

/-- The transmitter moves to rung `r`. -/
def State.setRung (s : State) (i r : Nat) : State :=
  let s := s.setReg .LN_STATUS_RUNG i r
  s.setReg .LN_STATUS_PRECODE_TX i (b2n (s.flag .LN_STATUS_PRECODE_RX i && decide (3 ≤ r)))

/-- A cancel has stopped the lane, or its LANE_TRAIN is suspended: the machine takes no step (R116, R174). -/
def State.laneHeld (s : State) (i : Nat) : Bool :=
  let l := s.lane i
  l.stopped || (l.op != 0 && (s.op (l.op - 1)).state == 3)

/-- Raw mode: LN_CFG.RAW holds and the lane's port is down; the Mywyn lanes always (R175, R184). -/
def State.rawMode (s : State) (i : Nat) : Bool := isMywyn i || (s.flag .LN_CFG_RAW i && !s.adminOn (s.portOfLane i))

/-- The lane may run at rung `r`: its entry is used, and line lanes run at rung 0 in raw mode only (R153, R159). -/
def State.rungUsed (s : State) (i r : Nat) : Bool :=
  entryUsed ((s.lane i).entryAt r) && (r != 0 || decide (256 ≤ i) || s.rawMode i)

/-- The base page that a lane sends (R169): the ability of the port's mode. -/
def State.sendBasePage (s : State) (i : Nat) : State :=
  let p := s.portOfLane i
  let l := s.lane i
  s.emit (if p < 256 then .basePage i l.target (s.reg .PRT_MODE_RATE p) (s.reg .PRT_MODE_WIDTH p) (s.reg .PRT_MODE_FEC p)
    else .basePage i l.target l.target 1 0)

/-- The link training of a rung: Clause 72 at rungs 1 and 2, Clause 136 at 3 and 4, that of IEEE 802.3dj at 5 (R169, R183). -/
def trainingClause (r : Nat) : Nat := if r ≤ 2 then 72 else if r ≤ 4 then 136 else 0

/-- Use the board entry of the lane at rung `r`: taps, equaliser point and precoding request (R156, R158). -/
def State.useEntry (s : State) (i r : Nat) : State :=
  let e := (s.lane i).entryAt r
  (s.setLane i { s.lane i with entry := e }).setRegs
    [(.LN_TXFIR_TAPS, i, e.getD 0 0 * 2 ^ 24 + e.getD 1 0 * 2 ^ 16 + e.getD 2 0 * 2 ^ 8 + e.getD 3 0),
     (.LN_RXEQ_CTLE_PEAK, i, e.getD 4 0 % 32), (.LN_RXEQ_CTLE_DC, i, e.getD 5 0 % 16)]

/-- End the LANE_TRAIN that runs the machine, if one does (R139): rung, merit, attempts, verdict. -/
def State.laneTrainEndWith (s : State) (i st verdict : Nat) : State :=
  let l := s.lane i
  if l.op = 0 then s
  else (s.endOp (l.op - 1) st [s.reg .LN_STATUS_RUNG i, s.reg .LN_STATUS_MERIT i, s.reg .LN_STATUS_ATTEMPTS i,
    verdict]).setLane i { l with op := 0 }

def State.laneTrainEnd (s : State) (i verdict : Nat) : State := s.laneTrainEndWith i stOK verdict

/-- End it with a verdict the spec gives no code: a SHORT or a FAULT lane (DESIGN CHOICE, log entry 143). -/
def State.laneTrainOpen (s : State) (i st : Nat) : State :=
  (s.laneTrainEndWith i st (Config.freeField s.freeCtr % 256)).fresh

/-- A lane enters FAULT (R159, R172). -/
def State.laneFault (s : State) (i : Nat) (hw : Bool) (cause : Nat) : State :=
  ((s.setLaneState i 11).evLow 5 i [(1, b2n hw), (1, s.reg .LN_STATUS_RUNG i), (1, cause)]).laneTrainOpen i stHWFAULT

/-- An attempt begins in SIGNAL_WAIT at the lowest rung of the method (R170, R174). A rung at which the lane may not run ends
it in FAULT: for the ladder and Clause 73 when no used rung is left (log entry 155). -/
def State.laneAttempt (s : State) (i : Nat) : State :=
  let l := s.lane i
  let low := lowRung l
  -- the ladder skips a rung whose entry is not used (R159)
  let r := if (l.method = 0 ∨ l.method = 3) ∧ !s.rungUsed i low then (s.nextRung i low l.top).getD low else low
  if !s.rungUsed i r then s.laneFault i false 1
  else
    let s := s.setLane i { l with
      heard := false, ready := 0, readySent := false, doneSent := 0, doneRcvd := 0,
      stepSent := false, lowSeen := 0, partnerTop := none }
    (((s.useEntry i r).setLaneState i 2).setRegs [(.LN_STATUS_RUNG, i, r), (.LN_STATUS_PRECODE_TX, i, 0),
      (.LN_STATUS_PRECODE_RX, i, 0), (.LN_STATUS_ATTEMPTS, i, s.reg .LN_STATUS_ATTEMPTS i + 1),
      (.LN_STATUS_PARTNER, i, if l.method = 2 then 3 else 0)]).tally1 10 1 i

/-- A bring-up starts with its attempt count at 0 (R170-R172). It ends a LANE_TRAIN that still runs on the lane as cancelled
(log entry 143), and takes seif's directions from a lane that was UP. -/
def State.laneStart (s : State) (i method target top attempts op : Nat) : State :=
  let s := s.laneTrainEndWith i stPARTIAL 2
  let s := if s.laneState i = 6 then s.seifLaneDown i else s
  let s := s.setLane i { Lane.idle with
    method := method, train := method, target := target, top := top, maxAttempts := attempts, op := op,
    seq := (s.lane i).seq, table := s.boardEntries i }
  (s.setRegs [(.LN_STATUS_ATTEMPTS, i, 0), (.LN_STATUS_EDGE, i, 0), (.LN_SLIP_CUM, i, 0)]).laneAttempt i

/-- Start again with the same settings (R172, R174: UP and ABSENT lanes). -/
def State.laneRestart (s : State) (i : Nat) : State :=
  let l := s.lane i
  s.laneStart i l.train l.target l.top l.maxAttempts l.op

/-- The lane is UP, or RAW when raw mode holds, its port is down and it has trained at FIXED_RUNG (R168, R174, R175). -/
def State.laneUp (s : State) (i : Nat) : State :=
  if isMywyn i ∨ (s.rawMode i ∧ s.reg .LN_STATUS_RUNG i = s.reg .LN_CFG_FIXED_RUNG i) then (s.setLaneState i 10).laneTrainEnd i 0
  else
    let s := if (i = 256 ∨ i = 257) ∧ s.reg .LN_STATUS_RUNG i = 0 then s.emit (.clause37 i) else s
    (((s.setLaneState i 6).seifLaneUp i).evLow 1 i [(1, s.reg .LN_STATUS_RUNG i), (1, s.reg .LN_STATUS_MERIT i),
      (1, s.reg .LN_STATUS_ATTEMPTS i)]).laneTrainEnd i 0

/-- The verdict after the last permitted attempt (R171). -/
def State.laneVerdict (s : State) (i : Nat) : State :=
  let l := s.lane i
  if l.heard then
    let r := if l.best = 0 then lowRung l else l.best - 1
    (((s.setLaneState i 9).setRung i r).evLow 4 i
      [(1, r), (1, l.partnerTop.getD 0), (1, l.target)]).laneTrainOpen i stOK
  else
    ((s.setLaneState i 8).evLow 3 i [(1, s.reg .LN_STATUS_ATTEMPTS i)]).laneTrainEnd i 1

/-- An attempt fails (R170): BACKOFF at the lowest rung while attempts are left, else the verdict. -/
def State.laneFail (s : State) (i : Nat) : State :=
  let l := s.lane i
  let s := s.tally1 10 2 i
  if l.maxAttempts ≤ s.reg .LN_STATUS_ATTEMPTS i then s.laneVerdict i
  else (s.setLaneState i 7).setRung i (lowRung l)

/-- Back-off of failed attempt `a`, in ms (R170). -/
def backoffMs (s : State) (a : Nat) : Nat := min 1280 (s.reg .LN_LADDER_BACKOFF_BASE * 2 ^ (a - 1))

/-- The agreed top is below the target: SHORT at once (R167). -/
def State.laneShortNow (s : State) (i : Nat) : State :=
  let l := s.lane i
  ((s.setLaneState i 9).evLow 4 i [(1, s.reg .LN_STATUS_RUNG i), (1, l.partnerTop.getD 0), (1, l.target)]).laneTrainOpen i stOK

/-- The lane is good at its rung: CDR locked and merit at least the rung's minimum (R168). -/
def State.laneGood (s : State) (i : Nat) : Bool :=
  s.flag .LN_STATUS_LOCK i && decide (s.meritMin (s.reg .LN_STATUS_RUNG i) ≤ s.reg .LN_STATUS_MERIT i)

/-- A signal appears (R172, R174). An ABSENT lane restarts with its attempt count at 0, but not in power state off. -/
def doLaneSignalDetect (i : Nat) (s : State) : State :=
  let s := s.setReg .LN_STATUS_SIGNAL i 1
  if s.laneHeld i then s
  else (match s.laneState i with
    | 2 =>
      let l := s.lane i
      -- a fixed rung has nothing to negotiate: it adapts at once (R169)
      if l.method = 2 then s.setLaneState i 4
      else if l.method = 1 then (s.setLaneState i 3).sendBasePage i else s.setLaneState i 3
    | 8 => if tget 0 s.ln.power i = 4 then s else s.laneRestart i
    | _ => s)

/-- The row of `doLaneSignalDetect`. -/
def execLaneSignalDetect (i : Nat) (s : State) : Res := run (doLaneSignalDetect i) s

/-- An UP lane loses signal or lock: E002, and a new bring-up (R174); its port goes down. -/
def State.laneDrop (s : State) (i cause : Nat) : State :=
  ((((s.evLow 2 i [(1, cause)]).tally1 10 3 i).portDown (s.portOfLane i) 1).seifLaneDown i).laneRestart i

/-- A lane loses its signal (`lock` false) or its CDR lock (R170). -/
def doLaneSignalLoss (i : Nat) (lockOnly : Bool) (s : State) : State :=
  let s := (if lockOnly then s else s.setReg .LN_STATUS_SIGNAL i 0).setRegs
    [(.LN_STATUS_LOCK, i, 0), (.LN_STATUS_MERIT, i, 0)]
  if s.laneHeld i then s
  else (match s.laneState i with
    | 3 => if lockOnly then s else s.laneFail i
    | 4 => s.laneFail i
    | 5 => if lockOnly then s else s.laneFail i
    | 6 => s.laneDrop i (if lockOnly then 2 else 1)
    | 10 => if isMywyn i then s.laneRestart i else s
    | _ => s)

/-- The row of `doLaneSignalLoss`. -/
def execLaneSignalLoss (i : Nat) (lockOnly : Bool) (s : State) : Res := run (doLaneSignalLoss i lockOnly) s

/-- The lane takes the agreed top from the partner's TOP (R167). -/
def agreedTop (l : Lane) : Nat := min l.top (l.partnerTop.getD l.top)

/-- CRC-8 of a ladder block: x^8 + x^2 + x + 1, initial value 0 (R166). -/
def ladderCrc (d : List Nat) : Nat := crcBytes 8 0x07 false 0 d

/-- The 64 bits of a ladder block behind its sync header: block type, D1 to D3, O code and the trailing 28 bits (R166). -/
def ladderBlock (d2 d3 merit : Nat) : Nat :=
  ofLE [0x4B, 0x5A, d2, d3] + 0xF * 2 ^ 32 + (merit * 2 ^ 20 + ladderCrc [0x5A, d2, d3, merit]) * 2 ^ 36

/-- A receiver takes a ladder block only with its header and codes, D1 and a correct CRC-8 (R166), over a pair whose
polarity it knows. -/
def State.takesBlock (s : State) (i : Nat) (b : LadderBlock) : Bool :=
  b.sync == 2 && b.ty == 0x4B && b.ocode == 0xF && b.d1 == 0x5A && b.inverted == s.rxInverted i &&
    b.trail % 256 == ladderCrc [b.d1, b.d2, b.d3, b.trail / 2 ^ 20 % 256]

def blockMsg (b : LadderBlock) : Nat := b.d2 / 32 % 8
def blockRung (b : LadderBlock) : Nat := b.d2 / 4 % 8
def blockTop (b : LadderBlock) : Nat := b.d3 / 32 % 8
def blockAsksPrecode (b : LadderBlock) : Bool := bit b.d3 4

/-- Every 16,384th block a ladder lane sends its state (R166, R168): HELLO, READY when good, STEP or DONE after three
READY exchanges. -/
def doLadderBlockSend (i : Nat) (s : State) : State :=
  let l := s.lane i
  let st := s.laneState i
  let r := s.reg .LN_STATUS_RUNG i
  if (l.method = 0 ∨ l.method = 3) ∧ 2 ≤ st ∧ st ≤ 5 ∧ !s.laneHeld i then
    let good := s.laneGood i && (st == 4)
    let atTop := (s.nextRung i r (agreedTop l)).isNone
    let msg := if good ∧ 3 ≤ l.ready then (if atTop then 3 else 2) else if good then 1 else 0
    let d2 := msg * 32 + r * 4
    let d3 := l.top * 32 + b2n (l.entryFlag 1) * 16 + l.seq % 8
    let m := s.reg .LN_STATUS_MERIT i
    let s := s.emit (.ladder i msg (ladderBlock d2 d3 m) (s.txInverted i))
    let l := { l with seq := (l.seq + 1) % 8, readySent := good, ready := if good then l.ready else 0,
                      doneSent := if msg = 3 then l.doneSent + 1 else l.doneSent,
                      stepSent := l.stepSent || msg == 2 }
    let s := s.setLane i l
    (if msg = 2 then s.setLaneState i 5
      else if 3 ≤ l.doneSent ∧ 3 ≤ l.doneRcvd then s.laneUp i else s)
  else s

/-- The row of `doLadderBlockSend`. -/
def execLadderBlockSend (i : Nat) (s : State) : Res := run (doLadderBlockSend i) s

/-- A ladder block arrives (R166-R168, R170). -/
def doLadderBlockReceive (i : Nat) (b : LadderBlock) (s : State) : State :=
  let l := s.lane i
  let st := s.laneState i
  if !s.takesBlock i b ∨ s.laneHeld i ∨ st < 3 ∨ 5 < st ∨ l.method = 1 ∨ l.method = 2 then s
  else
    let r := s.reg .LN_STATUS_RUNG i
    let low := if blockRung b < r then l.lowSeen + 1 else 0
    let good := s.laneGood i && (st == 4)
    let both := good && blockMsg b != 0 && l.readySent
    let l := { l with heard := true, partnerTop := some (blockTop b), lowSeen := low,
                      ready := if blockMsg b = 0 then 0 else if both then l.ready + 1 else l.ready,
                      best := if both then max l.best (r + 1) else l.best,
                      doneRcvd := if blockMsg b = 3 then l.doneRcvd + 1 else l.doneRcvd }
    let s := ((s.setLane i l).setReg .LN_STATUS_PARTNER i 1).askPrecode i (blockAsksPrecode b)
    (if blockMsg b = 4 ∨ 2 ≤ low then s.laneFail i
      else if agreedTop l < l.target then s.laneShortNow i
      else if 3 ≤ l.doneSent ∧ 3 ≤ l.doneRcvd then s.laneUp i
      else if st = 3 then s.setLaneState i 4
      else s)

/-- The row of `doLadderBlockReceive`. -/
def execLadderBlockReceive (i : Nat) (b : LadderBlock) (s : State) : Res := run (doLadderBlockReceive i b) s

/-- 1,024 blocks after STEP the transmitter moves to the next used rung (R168). -/
def doLaneRungChange (i : Nat) (s : State) : State :=
  let l := s.lane i
  if s.laneState i = 5 ∧ !s.laneHeld i then
    match s.nextRung i (s.reg .LN_STATUS_RUNG i) (agreedTop l) with
    | some r =>
      ((((s.setLane i { l with ready := 0, readySent := false, stepSent := false, lowSeen := 0 }).useEntry i r).setLaneState
        i 4).setRung i r)
    | none => (s.setLaneState i 4)
  else s

/-- The row of `doLaneRungChange`. -/
def execLaneRungChange (i : Nat) (s : State) : Res := run (doLaneRungChange i) s

/-- Shift of a tap in LN_TXFIR: PRE2 is the most significant byte. -/
def tapAt (tap : Nat) : Nat := 2 ^ (24 - 8 * min tap 3)

/-- The partner asks to move a tap one unit (R165): honoured within the table value ± WIN_TX, else answered with the status
of the limit. -/
def State.moveTap (s : State) (i : Nat) (q : Nat × Bool) : State :=
  let e := (s.lane i).entry
  let w := e.getD 7 0 % 16
  let taps := s.reg .LN_TXFIR_TAPS i
  let v := taps / tapAt q.1 % 256
  let byte (k : Nat) : Int := if q.1 = 2 then k else sgn 8 k
  let new := byte v + (if q.2 then 1 else -1)
  if (new - byte (e.getD (min q.1 3) 0)).natAbs ≤ w then
    (s.setReg .LN_TXFIR_TAPS i (taps - v * tapAt q.1 + unsgn 8 new * tapAt q.1)).emit (.tapAnswer i q.1 1)
  else s.emit (.tapAnswer i q.1 (if q.2 then 3 else 2))

/-- Auto-negotiation has resolved: the lane trains at its rung by the clause of the rung (R169). -/
def State.startTraining (s : State) (i : Nat) : State :=
  let r := (s.lane i).target
  if s.laneState i = 4 then s
  else
    let s := ((s.useEntry i r).setRung i r).setLaneState i 4
    s.emit (.linkTraining i (trainingClause r) ((s.lane i).entryFlag 1))

/-- A Clause 73 page arrives (R169): TRAIN = 3 turns to Clause 73 (E006); once auto-negotiation has resolved the lane
trains, taking the partner's requests, and when the link training of the rung has ended well it is UP. -/
def doDmePageReceive (i : Nat) (resolved trained : Bool) (x : DmePage) (s : State) : State :=
  let l := s.lane i
  let st := s.laneState i
  if (l.method = 1 ∨ l.method = 3) ∧ 2 ≤ st ∧ st ≤ 4 ∧ !s.laneHeld i then
    let s := if l.method = 3 then (s.evLow 6 i [(2, x.ability)]).sendBasePage i else s
    let s := (s.setLane i { l with method := 1, heard := true }).setReg .LN_STATUS_PARTNER i 2
    if !resolved then (if st = 4 then s else s.setLaneState i 3)
    else
      let s := x.taps.foldl (fun (s : State) q => s.moveTap i q) ((s.startTraining i).askPrecode i x.precode)
      if trained ∧ s.laneGood i then s.laneUp i else s
  else s

/-- The row of `doDmePageReceive`. -/
def execDmePageReceive (i : Nat) (resolved trained : Bool) (x : DmePage) (s : State) : Res := run (doDmePageReceive i resolved trained x) s

/-- `ms` milliseconds, counted in ticks of 1 µs, have passed in the lane's state (log entry 156). -/
def State.laneWaited (s : State) (i ms : Nat) : Bool := decide ((s.lane i).since + 1000 * ms ≤ s.clk.tickCount)

/-- A bring-up state lasts RUNG_TIMEOUT: the attempt fails (R170). A lane whose own PLL or CDR cannot lock at a valid rung
while a signal is present enters FAULT instead (R172). -/
def doRungTimeout (i : Nat) (hwFail : Bool) (s : State) : State :=
  let st := s.laneState i
  if st < 2 ∨ 5 < st ∨ s.laneHeld i then s
  else if hwFail ∧ s.flag .LN_STATUS_SIGNAL i then s.laneFault i true 2
  else if s.laneWaited i (s.reg .LN_LADDER_RUNG_TIMEOUT) then s.laneFail i else s

/-- The row of `doRungTimeout`. -/
def execRungTimeout (i : Nat) (hwFail : Bool) (s : State) : Res := run (doRungTimeout i hwFail) s

/-- The back-off ends and a new attempt starts (R170). -/
def doBackoffExpiry (i : Nat) (s : State) : State :=
  if s.laneState i = 7 ∧ !s.laneHeld i ∧ s.laneWaited i (backoffMs s (s.reg .LN_STATUS_ATTEMPTS i)) then s.laneAttempt i
  else s

/-- The row of `doBackoffExpiry`. -/
def execBackoffExpiry (i : Nat) (s : State) : Res := run (doBackoffExpiry i) s

/-- The window of a CTLE value: the table value ± the half-width, clamped to 0 to `top` (R163). -/
def window (v w top : Nat) : Nat × Nat := (v - w, min top (v + w))
def peakWindow (e : List Nat) : Nat × Nat := window (e.getD 4 0 % 32) (e.getD 6 0 / 16) 31
def dcWindow (e : List Nat) : Nat × Nat := window (e.getD 5 0 % 16) (e.getD 6 0 % 16) 15
def inWindow (w : Nat × Nat) (v : Nat) : Bool := decide (w.1 ≤ v ∧ v ≤ w.2)
def onEdge (w : Nat × Nat) (v : Nat) : Bool := v == w.1 || v == w.2

/-- Merit of a signal-to-noise estimate in 1/8 dB (R162). -/
def meritOf (snr8 : Nat) : Nat := min 255 (snr8 - 48)

/-- The lane adapts: in training, in service, and raw. -/
def adapting (st : Nat) : Bool := st == 4 || st == 5 || st == 6 || st == 10

/-- The DSP tries a neighbouring point: it moves there when the point lies in the window and has the higher merit, so that
the point in use is the best one found (R163). -/
def State.tryPoint (s : State) (i : Nat) (q : Nat × Nat) : State :=
  let e := (s.lane i).entry
  let p := s.reg .LN_RXEQ_CTLE_PEAK i
  let d := s.reg .LN_RXEQ_CTLE_DC i
  let p' := if q.1 = 0 then p + 1 else if q.1 = 1 then p - 1 else p
  let d' := if q.1 = 2 then d + 1 else if q.1 = 3 then d - 1 else d
  if inWindow (peakWindow e) p' ∧ inWindow (dcWindow e) d' ∧ s.reg .LN_STATUS_MERIT i < meritOf q.2 then
    s.setRegs [(.LN_RXEQ_CTLE_PEAK, i, p'), (.LN_RXEQ_CTLE_DC, i, d'), (.LN_STATUS_MERIT, i, meritOf q.2)]
  else s

/-- EDGE shows whether the point in use lies on an edge of its window; E007 once per bring-up (R164). -/
def State.edgeReport (s : State) (i : Nat) : State :=
  let l := s.lane i
  let p := s.reg .LN_RXEQ_CTLE_PEAK i
  let d := s.reg .LN_RXEQ_CTLE_DC i
  let edge := onEdge (peakWindow l.entry) p || onEdge (dcWindow l.entry) d
  let s := s.setReg .LN_STATUS_EDGE i (b2n edge)
  if edge ∧ !l.edgeTold then
    (s.setLane i { l with edgeTold := true }).evLow 7 i [(1, p), (1, d), (1, l.entry.getD 4 0), (1, l.entry.getD 5 0)]
  else s

/-- Merit and lock at a tick boundary (R162), adaptation and the edge report (R163, R164), the fixed-rung UP rule (R169). -/
def State.laneReading (s : State) (x : LaneReading) : State :=
  let i := x.lane
  let merit := if x.lock then meritOf x.snr8 else 0
  let s := s.setRegs [(.LN_STATUS_LOCK, i, b2n x.lock), (.LN_STATUS_MERIT, i, merit)]
  let l := s.lane i
  let s := if l.method = 2 ∧ x.lock ∧ 2 ≤ s.laneState i ∧ s.laneState i ≤ 5 then s.setLane i { l with heard := true } else s
  let s := if !adapting (s.laneState i) then s
    else (if x.lock then x.trials.foldl (fun (s : State) q => s.tryPoint i q) s else s).edgeReport i
  if (s.lane i).method = 2 ∧ s.laneState i = 4 ∧ s.laneGood i ∧ !s.laneHeld i then s.laneUp i else s

/-! ### Raw mode (R175) -/

/-- The bits of a raw word, from the levels received: the pair's polarity, then the precoder and the Gray code undone. -/
def State.rawBits (s : State) (i : Nat) (w : List Nat) : List Bool :=
  let inv := s.rxInverted i
  if 3 ≤ s.reg .LN_STATUS_RUNG i then
    let p := w.map fun l => if inv then 3 - l else l
    ((if s.rxPrecoded i then unprecode (s.lane i).rxPrev p else p).map grayBits).flatten
  else w.map fun l => (l == 1) != inv

/-- A word of a raw lane is compared with the marker; the last level stays for the next word. -/
def State.rawWord (s : State) (i : Nat) (w : List Nat) : State :=
  let hit := ofBits (s.rawBits i w) % 2 ^ 64 == s.reg .LN_RAW_MARKER_MARKER i
  let last := (w.getLast?).getD 0
  let s := s.setLane i { s.lane i with rxPrev := if s.rxInverted i then 3 - last else last }
  if hit then s.countReg .LN_RAW_MATCH_COUNT i 1 else s

/-- The PRBS checker runs: PRBS13Q and PRBS31Q at PAM4 rungs only (R175). -/
def State.prbsRuns (s : State) (i : Nat) : Bool :=
  let k := s.reg .LN_CFG_PRBS i
  k != 0 && decide (k ≤ 8) && (decide (k ≤ 6) || decide (3 ≤ s.reg .LN_STATUS_RUNG i))

/-- What a raw lane received in the tick (R175). -/
def State.rawReading (s : State) (x : RawReading) : State :=
  let i := x.lane
  if s.laneState i ≠ 10 then s
  else
    let s := x.words.foldl (fun (s : State) w => s.rawWord i w) (s.setReg .LN_RAW_MATCH_COUNT i 0)
    if s.prbsRuns i then (s.countReg .LN_PRBS_ERR_ERRORS i x.errors).tally 10 6 1 0 0 i x.errors else s

/-! ### Sweeps (R177, R178) -/

/-- Where point `k` of an eye scan of `count` points lies: row by row over a square grid centred on the sampling point. -/
def scanPoint (count k : Nat) : List Nat :=
  let w := min 64 count
  let at_ (axis j : Nat) : List Nat := le 2 (unsgn 16 (((j : Int) - (w / 2 : Nat)) * Config.scanStep axis))
  at_ 0 (k % w) ++ at_ 1 (k / w)

/-- Points of the board-table window in raster order: CTLE_DC within CTLE_PEAK (log entry 153). -/
def windowPoints (e : List Nat) : List (Nat × Nat) :=
  let p := peakWindow e
  let d := dcWindow e
  ((List.range (p.2 + 1 - p.1)).map fun a => (List.range (d.2 + 1 - d.1)).map fun b => (p.1 + a, d.1 + b)).flatten

/-- Bit errors of a point: no more than the bits of its dwell. -/
def State.pointErrors (s : State) (n : Nat) : List Nat := le 4 (min 0xFFFFFFFF (min (2 ^ s.reg .LN_SWEEP_DWELL) n))

/-- The records of a sweep, 8 bytes a point, of what each point gave: (bit errors, merit). -/
def State.sweepRecords (s : State) (i mode count : Nat) (points : List (Nat × Nat)) : List (List Nat) :=
  let l := points.take count
  if mode = 0 then l.mapIdx fun k x => scanPoint count k ++ s.pointErrors x.1
  else
    let e := (s.lane i).entry
    List.zipWith (fun (c : Nat × Nat) (x : Nat × Nat) => [c.1, c.2, min 255 x.2, 0] ++ s.pointErrors x.1)
      (windowPoints (if e = [] then s.boardEntry i (s.reg .LN_STATUS_RUNG i) else e)) l

/-- A sweep ends: the lane returns to the point it held before (R178). -/
def State.sweepReturn (s : State) (args : List Nat) : State :=
  let i := args.getD 0 0
  s.setRegs [(.LN_RXEQ_CTLE_PEAK, i, args.getD 5 0), (.LN_RXEQ_CTLE_DC, i, args.getD 6 0)]

/-! ### Commands on lanes -/

/-- Rungs that LANE_TRAIN may name for a lane (R153): rung 0 of a line lane in raw mode only. -/
def rungAllowed (raw : Bool) (i r : Nat) : Bool :=
  if i < 256 then decide (r ≤ 5) && (raw || r != 0) else if i < 258 then decide (r ≤ 2) else r == 4

/-- LANE_TRAIN (R139): a long operation that runs the bring-up machine on a lane of a down port. -/
def specLaneTrain (h : Hdr) (lane mode arg count : Nat) : Spec :=
  let i := (laneIndex lane).getD 0
  { opc := 0x21
    chk := fun s =>
      { badField := (laneIndex lane).isNone || decide (2 < mode) || decide (255 < count) || !rungAllowed (s.flag .LN_CFG_RAW i) i arg
        own := if s.adminOn (s.portOfLane i) then some stFROZEN else none
        noRoom := (s.freeSlot h.fn).isNone }
    work := fun id s => s.startOp h id 0x21 [i] fun slot s =>
      s.laneStart i (trainMethod i mode arg) arg arg (if count = 0 then s.attemptsDefault i else count) (slot + 1) }

def execLaneTrain (h : Hdr) (lane mode arg count : Nat) (s : State) : Res :=
  s.issue h (.laneTrain h lane mode arg count) (specLaneTrain h lane mode arg count)

/-- LANE_SWEEP (R177, R178): a long operation; mode 1 needs a port that is down. -/
def specLaneSweep (h : Hdr) (lane mode count addr len : Nat) : Spec :=
  let i := (laneIndex lane).getD 0
  { opc := 0x22
    chk := fun s =>
      { badField := (laneIndex lane).isNone || decide (1 < mode) || count == 0 || decide (4096 < count) ||
          addr % 64 != 0 || decide (len < 8 * count)
        own := if mode = 1 ∧ s.adminOn (s.portOfLane i) then some stFROZEN else none
        noRoom := (s.freeSlot h.fn).isNone }
    work := fun id s => s.startOp h id 0x22 [i, mode, count, addr, len, s.reg .LN_RXEQ_CTLE_PEAK i, s.reg .LN_RXEQ_CTLE_DC i]
      fun _ s => s }

def execLaneSweep (h : Hdr) (lane mode count addr len : Nat) (s : State) : Res :=
  s.issue h (.laneSweep h lane mode count addr len) (specLaneSweep h lane mode count addr len)

/-- The cumulative slip, reduced to −W/2 to W/2 − 1 (R176). -/
def slipSum (w cum bits : Nat) (later : Bool) : Nat :=
  let v : Int := sgn 16 cum + (if later then (bits : Int) else -(bits : Int))
  unsgn 16 ((v + (w / 2 : Nat)) % (w : Nat) - (w / 2 : Nat))

/-- Word width of a raw lane: 64 bits at NRZ rungs, 128 at PAM4 rungs. -/
def State.rawWidth (s : State) (i : Nat) : Nat := if isMywyn i ∨ 3 ≤ s.reg .LN_STATUS_RUNG i then 128 else 64

/-- LANE_SLIP (R139, R176): at once, with the cumulative slip as its result. -/
def specLaneSlip (lane bits dir : Nat) : Spec :=
  let i := (laneIndex lane).getD 0
  { opc := 0x23
    chk := fun s =>
      { badField := (laneIndex lane).isNone || bits == 0 || decide (64 < bits) || decide (1 < dir)
        own := if s.laneState i ≠ 10 ∧ !isMywyn i then some stBADFIELD
               else if s.rawWidth i = 128 ∧ bits % 2 = 1 then some stBADFIELD else none }
    work := fun id s =>
      let v := slipSum (s.rawWidth i) (s.reg .LN_SLIP_CUM i) bits (dir == 0)
      ((s.setReg .LN_SLIP_CUM i v).tally1 10 5 i).complete id stOK (le 2 v) }

def execLaneSlip (h : Hdr) (lane bits dir : Nat) (s : State) : Res :=
  s.issue h (.laneSlip h lane bits dir) (specLaneSlip lane bits dir)

end Machine
end Sys2Proof
end

