-- ==== Sys2Proof/Machine/Ports.lean ====
section
/-!
DEFINITION. Port engines (ch. 06): PORT_SET, port up and down, PFC and pause, holds and vents, preemption verification and
the port counters of R213.
-/
namespace Sys2Proof
namespace Machine

/-! ### Port counters (R213, R554) -/

/-- Add to port counter `c` of R554, which wraps at 64 bits. -/
def State.portCount (s : State) (p c n : Nat) : State :=
  { s with prt := { s.prt with cnt := tupd 0 (p * 40 + c) (fun v => (v + n) % 2 ^ 64) s.prt.cnt } }

/-- A frame received or sent (counters 0 to 3, item 1 of R213). -/
def State.countFrame (s : State) (p : Nat) (sent : Bool) (len : Nat) : State :=
  let q := b2n sent
  (((s.portCount p q 1).portCount p (2 + q) len).tally 12 1 (1 + q) 0 0 p 1).tally 12 1 (3 + q) 0 0 p len

/-- A bad frame by cause of R195, 0 to 3 (counters 4 to 7), with E034 by cause. -/
def State.countBad (s : State) (p cause : Nat) : State :=
  let s := (s.portCount p (4 + cause) 1).tally 12 2 1 (cause + 1) 0 p 1
  s.evTally 34 p ((List.range 4).map fun k => (2, b2n (k == cause), .sum))

/-! ### Modes (R191) -/

/-- Rate of a RATE code in Gb/s. -/
def rateGbps (r : Nat) : Nat := [10, 25, 50, 100, 200, 400, 800, 1600].getD r 0

/-- The rung of a combination of R191: rate code, lanes, FEC; none: not a combination of the table. -/
def modeRung (rate width fec : Nat) : Option Nat :=
  match rate, width, fec with
  | 0, 1, 0 => some 1
  | 1, 1, 0 => some 2 | 1, 1, 1 => some 2
  | 2, 2, 0 => some 2 | 2, 2, 1 => some 2 | 2, 1, 2 => some 3
  | 3, 4, 0 => some 2 | 3, 4, 1 => some 2 | 3, 2, 2 => some 3 | 3, 1, 2 => some 4
  | 4, 4, 2 => some 3 | 4, 2, 2 => some 4 | 4, 1, 2 => some 5
  | 5, 8, 2 => some 3 | 5, 4, 2 => some 4 | 5, 2, 2 => some 5
  | 6, 8, 2 => some 4 | 6, 4, 2 => some 5
  | 7, 8, 2 => some 5
  | _, _, _ => none

/-- Ingress latency of a mode in ns (R191). -/
def ingressNs (rate fec : Nat) : Nat :=
  match rate, fec with
  | 0, _ => 24 | 1, 0 => 14 | 1, _ => 257 | 2, 0 => 19 | 2, _ => 154 | 3, 0 => 15 | 3, _ => 103
  | 4, _ => 78 | 5, _ => 65 | 6, _ => 58 | _, _ => 55

/-- Egress latency of a mode in ns (R191). -/
def egressNs (rate fec : Nat) : Nat :=
  match rate, fec with
  | 0, _ => 20 | 1, 0 => 12 | 1, _ => 36 | 2, 0 => 12 | 2, _ => 34 | 3, 0 => 11 | 3, _ => 32
  | 4, _ => 31 | 5, _ => 30 | 6, _ => 29 | _, _ => 29

/-- Rate of a port in Gb/s: its mode, or the mode of a management port in PRT_MPCFG (R210). -/
def State.portGbps (s : State) (p : Nat) : Nat :=
  if p < 256 then rateGbps (s.reg .PRT_MODE_RATE p)
  else match (if p = 256 then s.reg .PRT_MPCFG_MP0 else s.reg .PRT_MPCFG_MP1) with
    | 1 => 1 | 2 => 10 | 3 => 25 | _ => 0

/-! ### Port up and down (R173, R212) -/

/-- Rung a management lane runs at (R183). -/
def mpRung (cfg : Nat) : Nat := match cfg with | 1 => 0 | 2 => 1 | _ => 2

/-- A lane of a port starts bring-up for the port's mode (R174: ADMIN_UP becomes 1). -/
def State.portLaneStart (s : State) (i rung : Nat) : State :=
  let m := trainMethod i (s.reg .LN_CFG_TRAIN i) rung
  let target := if m = 2 ∧ i < 256 then s.reg .LN_CFG_FIXED_RUNG i else rung
  s.laneStart i m target rung (s.attemptsDefault i) 0

/-- ADMIN_UP becomes 0: an attempt is abandoned, an UP lane reports E002, and the lane is DOWN (R174). -/
def State.laneAdminDown (s : State) (i : Nat) : State :=
  let s := if s.laneState i = 6 then (s.evLow 2 i [(1, 3)]).seifLaneDown i else s
  (s.setLane i Lane.idle).setRegs [(.LN_STATUS_STATE, i, 1), (.LN_STATUS_LOCK, i, 0), (.LN_STATUS_MERIT, i, 0)]

/-- The lanes of port p (R189). -/
def portLanes (p width : Nat) : List Nat := if p < 256 then (List.range width).map (p + ·) else [p]

/-- Seif has completed a beat in direction `d` of port `p` (R410). -/
def State.seifBeaten (s : State) (p d : Nat) : Bool := (tget SeifDir.off0 s.seif.dirs (2 * p + d)).beat

/-- The fixed-delay record of a port is taken at its bring-up (R414, R415): all delays read 0 without a valid one. -/
def State.portRecord (s : State) (p : Nat) : State :=
  if 256 ≤ p then s
  else
    let r := match s.ln.board with
      | some t => slice t (0x6200 + 16 * p) 16
      | none => []
    let ok := bit (r.getD 8 0) 0
    let v (k : Nat) := if ok then ofLE (slice r k 2) else 0
    let s := s.setRegs [(.SEIF_PORT_PKG_RX, p, v 0), (.SEIF_PORT_PKG_TX, p, v 2), (.SEIF_PORT_BRD_RX, p, v 4),
      (.SEIF_PORT_BRD_TX, p, v 6), (.SEIF_PORT_STATUS_NOREC, p, b2n !ok)]
    if ok then s
    else s.evObj 160 p 0 fun n => [(4, n), (2, p), (1, b2n s.ln.board.isNone)]

/-- Preemption of an UP port: off, verifying, or active at once without VERIFY (R201). -/
def State.preemptStart (s : State) (p : Nat) : State :=
  let s := s.setReg .PRT_PREEMPT_STATE p (if s.flag .PRT_MODE_PREEMPT p then (if s.flag .PRT_PREEMPT_VERIFY p then 1 else 2) else 0)
  { s with prt := { s.prt with verifyTries := tdel p s.prt.verifyTries, verifyAt := tdel p s.prt.verifyAt } }

/-- The port comes up (R173); E032 of a management port gives its mode as PRT_MPCFG codes it (log entry 159). -/
def State.portUp (s : State) (p : Nat) : State :=
  let w := if p < 256 then s.reg .PRT_MODE_WIDTH p else 1
  let s := ((s.portRecord p).setReg .PRT_MODE_UP p 1).preemptStart p
  let rate := if p < 256 then s.reg .PRT_MODE_RATE p else if p = 256 then s.reg .PRT_MPCFG_MP0 else s.reg .PRT_MPCFG_MP1
  s.evLow 32 p [(1, rate), (1, w), (1, s.reg .PRT_MODE_FEC p)]

/-- Target rung of a port's lanes. -/
def State.portRung (s : State) (p : Nat) : Nat :=
  if p < 256 then (modeRung (s.reg .PRT_MODE_RATE p) (s.reg .PRT_MODE_WIDTH p) (s.reg .PRT_MODE_FEC p)).getD 0
  else mpRung (if p = 256 then s.reg .PRT_MPCFG_MP0 else s.reg .PRT_MPCFG_MP1)

/-- PORT_UP (R173): only while ADMIN_UP is 1 (or a management port is on) and every lane is UP at the target rung. -/
def doPortUp (p : Nat) (s : State) : State :=
  let w := if p < 256 then s.reg .PRT_MODE_WIDTH p else 1
  (if s.adminOn p ∧ !s.flag .PRT_MODE_UP p ∧
      (portLanes p w).all (fun i => s.laneState i == 6 && s.reg .LN_STATUS_RUNG i == s.portRung p) ∧
      (256 ≤ p ∨ (s.seifBeaten p 0 ∧ s.seifBeaten p 1))
    then s.portUp p else s)

/-- The row of `doPortUp`. -/
def execPortUp (p : Nat) (s : State) : Res := run (doPortUp p) s

/-! ### PORT_SET (R138, R188-R191) -/

/-- Width, rate, FEC and flags a port will have once the PORT_SETs accepted so far apply (R138). -/
structure PortView where
  width : Nat
  rate : Nat
  fec : Nat
  admin : Bool
  absorbed : Bool

/-- The port in force. -/
def State.portView (s : State) (p : Nat) : PortView :=
  ⟨s.reg .PRT_MODE_WIDTH p, s.reg .PRT_MODE_RATE p, s.reg .PRT_MODE_FEC p, s.flag .PRT_MODE_ADMIN_UP p,
    s.flag .PRT_MODE_ABSORBED p⟩

/-- The port as one more PORT_SET leaves it: its own, or absorbed or freed by a neighbour's (R190). -/
def PortView.after (v : PortView) (p old : Nat) (x : PortSet) : PortView :=
  if x.port = p then ⟨x.width, x.rate, x.fec, x.admin, false⟩
  else if x.port < p ∧ p < x.port + x.width then ⟨1, 1, 0, false, true⟩
  else if x.port < p ∧ p < x.port + old then ⟨1, 1, 0, false, false⟩
  else v

/-- The ports as one more PORT_SET leaves them: its own and the seven above it. -/
def State.viewsAfter (s : State) (t : Tab PortView) (x : PortSet) : Tab PortView :=
  let v (p : Nat) : PortView := tget (s.portView p) t p
  let old := (v x.port).width
  ((List.range 8).map (x.port + ·)).foldl (fun (a : Tab PortView) p => tins p ((v p).after p old x) a) t

/-- The port as the PORT_SETs accepted before leave it. -/
def State.portJudged (s : State) (p : Nat) : PortView := tget (s.portView p) (s.prt.sets.foldl s.viewsAfter []) p

/-- The own checks of PORT_SET, in the order of its section: FROZEN of the port, then BAD_FIELD (R138, R189-R191), then
FROZEN of the ports it absorbs (R190). -/
def State.portSetOwn (s : State) (x : PortSet) : Option Nat :=
  let v := s.portJudged x.port
  let absorbs := (portLanes x.port x.width).filter fun q => decide (x.port < q ∧ v.width ≤ q - x.port)
  if v.admin ∧ (x.width ≠ v.width ∨ x.rate ≠ v.rate ∨ x.fec ≠ v.fec) then some stFROZEN
  else if v.absorbed ∨ x.port % x.width ≠ 0 ∨ (modeRung x.rate x.width x.fec).isNone then some stBADFIELD
  else if absorbs.any fun q => (s.portJudged q).admin then some stFROZEN
  else none

def specPortSet (h : Hdr) (port width rate fec flags mask : Nat) : Spec :=
  let x (id : Nat) : PortSet := ⟨id, port, width, rate, fec, bit flags 0, bit flags 1, bit flags 2, mask⟩
  { opc := 0x20
    chk := fun s =>
      { badField := decide (255 < port) || !(width == 1 || width == 2 || width == 4 || width == 8) || decide (7 < rate) ||
          decide (2 < fec) || decide (7 < flags) || decide (255 < mask)
        own := s.portSetOwn (x 0) }
    work := fun id s => { s with prt := { s.prt with sets := s.prt.sets ++ [x id] } } }

/-- PORT_SET: applied, and completed, at the next boundary (R138). -/
def execPortSet (h : Hdr) (port width rate fec flags mask : Nat) (s : State) : Res :=
  s.issue h (.portSet h port width rate fec flags mask) (specPortSet h port width rate fec flags mask)

/-- The registers of port p read their reset values (R190). -/
def State.portReset (s : State) (p absorbed : Nat) : State :=
  s.setRegs ((([.PRT_MODE_ADMIN_UP, .PRT_MODE_UP, .PRT_MODE_RATE, .PRT_MODE_WIDTH, .PRT_MODE_FEC, .PRT_MODE_PREEMPT,
    .PRT_MODE_PFC, .PRT_MODE_PFC_MASK, .PRT_MAXLEN_MAXLEN, .PRT_PREEMPT_VERIFY, .PRT_PREEMPT_ADD_FRAG,
    .PRT_PREEMPT_STATE, .PRT_PREEMPT_VERIFY_MS, .PRT_PFC_QUANTA, .PRT_PFC_XOFF_TX, .PRT_PFC_XOFF_RX, .PRT_HOLD_LIMIT,
    .PRT_VENT_EN, .PRT_VENT_TICKS, .PRT_DLY_RX, .PRT_DLY_TX] : List Fld).map fun f => (f, p, f.reset p)) ++
    [(.PRT_MODE_ABSORBED, p, absorbed)])

/-- One PORT_SET applies at its boundary (R138, R190). -/
def State.applyPortSet (s : State) (x : PortSet) : State :=
  let p := x.port
  let old := s.reg .PRT_MODE_WIDTH p
  let wasUp := s.flag .PRT_MODE_ADMIN_UP p
  let hadPre := s.flag .PRT_MODE_PREEMPT p
  let s := if wasUp ∧ !x.admin then
      (portLanes p old).foldl (fun s i => s.laneAdminDown i) (s.portDown p 2)
    else s
  -- lanes beyond a narrowed port go back to their reset state; ports on new lanes are absorbed
  let freed := (portLanes p old).filter fun q => decide (p + x.width ≤ q)
  let taken := (portLanes p x.width).filter fun q => decide (p + old ≤ q)
  let s := freed.foldl (fun s q => s.portReset q 0) s
  let s := taken.foldl (fun s q => s.portReset q 1) s
  let s := s.setRegs [(.PRT_MODE_ADMIN_UP, p, b2n x.admin), (.PRT_MODE_RATE, p, x.rate), (.PRT_MODE_WIDTH, p, x.width),
    (.PRT_MODE_FEC, p, x.fec), (.PRT_MODE_PREEMPT, p, b2n x.preempt), (.PRT_MODE_PFC, p, b2n x.pfc),
    (.PRT_MODE_PFC_MASK, p, x.mask),
    (.PRT_DLY_RX, p, Config.dieDelay (x.rate * 64 + x.width * 4 + x.fec) 0),
    (.PRT_DLY_TX, p, Config.dieDelay (x.rate * 64 + x.width * 4 + x.fec) 1)]
  let s := if s.flag .PRT_MODE_UP p ∧ hadPre ≠ x.preempt then s.preemptStart p else s
  -- SHORT lanes start again on any PORT_SET that leaves the port up (R172)
  let s := if x.admin then
      (portLanes p x.width).foldl (fun s i =>
        if !wasUp ∨ s.laneState i = 9 then s.portLaneStart i (s.portRung p) else s) s
    else s
  s.complete x.id stOK []

/-! ### PFC and pause (R204-R206) -/

def pkey (p prio : Nat) : Nat := p * 8 + prio

/-- Priority of a class (PRT_PFC_MAP): 0 timing, 1 express, 2 media, 3 control, 4 best-effort. -/
def State.classPrio (s : State) (c : Nat) : Nat :=
  match c with
  | 0 => s.reg .PRT_PFC_MAP_TIMING | 1 => s.reg .PRT_PFC_MAP_EXPRESS | 2 => s.reg .PRT_PFC_MAP_MEDIA
  | 3 => s.reg .PRT_PFC_MAP_CONTROL | _ => s.reg .PRT_PFC_MAP_BEST

/-- The priority is paused by the partner (R206). -/
def State.paused (s : State) (p prio : Nat) : Bool := bit (s.reg .PRT_PFC_XOFF_RX p) prio

/-- No new frame of the priority starts: its pause has taken hold, or its release has not yet (R206). -/
def State.stopped (s : State) (p prio : Nat) : Bool :=
  (s.paused p prio && decide (tget 0 s.prt.pauseFrom (pkey p prio) ≤ s.grains)) ||
    decide (s.grains < tget 0 s.prt.pauseTo (pkey p prio))

/-- Grains of `q` pause quanta at a port's rate: 512 bit times each (R206). -/
def quantaGrains (gbps q : Nat) : Nat := q * 512 * 65536 / gbps

/-- The pause of a priority ends, and with it a vent (R206, R209). -/
def State.unpause (s : State) (p prio : Nat) : State :=
  let k := pkey p prio
  let vents := s.prt.vent.filter fun x => x.1 / 8 == k
  let s := s.setReg .PRT_PFC_XOFF_RX p (s.reg .PRT_PFC_XOFF_RX p - (if s.paused p prio then 2 ^ prio else 0))
  let s := { s with prt := { s.prt with
    pauseEnd := tdel k s.prt.pauseEnd, pauseFrom := tdel k s.prt.pauseFrom, pausedSince := tdel k s.prt.pausedSince,
    vent := s.prt.vent.filter fun x => x.1 / 8 != k,
    holdTold := tset 0 k (tget 0 s.prt.holdTold k % 2) s.prt.holdTold } }
  vents.foldl (fun (s : State) x => s.evLow 37 p [(1, x.1 % 8), (4, x.2 - 1)]) s

/-- A priority is paused for `q` quanta from now (R206). The instant within 32 CORE cycles at which it takes hold, or at
which a release does, is a free value (log entry 6). -/
def State.pauseFor (s : State) (p prio q : Nat) : State :=
  if q = 0 then
    if s.paused p prio then
      let u := s.unpause p prio
      { u with prt := { u.prt with
        pauseTo := tins (pkey p prio) (u.grains + Config.freePauseHold u.freeCtr % 33 * 40960) u.prt.pauseTo } }.fresh
    else s
  else
    let k := pkey p prio
    let fresh := !s.paused p prio
    let s := s.setReg .PRT_PFC_XOFF_RX p (s.reg .PRT_PFC_XOFF_RX p ||| 2 ^ prio)
    { s with prt := { s.prt with
        pauseEnd := tins k (s.grains + quantaGrains (s.portGbps p) q) s.prt.pauseEnd
        pauseFrom := if fresh then tins k (s.grains + Config.freePauseHold s.freeCtr % 33 * 40960) s.prt.pauseFrom
                     else s.prt.pauseFrom
        pausedSince := if fresh then tins k (s.clk.tickCount + 1) s.prt.pausedSince else s.prt.pausedSince } }.fresh

/-- E040 with the priorities of an ignored frame (R204, R212). -/
def State.pauseIgnored (s : State) (p prios : Nat) : State := s.evTally 40 p [(1, prios, .or)]

/-- A pause frame is received (R204, R206): `quanta` lists the priorities a PFC frame enables with their quanta; a PAUSE
frame carries one value for all. An ignored PAUSE counts for every priority, as its E040 names them (log entry 160). -/
def doPauseFrameReceive (p : Nat) (isPfc : Bool) (quanta : List (Nat × Nat)) (all : Nat) (s : State) : State :=
  let usesPfc := p < 256 ∧ s.flag .PRT_MODE_PFC p
  let bitmap := quanta.foldl (fun b q => b ||| 2 ^ q.1) 0
  let count (s : State) (k : Nat) : State := (s.portCount p (11 + k) 1).tally 12 5 1 (k + 1) 0 p 1
  let s := if isPfc then quanta.foldl (fun s q => count s q.1) s
    else if usesPfc then (List.range 8).foldl count s else s
  (if isPfc ∧ usesPfc then
      let mask := s.reg .PRT_MODE_PFC_MASK p
      let bad := quanta.filter fun q => !bit mask q.1
      let s := (quanta.filter fun q => bit mask q.1).foldl (fun s q => s.pauseFor p q.1 q.2) s
      if bad.isEmpty then s else s.pauseIgnored p (bad.foldl (fun b q => b ||| 2 ^ q.1) 0)
    else if isPfc then s.pauseIgnored p bitmap
    else if usesPfc then s.pauseIgnored p 255
    else (List.range 8).foldl (fun s k => s.pauseFor p k all) s)

/-- The row of `doPauseFrameReceive`. -/
def execPauseFrameReceive (p : Nat) (isPfc : Bool) (quanta : List (Nat × Nat)) (all : Nat) (s : State) : Res := run (doPauseFrameReceive p isPfc quanta all) s

/-- A pause runs out (R206). -/
def doPauseExpiry (p prio : Nat) (s : State) : State :=
  (if s.paused p prio ∧ tget 0 s.prt.pauseEnd (pkey p prio) ≤ s.grains then s.unpause p prio else s)

/-- The row of `doPauseExpiry`. -/
def execPauseExpiry (p prio : Nat) (s : State) : Res := run (doPauseExpiry p prio) s

/-! ### The bucket of the express policer (R329) -/

/-- Units of the bucket in a byte: RATE in Mb/s adds RATE units a grain. -/
def bucketUnit : Nat := 524288000

/-- The bucket of a port now, in units. -/
def State.bucketNow (s : State) (p : Nat) : Int :=
  let cap : Int := s.reg .EGR_EXP_BURST p * bucketUnit
  let l := tget (512 * bucketUnit : Int) s.egr.bucket p
  min cap (l + (s.reg .EGR_EXP_RATE p : Int) * ((s.grains - tget 0 s.egr.bucketAt p : Nat) : Int))

/-- The bucket stands at `v` now. -/
def State.setBucket (s : State) (p : Nat) (v : Int) : State :=
  { s with egr := { s.egr with
    bucket := tset (512 * bucketUnit : Int) p v s.egr.bucket, bucketAt := tset 0 p s.grains s.egr.bucketAt } }

/-- Bytes are taken from the bucket, which may fall below 0. -/
def State.charge (s : State) (p len : Nat) : State := s.setBucket p (s.bucketNow p - (len * bucketUnit : Nat))

/-- A priority has been held for PRT_HOLD.LIMIT ticks (R208): E036 once per hold, with the direction (1 sending XOFF,
2 paused by the partner). -/
def State.holdLimit (s : State) (p prio : Nat) (sending : Bool) : State :=
  let k := pkey p prio
  let lim := s.reg .PRT_HOLD_LIMIT p
  let since := if sending then tget 0 s.swc.holdSince k else tget 0 s.prt.pausedSince k
  let told := bit (tget 0 s.prt.holdTold k) (b2n !sending)
  if lim ≠ 0 ∧ since ≠ 0 ∧ lim ≤ s.clk.tickCount + 1 - since ∧ !told then
    let s := s.evLow 36 p [(1, if sending then 1 else 2), (1, prio), (4, s.clk.tickCount + 1 - since)]
    { s with prt := { s.prt with holdTold := tupd 0 k (· + (if sending then 1 else 2)) s.prt.holdTold } }
  else s

def doHoldLimit (p prio : Nat) (sending : Bool) (s : State) : State := (s.holdLimit p prio sending)

/-- The row of `doHoldLimit`. -/
def execHoldLimit (p prio : Nat) (sending : Bool) (s : State) : Res := run (doHoldLimit p prio sending) s

/-- Classes of a priority that PRT_VENT.EN lets the port give up. -/
def State.ventClasses (s : State) (p prio : Nat) : List Nat :=
  (List.range 5).filter fun c => s.classPrio c == prio && bit (s.reg .PRT_VENT_EN p) (4 - c)

/-- The vent that takes the frames of class `c` for port `p`, while the pause that began it lasts (R209). -/
def State.ventOf (s : State) (p c : Nat) : Option Nat :=
  (s.prt.vent.find? fun x => x.1 / 64 == p && x.1 % 8 == c).map Prod.fst

/-- Verification (R201). `kind`: 0 a verify mPacket is sent, 1 the partner's verify is answered, 2 the partner's response
arrives, 3 the last try has found no response. Sends keep VERIFY_MS between them. -/
def doPreemptVerify (p kind : Nat) (s : State) : State :=
  let st := s.reg .PRT_PREEMPT_STATE p
  let tries := tget 0 s.prt.verifyTries p
  -- VERIFY_MS has passed since the last one, in ticks of 1 µs
  let due := tries == 0 || decide (tget 0 s.prt.verifyAt p + 1000 * s.reg .PRT_PREEMPT_VERIFY_MS p ≤ s.clk.tickCount)
  (match kind with
    | 0 => if st = 1 ∧ tries < 3 ∧ due then
        { s with prt := { s.prt with
            verifyTries := tins p (tries + 1) s.prt.verifyTries
            verifyAt := tins p s.clk.tickCount s.prt.verifyAt } }.emit (.verify p 0) else s
    | 1 => if s.flag .PRT_MODE_PREEMPT p ∧ s.flag .PRT_MODE_UP p then s.emit (.verify p 1) else s
    | 2 => if st = 1 then (s.setReg .PRT_PREEMPT_STATE p 2).evLow 35 p [(1, 2), (4, tries)] else s
    | _ => if st = 1 ∧ 3 ≤ tries ∧ due then (s.setReg .PRT_PREEMPT_STATE p 3).evLow 35 p [(1, 3), (4, tries)] else s)

/-- The row of `doPreemptVerify`. -/
def execPreemptVerify (p kind : Nat) (s : State) : Res := run (doPreemptVerify p kind) s

end Machine
end Sys2Proof
end

