-- ==== Sys2Proof/Machine/Oasis.lean ====
section
/-!
DEFINITION. The Oasis (ch. 08): cells and their metadata, free pointers, the pools, requests, releases, and the dust devil.
-/
namespace Sys2Proof
namespace Machine

/-! ### Free pointers (R267-R270) -/

/-- Pointers in a list of ranges. -/
def ptrCount (l : Ptrs) : Nat := l.foldl (fun n r => n + r.2) 0

/-- Append one pointer. -/
def ptrPush (c : Nat) : Ptrs → Ptrs
  | [] => [(c, 1)]
  | [(a, n)] => if a + n = c then [(a, n + 1)] else [(a, n), (c, 1)]
  | r :: t => r :: ptrPush c t

/-- Append ranges. -/
def ptrAppend (a b : Ptrs) : Ptrs := (a ++ b).filter fun r => decide (0 < r.2)

/-- The `k`-th pointer, and the rest. -/
def ptrTakeAt : Nat → Ptrs → Option (Nat × Ptrs)
  | _, [] => none
  | k, (a, n) :: t =>
    if k < n then some (a + k, ((if k = 0 then [] else [(a, k)]) ++ (if n ≤ k + 1 then [] else [(a + k + 1, n - k - 1)])) ++ t)
    else (ptrTakeAt (k - n) t).map fun r => (r.1, (a, n) :: r.2)

/-- The first `n` pointers, and the rest. -/
def ptrSplit : Nat → Ptrs → Ptrs × Ptrs
  | _, [] => ([], [])
  | 0, l => ([], l)
  | n, (a, m) :: t =>
    if m ≤ n then let r := ptrSplit (n - m) t; ((a, m) :: r.1, r.2)
    else ([(a, n)], (a + n, m - n) :: t)

/-- `c` lies in one of the ranges. -/
def ptrHas (c : Nat) (l : Ptrs) : Bool := l.any fun r => decide (r.1 ≤ c ∧ c < r.1 + r.2)

/-- Cells of the buffer (R254). -/
def cellCount : Nat := 786432

/-- Slice of a port (R23); management ports and the host enter through S0 (R26). -/
def sliceOf (p : Nat) : Nat := if p < 256 then p / 32 else 0

/-- The places of R270: the timing list, then the caches of the slices, the refill buffer and the ring in ascending order. -/
def State.oasPlaces (s : State) (timing : Nat) : State :=
  let put (n : Nat) : Ptrs × Ptrs → Ptrs × Ptrs := fun r => ptrSplit n r.2
  let rest : Ptrs := [(timing, cellCount - timing)]
  let step := (List.range 8).foldl (fun (a : Tab Ptrs × Ptrs) k =>
    let r := put 256 ([], a.2); (tins k r.1 a.1, r.2)) ([], rest)
  let r := ptrSplit 4096 step.2
  { s with oas := { s.oas with
      timing := [(0, timing)], cache := step.1, refill := r.1, ring := r.2, reads := [], cells := [], ord := [], hdrm := []
      book := CycleBook.empty } }

/-- Place of slice `sl` in the order that Oasis serves in this CORE cycle (R264). -/
def State.rot (s : State) (sl : Nat) : Nat := (sl + 8 - s.clk.cycle % 8) % 8

/-- The sweep is in MARK or SWEEP. -/
def State.sweeping (s : State) : Bool := s.reg .OAS_DUST_STATUS_STATE != 0

/-- Every allocation, free and pointer move marks its cell while a sweep runs (R278). -/
def State.markCell (s : State) (c : Nat) : State :=
  if s.sweeping ∧ !ptrHas c s.oas.marks then { s with oas := { s.oas with marks := ptrPush c s.oas.marks } } else s

/-- A line of the free ring is read or written: the one that its pointers fill up to (R249). -/
def State.ringAsk (s : State) : State := s.ask 3 (cisLine 6 (ptrCount s.oas.ring / 24 % 65536)) 1

/-- Issue free-ring reads below LOW, at most 16 outstanding, and spill above HIGH, 24 pointers a line (R268). Requester 3
of the arbiter carries each line. -/
def State.refillWork : Nat → State → State
  | 0, s => s
  | n + 1, s =>
    let o := s.oas
    let have_ := ptrCount o.refill
    if have_ < s.reg .OAS_REFILL_LOW ∧ o.reads.length < 16 ∧ o.ring ≠ [] ∧
        have_ + 24 * o.reads.length < s.reg .OAS_REFILL_LOW + 24 * 16 then
      let r := ptrSplit 24 o.ring
      State.refillWork n (({ s with oas := { o with ring := r.2, reads := o.reads ++ [r.1] } } : State).ringAsk.tally 15 6 1 0 0 0 1)
    else if s.reg .OAS_REFILL_HIGH < have_ then
      let r := ptrSplit 24 o.refill
      State.refillWork n (({ s with oas := { o with refill := r.2, ring := ptrAppend o.ring r.1 } } : State).ringAsk.tally 15 6 2 0 0 0 1)
    else s

/-- The fill of R270; the refill buffer then spills what stands above HIGH (R268). -/
def State.oasFill (s : State) (timing : Nat) : State := State.refillWork 256 (s.oasPlaces timing)

/-- A freed pointer (R267): the timing list for a cell of the timing pool, else the cache of the slice that released it
while it holds fewer than 256, else the refill buffer. -/
def State.placePtr (s : State) (sl c : Nat) : State :=
  let s := s.markCell c
  let o := s.oas
  if c < s.reg .OAS_TIMING_CELLS then { s with oas := { o with timing := ptrPush c o.timing } }
  else
    let mine := tget [] o.cache sl
    if ptrCount mine < 256 then { s with oas := { o with cache := tins sl (ptrPush c mine) o.cache } }
    else State.refillWork 64 { s with oas := { o with refill := ptrPush c o.refill } }

/-- The account of this CORE cycle: a new cycle starts it afresh, and cells freed in an earlier one can be allocated
again (R265). -/
def State.book (s : State) : State :=
  if s.oas.book.at_ = s.coreCycle then s
  else
    let l := s.oas.book.limbo
    let s := { s with oas := { s.oas with book := { CycleBook.empty with at_ := s.coreCycle } } }
    l.foldl (fun (s : State) x => s.placePtr x.2 x.1) s

/-- Hand out a pointer (R259, R267): from the timing list, or the slice's cache, or the refill buffer. Which of the
pointers of an on-die store is a free value (log entry 7). -/
def State.takePtr (s : State) (pool sl : Nat) : Option (Nat × State) :=
  let o := s.oas
  let pick (l : Ptrs) := ptrTakeAt (Config.freePick s.freeCtr % ptrCount l) l
  if pool = 0 then (pick o.timing).map fun r => (r.1, { s with oas := { o with timing := r.2 } }.fresh)
  else
    let mine := tget [] o.cache sl
    if mine ≠ [] then (pick mine).map fun r => (r.1, { s with oas := { o with cache := tins sl r.2 o.cache } }.fresh)
    else (pick o.refill).map fun r => (r.1, State.refillWork 64 { s with oas := { o with refill := r.2 } }.fresh)

/-! ### The metadata of a cell (R256) -/

def State.cell (s : State) (c : Nat) : Cell := tget Cell.fresh s.oas.cells c
def State.setCell (s : State) (c : Nat) (x : Cell) : State :=
  { s with oas := { s.oas with cells := tset Cell.fresh c x s.oas.cells } }

/-- Bits 47 to 1 of a cell's metadata word; `mark` is the mark of the current sweep. -/
def Cell.fields (x : Cell) (mark : Bool) : Nat :=
  x.next % 2 ^ 20 * 2 ^ 28 + x.ref % 2 ^ 10 * 2 ^ 18 + b2n x.state * 2 ^ 17 + x.pool % 4 * 2 ^ 15 + b2n x.hr * 2 ^ 14 +
    x.port % 2 ^ 8 * 2 ^ 6 + b2n mark * 2 ^ 5

/-- The 48 bits as stored: PAR is the even parity of bits 47 to 1, unless an upset has changed a bit. -/
def Cell.metaWord (x : Cell) (mark : Bool) : Nat := x.fields mark + (parity 48 (x.fields mark) + b2n x.parBad) % 2

/-- The check of a metadata word. -/
def metaSound (w : Nat) : Bool := parity 48 w == 0

/-! ### Pools (R260-R266, R282) -/

def State.inUse (s : State) (p : Nat) : Nat := s.reg .OAS_POOL_USE_IN_USE p
def State.hdrmUse (s : State) (p : Nat) : Nat := s.reg .OAS_POOL_HUSE_HDRM_USE p

/-- A port's headroom limit for a pool (OAS_HDRMp_A, _B). -/
def State.portHdrm (s : State) (port pool : Nat) : Nat :=
  match pool with
  | 0 => s.reg .OAS_HDRM_A_TIMING port
  | 1 => s.reg .OAS_HDRM_A_MEDIA port
  | 2 => s.reg .OAS_HDRM_B_CONTROL port
  | _ => s.reg .OAS_HDRM_B_BEST port

/-- Why a request failed (E080 order; 5 SHARE, 6 deferred under R262). -/
inductive CellFail where
  | limit | headroom | dry | contention | share | deferred
deriving DecidableEq, Repr

def CellFail.code (r : CellFail) : Nat :=
  match r with
  | .limit => 1 | .headroom => 2 | .dry => 3 | .contention => 4 | .share => 5 | .deferred => 6

/-- Count a failed request (R266, E080, E084). -/
def State.cellFailed (s : State) (r : CellFail) (pool port : Nat) : State :=
  let c := r.code
  let s := (s.tally 15 2 1 c 0 pool 1).evT 80 ((List.range 4).map (fun k => (2, b2n (k + 1 == c), Mg.sum)) ++
    [(1, 2 ^ pool, .or), (2, port, .low)])
  if r = .dry then s.evT 84 [(4, 1, .sum), (4, ptrCount s.oas.refill, .new), (4, s.oas.reads.length, .new)] else s

/-- IN_USE of a pool rises or falls, with the thresholds of R282. -/
def State.setInUse (s : State) (p v : Nat) : State :=
  let s := (s.setReg .OAS_POOL_USE_IN_USE p v).figPool p ((s.reg .OAS_POOL_LIMIT_LIMIT p : Int) - v)
  let hi := 16 * s.reg .OAS_POOL_WARN_HIGH p
  if hi = 0 then s
  else if !s.flag .OAS_POOL_USE_ABOVE_HIGH p ∧ hi ≤ v then
    (s.setReg .OAS_POOL_USE_ABOVE_HIGH p 1).ev 81 [(1, p), (4, v)]
  else if s.flag .OAS_POOL_USE_ABOVE_HIGH p ∧ v < 16 * s.reg .OAS_POOL_WARN_LOW p then
    (s.setReg .OAS_POOL_USE_ABOVE_HIGH p 0).ev 82 [(1, p), (4, v)]
  else s

/-- The port with the most headroom cells of a pool. -/
def State.mostHdrm (s : State) (pool : Nat) : Nat :=
  (s.oas.hdrm.foldl (fun (a : Nat × Nat) x => if x.1 % 4 = pool ∧ a.2 < x.2 then (x.1 / 4, x.2) else a) (0, 0)).1

/-- HDRM_USE of a pool rises or falls; reaching HDRM raises E083 (R282). -/
def State.setHdrmUse (s : State) (p v : Nat) : State :=
  let rises := s.hdrmUse p < v
  let s := s.setReg .OAS_POOL_HUSE_HDRM_USE p v
  s.evIf (rises && v == s.reg .OAS_POOL_HDRM_HDRM p) 83 [(1, p), (2, s.mostHdrm p)]

/-- Metadata whose parity fails: the cell stays as it is (R276); `place`: 1 request, 2 release, 3 egress read. -/
def State.parityFound (s : State) (c place : Nat) : State :=
  let x := s.cell c
  if x.found = true then s
  else ((s.setCell c { x with parBad := true, found := true }).ev 90 [(4, c), (1, place)]).tally 15 9 2 0 0 x.pool 1

/-- A bit of a cell's metadata has changed: its parity is wrong until Oasis finds it (R256, R276). -/
def State.metaUpset (s : State) (c : Nat) : State :=
  s.setCell c { s.cell c with parBad := true }

/-- A pointer whose cell has sound metadata: one whose parity is found wrong at the request is left as it is (R276). -/
def State.takeSound (pool sl : Nat) : Nat → State → State × Option Nat
  | 0, s => (s, none)
  | n + 1, s =>
    match s.takePtr pool sl with
    | none => (s, none)
    | some (c, s) => if (s.cell c).parBad then State.takeSound pool sl n (s.parityFound c 1) else (s, some c)

/-- The account of a cell's port and pool: a port's headroom cells and its ordinary cells (R260, R295). -/
def State.portCell (s : State) (hr : Bool) (key : Nat) (f : Nat → Nat) : State :=
  let o := s.oas
  { s with oas := if hr then { o with hdrm := tupd 0 key f o.hdrm } else { o with ord := tupd 0 key f o.ord } }

/-- The cell goes to the request of slice `sl`, with fresh metadata (R263). -/
def State.grantCell (s : State) (c sl pool port : Nat) (hr : Bool) : State :=
  let cell : Cell := { Cell.fresh with
    state := true, pool := pool, hr := hr, port := port % 256, next := Config.freeNext s.freeCtr % 2 ^ 20 }
  let s := (s.fresh.setCell c cell).portCell hr (port * 4 + pool) (· + 1)
  let b := s.oas.book
  { s with oas := { s.oas with book := { b with grants := ⟨c, sl, pool, port, hr⟩ :: b.grants } } }

/-- The grant of this CORE cycle, of a slice that Oasis serves after `sl`, that the order of R264 gives last. -/
def State.lastGrant (s : State) (sl pool : Nat) (hr : Bool) : Option Grant :=
  (s.oas.book.grants.filter fun g => g.pool == pool && g.hr == hr && decide (s.rot sl < s.rot g.sl)).foldl
    (fun a g => match a with
      | none => some g
      | some x => if s.rot x.sl < s.rot g.sl then some g else a) none

/-- A grant of this CORE cycle goes to a slice that comes first: its frame asks again in the next one (R264). -/
def State.ungrant (s : State) (g : Grant) : State :=
  let b := s.oas.book
  let s := { s with oas := { s.oas with book := { b with grants := b.grants.filter fun x => x.cell != g.cell } } }
  let s := (s.portCell g.hr (g.port * 4 + g.pool) (· - 1)).cellFailed .contention g.pool g.port
  let back (f : Frame) : Frame :=
    if f.cells.contains g.cell then { f with cells := f.cells.erase g.cell, want := f.want + 1, hr := g.hr } else f
  { s with swc := { s.swc with frames := s.swc.frames.map fun x => (x.1, back x.2) } }

/-- One cell request (R262-R264). `hr` asks for headroom. The cells freed in this CORE cycle still count (R265). Where the
requests of one cycle compete for fewer cells than they ask for, those of the slices that come first in its order are served,
also ahead of one served already, and the others fail with CONTENTION (R264). -/
def State.cellRequest (s : State) (sl pool port : Nat) (hr : Bool) : State × (Nat ⊕ CellFail) :=
  let s := s.book
  let b := s.oas.book
  if 4 ≤ tget 0 b.reqs sl then (s, .inr .deferred)
  else
    let s := { s with oas := { s.oas with book := { b with reqs := tupd 0 sl (· + 1) b.reqs } } }
    let granted := (b.grants.filter fun g => g.pool == pool && g.hr == hr).length
    let use := (if hr then s.hdrmUse pool else s.inUse pool) + tget 0 b.freed (pool + if hr then 4 else 0)
    let lim := if hr then s.reg .OAS_POOL_HDRM_HDRM pool else s.reg .OAS_POOL_LIMIT_LIMIT pool
    let no (s : State) (r : CellFail) := (s.cellFailed r pool port, Sum.inr r)
    -- a cell that the order of R264 gives to this request, or none
    let contest (s : State) (r : CellFail) : State × (Nat ⊕ CellFail) :=
      match s.lastGrant sl pool hr with
      | some g => ((s.ungrant g).grantCell g.cell sl pool port hr, .inl g.cell)
      | none => no s r
    if hr ∧ s.portHdrm port pool ≤ tget 0 s.oas.hdrm (port * 4 + pool) then no s .headroom
    else if lim ≤ use then
      if use - granted < lim then contest s .contention else no s (if hr then .headroom else .limit)
    else
      let r := State.takeSound pool sl 64 s
      match r.2 with
      | none => if granted = 0 then no r.1 .dry else contest r.1 .contention
      | some c =>
        let s := (r.1.markCell c).grantCell c sl pool port hr
        let s := if hr then s.setHdrmUse pool (s.hdrmUse pool + 1) else s.setInUse pool (s.inUse pool + 1)
        (s.tally 15 1 (if hr then 2 else 1) 0 0 pool 1, .inl c)

/-- Set REF of the cells of a frame (R272). -/
def State.setRefs (s : State) (cells : List Nat) (n : Nat) : State :=
  cells.foldl (fun (s : State) c => s.setCell c { s.cell c with ref := n % 1024 }) s

/-- Link a frame's cells in order (R254). -/
def State.linkCells (s : State) : List Nat → State
  | a :: b :: t => State.linkCells (s.setCell a { s.cell a with next := b }) (b :: t)
  | _ => s

/-- A cell whose references have gone, or that is reclaimed, becomes free (R273): the counts fall, and from the next
CORE cycle its pointer is available (R265). `owner` is the ingress port of its frame. -/
def State.freeCell (s : State) (sl c owner : Nat) : State :=
  let s := s.book
  let x := s.cell c
  let key := (if x.hr then x.port else owner) * 4 + x.pool
  let s := s.setCell c { x with state := false, ref := 0 }
  let o := s.oas
  let s := { s with oas := { o with
    hdrm := if x.hr then tupd 0 key (· - 1) o.hdrm else o.hdrm
    ord := if x.hr then o.ord else tupd 0 key (· - 1) o.ord
    book := { o.book with
      freed := tupd 0 (x.pool + if x.hr then 4 else 0) (· + 1) o.book.freed
      limbo := o.book.limbo ++ [(c, sl)] } } }
  let s := if x.hr then s.setHdrmUse x.pool (s.hdrmUse x.pool - 1) else s.setInUse x.pool (s.inUse x.pool - 1)
  (s.markCell c).tally 15 4 1 0 0 x.pool 1

/-- The slice whose decrement exceeds REF, taking the cycle's decrements in the order of R264 (R274). -/
def State.overSlice (s : State) (ref : Nat) (l : List (Nat × Nat)) : Nat :=
  let rec go : Nat → List (Nat × Nat) → Nat
    | _, [] => 0
    | n, (k, d) :: t => if n < d then k else go (n - d) t
  go ref ((List.range 8).flatMap fun r => l.filter fun x => s.rot x.1 == r)

/-- A double free of cell `c` by slice `sl`: one for a combined decrement, which `more` says is reported already (R274). -/
def State.doubleFree (s : State) (c sl : Nat) (more : Bool) : State :=
  if !more then (s.evT 85 [(4, c, .keep), (2, sl, .keep), (4, 1, .sum)]).tally 15 5 1 0 0 (s.cell c).pool 1
  else
    let told (e : Nat) (a : EvAcc) : EvAcc :=
      if e = 85 ∧ ofLE (slice a.detail 0 4) = c then { a with detail := slice a.detail 0 4 ++ le 2 sl ++ a.detail.drop 6 } else a
    { s with evAcc := s.evAcc.map fun x => (x.1, told x.1 x.2) }

/-- A release of `n` references of a cell by slice `sl`, one part of the cycle's combined decrement (R272-R274, R276). -/
def State.cellRelease (s : State) (sl c n owner : Nat) : State :=
  let s := s.book
  let x := s.cell c
  let s := s.tally 15 3 1 0 0 x.pool n
  if x.parBad then s.parityFound c 2
  else
    let left := if x.state then x.ref else 0
    let d := tget (left, []) s.oas.book.decs c
    let before := (d.2.map Prod.snd).sum
    let all := d.2 ++ [(sl, n)]
    let s := { s with oas := { s.oas with book := { s.oas.book with decs := tins c (d.1, all) s.oas.book.decs } } }
    let s := if before + n ≤ d.1 then s else s.doubleFree c (s.overSlice d.1 all) (decide (d.1 < before))
    let ok := min n left
    if ok = 0 then s
    else if ok = left then s.freeCell sl c owner
    else s.setCell c { x with ref := left - ok }

/-- Release every cell of a frame by its whole count (R272: a frame discarded before it leaves). -/
def State.releaseAll (s : State) (cells : List Nat) (owner : Nat) : State :=
  cells.foldl (fun (s : State) c => s.cellRelease (sliceOf owner) c (max 1 (s.cell c).ref) owner) s

/-! ### Queries (R257, R271) -/

/-- OAS_CELL_QUERY with GO: the metadata of CELL (R257). -/
def doCellQuery (c : Nat) (s : State) : State :=
  let s := s.setReg .OAS_CELL_QUERY_CELL 0 c
  let c := s.reg .OAS_CELL_QUERY_CELL
  let w := (s.cell c).metaWord (ptrHas c s.oas.marks)
  s.setRegs [(.OAS_CELL_RESULT_DONE, 0, 1), (.OAS_CELL_RESULT_STATE, 0, bits w 17 17), (.OAS_CELL_RESULT_HR, 0, bits w 14 14),
    (.OAS_CELL_RESULT_POOL, 0, bits w 16 15), (.OAS_CELL_RESULT_MARK, 0, bits w 5 5),
    (.OAS_CELL_RESULT_PAR_ERR, 0, b2n (!metaSound w)), (.OAS_CELL_RESULT_REF, 0, bits w 27 18), (.OAS_CELL_LINK_PORT, 0, bits w 13 6),
    (.OAS_CELL_LINK_NEXT, 0, bits w 47 28)]

def execCellQuery (c : Nat) (s : State) : Res := run (doCellQuery c) s

/-- A write of OAS_REFILL (R271): discarded whole with E092 unless HIGH exceeds LOW. -/
def doRefillWrite (high low : Nat) (s : State) : State :=
  let h := high % 4096
  let l := low % 4096
  if h ≤ l then s.ev 92 [(4, 4)]
  else State.refillWork 4096 (s.setRegs [(.OAS_REFILL_HIGH, 0, h), (.OAS_REFILL_LOW, 0, l)])

def execRefillWrite (high low : Nat) (s : State) : Res := run (doRefillWrite high low) s

/-- Oasis is idle (R283). -/
def State.oasIdle (s : State) : Bool :=
  (List.range 256).all (fun p => !s.flag .PRT_MODE_ADMIN_UP p) && s.reg .PRT_MPCFG_MP0 == 0 && s.reg .PRT_MPCFG_MP1 == 0 &&
    s.swc.inject.isEmpty && (List.range 4).all fun p => s.inUse p == 0 && s.hdrmUse p == 0

/-- A write of OAS_TIMING.CELLS: frozen; an accepted change refills the timing list and the free pointers (R270). -/
def doTimingCellsWrite (cells : Nat) (s : State) : State :=
  let v := cells % 2 ^ 20
  if v = s.reg .OAS_TIMING_CELLS then s
  else if !s.oasIdle ∨ v < 256 ∨ 65536 < v then s.ev 92 [(4, 0)]
  else (s.setReg .OAS_TIMING_CELLS 0 v).oasFill v

def execTimingCellsWrite (cells : Nat) (s : State) : Res := run (doTimingCellsWrite cells) s

/-- A free-ring line returns (R268); a line with a parity error is dropped with its pointers (R277). -/
def doFreeRingReadDone (bad : Bool) (line : Nat) (s : State) : State :=
  match s.oas.reads with
  | [] => s
  | r :: t =>
    if bad then
      State.refillWork 64 ((({ s with oas := { s.oas with reads := t } } : State).ev 91 [(2, line), (4, ptrCount r)]).guard 0xF 1)
    else
      let s := r.foldl (fun (s : State) x => (List.range x.2).foldl (fun (s : State) k => s.markCell (x.1 + k)) s) s
      State.refillWork 64 { s with oas := { s.oas with reads := t, refill := ptrAppend s.oas.refill r } }

def execFreeRingReadDone (bad : Bool) (line : Nat) (s : State) : Res := run (doFreeRingReadDone bad line) s

/-! ### Staged limits (R261) -/

/-- The check of R261 on the captured values. -/
def State.oasRefuses (s : State) : Bool :=
  let tot (p : Nat) := s.pendReg .OAS_POOL_LIMIT_LIMIT p + s.pendReg .OAS_POOL_HDRM_HDRM p
  let ports (f : Fld) := (List.range 256).foldl (fun n q => n + s.pendReg f q) 0
  decide (s.reg .OAS_TIMING_CELLS < tot 0) || decide (cellCount - s.reg .OAS_TIMING_CELLS < tot 1 + tot 2 + tot 3) ||
    decide (s.pendReg .OAS_POOL_HDRM_HDRM 0 < ports .OAS_HDRM_A_TIMING) ||
    decide (s.pendReg .OAS_POOL_HDRM_HDRM 1 < ports .OAS_HDRM_A_MEDIA) ||
    decide (s.pendReg .OAS_POOL_HDRM_HDRM 2 < ports .OAS_HDRM_B_CONTROL) ||
    decide (s.pendReg .OAS_POOL_HDRM_HDRM 3 < ports .OAS_HDRM_B_BEST)

/-- A committed LIMIT below IN_USE raises E093 (the case of R261). -/
def State.oasCommitted (s : State) : State :=
  (List.range 4).foldl (fun (s : State) p =>
    s.evIf (decide (s.reg .OAS_POOL_LIMIT_LIMIT p < s.inUse p)) 93 [(1, p), (4, s.reg .OAS_POOL_LIMIT_LIMIT p), (4, s.inUse p)]) s

/-! ### The dust devil (R278-R281) -/

/-- E088: 1 SKIP, 2 TIMEOUT, with the state reached. -/
def State.sweepEvent (s : State) (reason : Nat) : State := s.ev 88 [(1, reason), (1, s.reg .OAS_DUST_STATUS_STATE)]

/-- A sweep starts in MARK (R278). -/
def State.sweepStart (s : State) (reclaim : Bool) : State :=
  ({ s with oas := { s.oas with marks := [], reclaim := reclaim, began := s.clk.tickCount, due := false } }).setReg
    .OAS_DUST_STATUS_STATE 0 1

/-- SWEEP_DUE at a boundary: the sweep that PERIOD makes due starts, or is skipped while one runs (R278, R281). -/
def doSweepDue (s : State) : State :=
  if s.clk.cycle ≠ 0 ∨ !s.oas.due then s
  else if s.sweeping then ({ s with oas := { s.oas with due := false } } : State).sweepEvent 1
  else s.sweepStart false

def execSweepDue (s : State) : Res := run doSweepDue s

/-- The AUDIT_NOWs that have waited for the boundary, in the order of their acceptance: the first starts its sweep, and those
behind it find one running (R148). -/
def State.auditsStart (s : State) : State :=
  s.oas.audits.foldl (fun (s : State) x =>
    if s.sweeping then s.complete x.1 stNOROOM [] else (s.sweepStart x.2).complete x.1 stOK [])
    { s with oas := { s.oas with audits := [] } }

/-- The boundary: AUDIT_NOWs take effect, and every PERIOD of tick count a sweep falls due while OAS_DUST.EN is 1 (R50, R278). -/
def State.sweepTick (s : State) : State :=
  let s := s.auditsStart
  let p := s.reg .OAS_DUST_PERIOD
  if s.flag .OAS_DUST_EN ∧ p ≠ 0 ∧ s.clk.tickCount % p = 0 then { s with oas := { s.oas with due := true } } else s

/-- Everything that can be reached: the cells of the frames held, and the pointers of every list, the ring and its reads. -/
def State.reachable (s : State) : Ptrs :=
  let o := s.oas
  let held := s.swc.frames.flatMap fun f => f.2.cells.map fun c => (c, 1)
  held ++ o.timing ++ o.cache.flatMap (fun x => x.2) ++ o.refill ++ o.ring ++ o.reads.flatMap id ++
    o.book.limbo.map fun x => (x.1, 1)

/-- Every walk and ring read has ended: SWEEP begins (R278). -/
def doSweepMarkDone (s : State) : State :=
  if s.reg .OAS_DUST_STATUS_STATE = 1 then
    ({ s with oas := { s.oas with marks := s.oas.marks ++ s.reachable } }).setReg .OAS_DUST_STATUS_STATE 0 2
  else s

def execSweepMarkDone (s : State) : Res := run doSweepMarkDone s

/-- Insert a range by its first cell. -/
def insRange (r : Nat × Nat) : Ptrs → Ptrs
  | [] => [r]
  | q :: t => if r.1 ≤ q.1 then r :: q :: t else q :: insRange r t

/-- Cells from `at_` to the end of the buffer that no range of the sorted list covers. -/
def gaps (at_ : Nat) : Ptrs → Ptrs
  | [] => if at_ < cellCount then [(at_, cellCount - at_)] else []
  | r :: t => (if at_ < r.1 then [(at_, r.1 - at_)] else []) ++ gaps (max at_ (r.1 + r.2)) t

/-- The sweep passes the last cell (R279, R280): leaked cells are reclaimed if the sweep says so, lost ones restored, and
the totals reported. -/
def doSweepEnd (s : State) : State :=
  if s.reg .OAS_DUST_STATUS_STATE ≠ 2 then s
  else
    let un := gaps 0 (s.oas.marks.foldl (fun l r => insRange r l) [])
    let leaked := (s.oas.cells.filter fun x => x.2.state && ptrHas x.1 un).map Prod.fst
    let lost := (un.flatMap fun r => (List.range r.2).map (r.1 + ·)).filter fun c => !(s.cell c).state
    let reclaim := s.flag .OAS_DUST_RECLAIM || s.oas.reclaim
    let pools := leaked.foldl (fun b c => b ||| 2 ^ (s.cell c).pool) 0
    let s := if reclaim then
        leaked.foldl (fun (s : State) c => (s.freeCell 0 c (s.cell c).port).setCell c Cell.fresh) s
      else s
    let s := lost.foldl (fun (s : State) c => s.placePtr 0 c) s
    let s := s.setRegs [(.OAS_DUST_LEAKED_CELLS, 0, leaked.length), (.OAS_DUST_LOST_CELLS, 0, lost.length),
      (.OAS_DUST_STATUS_STATE, 0, 0)]
    let s := (s.wrapReg .OAS_DUST_STATUS_SWEEPS 0 1).tally 15 7 1 0 0 0 1
    let s := (s.tally 15 8 1 0 0 0 leaked.length).tally 15 8 3 0 0 0 lost.length
    let s := if reclaim then s.tally 15 8 2 0 0 0 leaked.length else s
    let s := s.evIf (!leaked.isEmpty) 86 [(4, leaked.length), (4, leaked.headD 0), (1, pools), (1, b2n reclaim)]
    s.evIf (!lost.isEmpty) 87 [(4, lost.length), (4, lost.headD 0)]

def execSweepEnd (s : State) : Res := run doSweepEnd s

/-- MARK has lasted PERIOD ticks: the sweep is abandoned (R278). -/
def doSweepTimeout (s : State) : State :=
  if s.reg .OAS_DUST_STATUS_STATE = 1 ∧ s.reg .OAS_DUST_PERIOD ≤ s.clk.tickCount - s.oas.began then
    (s.sweepEvent 2).setReg .OAS_DUST_STATUS_STATE 0 0
  else s

def execSweepTimeout (s : State) : Res := run doSweepTimeout s

/-- AUDIT_NOW (R148): a sweep at the next boundary; NO_ROOM while one runs. -/
def specAuditNow (reclaim : Nat) : Spec :=
  { opc := 0x81
    chk := fun s => { badField := decide (1 < reclaim), noRoom := s.sweeping }
    work := fun id s => { s with oas := { s.oas with audits := s.oas.audits ++ [(id, reclaim == 1)] } } }

def execAuditNow (h : Hdr) (reclaim : Nat) (s : State) : Res := s.issue h (.auditNow h reclaim) (specAuditNow reclaim)

end Machine
end Sys2Proof
end

