-- ==== Sys2Proof/Machine/Parse.lean ====
section
/-!
DEFINITION. The parser (R214, R215): what it reads from the first 128 bytes of a frame.
-/
namespace Sys2Proof
namespace Machine

/-- The PTP header fields the classifier passes on (R214). -/
structure PtpHead where
  /-- offset of the PTP header in the frame -/
  off : Nat
  msg : Nat
  version : Nat
  len : Nat
  domain : Nat
  twoStep : Bool
  seq : Nat
deriving DecidableEq, Repr

/-- What the parser finds. -/
structure Parsed where
  /-- a header ran beyond byte 127 (R215) -/
  short : Bool
  dmac : List Nat
  smac : List Nat
  /-- outer tag: TPID and TCI -/
  tag : Option (Nat × Nat)
  /-- offset of the outer VLAN ID, 0 when untagged -/
  tagOff : Nat
  etype : Nat
  /-- end of the Ethernet and VLAN headers -/
  l2End : Nat
  /-- 0, 4 or 6 -/
  ip : Nat
  l3Off : Nat
  src : List Nat
  dst : List Nat
  ttl : Nat
  proto : Nat
  /-- UDP header, with ports -/
  udp : Option Nat
  sport : Nat
  dport : Nat
  /-- RTP sequence number and marker -/
  rtp : Option (Nat × Bool)
  /-- RTP timestamp and SSRC -/
  stream : Option (Nat × Nat)
  ptp : Option PtpHead
  snoop : Bool
  /-- frame length that IP gives, without FCS, for R299; 0: none -/
  ipLen : Nat
deriving DecidableEq, Repr

/-- Nothing parsed beyond the addresses. -/
def Parsed.l2 (b : List Nat) : Parsed :=
  { short := false, dmac := slice b 0 6, smac := slice b 6 6, tag := none, tagOff := 0, etype := 0, l2End := 14, ip := 0,
    l3Off := 0, src := [], dst := [], ttl := 0, proto := 0, udp := none, sport := 0, dport := 0, rtp := none, stream := none, ptp := none,
    snoop := false, ipLen := 0 }

/-- The bytes of a header are present (R215). -/
def fits (b : List Nat) (endOff : Nat) : Bool := decide (endOff ≤ 128) && decide (endOff ≤ b.length)

/-- A header that ends at `endOff` is not whole: the parse ends, and it is PARSE_SHORT beyond byte 127 (R215). -/
def Parsed.cut (p : Parsed) (endOff : Nat) : Parsed := { p with short := decide (128 < endOff) }

/-- A PTP header at `o`. -/
def parsePtp (b : List Nat) (p : Parsed) (o : Nat) : Parsed :=
  if !fits b (o + 34) then p.cut (o + 34)
  else
    { p with ptp := some ⟨o, b.getD o 0 % 16, b.getD (o + 1) 0 % 16, ofBE (slice b (o + 2) 2), b.getD (o + 4) 0,
        bit (b.getD (o + 6) 0) 1, ofBE (slice b (o + 30) 2)⟩ }

/-- UDP at `o`, and RTP or PTP behind it. -/
def parseUdp (b : List Nat) (p : Parsed) (o : Nat) : Parsed :=
  if !fits b (o + 8) then p.cut (o + 8)
  else
    let dp := ofBE (slice b (o + 2) 2)
    let p := { p with udp := some o, sport := ofBE (slice b o 2), dport := dp }
    if dp = 319 ∨ dp = 320 then parsePtp b p (o + 8)
    else if b.length ≤ o + 8 ∨ b.getD (o + 8) 0 / 64 ≠ 2 then p
    else if !fits b (o + 20) then p.cut (o + 20)
    else { p with
        rtp := some (ofBE (slice b (o + 10) 2), bit (b.getD (o + 9) 0) 7)
        stream := some (ofBE (slice b (o + 12) 4), ofBE (slice b (o + 16) 4)) }

/-- What follows IP (R214). `frag` says that L4 is not parsed. -/
def parseL4 (b : List Nat) (p : Parsed) (o proto : Nat) (frag : Bool) : Parsed :=
  let p := { p with proto := proto }
  if frag then p
  else if proto = 17 then parseUdp b p o
  else if proto = 2 ∧ p.ip = 4 then { p with snoop := true }
  else if proto = 58 ∧ p.ip = 6 then
    if !fits b (o + 1) then p.cut (o + 1)
    else
      let t := b.getD o 0
      { p with snoop := t == 130 || t == 131 || t == 132 || t == 143 }
  else p

/-- IPv6 extension headers: up to `n` of types 0, 43 and 60, and one fragment header while `fr` holds. -/
def parseV6Ext (b : List Nat) : Nat → Parsed → Nat → Nat → Nat → Bool → Bool → Parsed
  | 0, p, _, _, _, _, _ => p
  | k + 1, p, o, next, n, fr, frag =>
    if next = 0 ∨ next = 43 ∨ next = 60 then
      if n = 0 then p
      else if !fits b (o + 2) then p.cut (o + 2)
      else if !fits b (o + 8 + 8 * b.getD (o + 1) 0) then p.cut (o + 8 + 8 * b.getD (o + 1) 0)
      else parseV6Ext b k p (o + 8 + 8 * b.getD (o + 1) 0) (b.getD o 0) (n - 1) fr frag
    else if next = 44 then
      if !fr then p
      else if !fits b (o + 8) then p.cut (o + 8)
      else parseV6Ext b k p (o + 8) (b.getD o 0) n false (frag || decide (ofBE (slice b (o + 2) 2) / 8 ≠ 0))
    else parseL4 b p o next frag

/-- IPv4 or IPv6 at `o`. -/
def parseL3 (b : List Nat) (p : Parsed) (o : Nat) : Parsed :=
  if p.etype = 0x0800 then
    let ihl := b.getD o 0 % 16 * 4
    if !fits b (o + 20) then p.cut (o + 20)
    else if !fits b (o + ihl) then p.cut (o + ihl)
    else
      let p := { p with
        ip := 4, l3Off := o, src := slice b (o + 12) 4, dst := slice b (o + 16) 4, ttl := b.getD (o + 8) 0
        ipLen := o + ofBE (slice b (o + 2) 2) }
      parseL4 b p (o + ihl) (b.getD (o + 9) 0) (ofBE (slice b (o + 6) 2) % 8192 != 0)
  else if p.etype = 0x86DD then
    if !fits b (o + 40) then p.cut (o + 40)
    else
      let p := { p with
        ip := 6, l3Off := o, src := slice b (o + 8) 16, dst := slice b (o + 24) 16, ttl := b.getD (o + 7) 0
        ipLen := o + 40 + ofBE (slice b (o + 4) 2) }
      parseV6Ext b 4 p (o + 40) (b.getD (o + 6) 0) 2 true false
  else if p.etype = 0x88F7 then parsePtp b p o
  else p

/-- Parse a frame's first bytes: Ethernet, up to two VLAN tags, then IP or PTP (R214). -/
def parse (b : List Nat) : Parsed :=
  let b := b.take 128
  let p := Parsed.l2 b
  let ty (o : Nat) := ofBE (slice b o 2)
  let isTag (t : Nat) := t == 0x8100 || t == 0x88A8
  if !isTag (ty 12) then
    let t := ty 12
    if t < 0x0600 then { p with etype := t } else parseL3 b { p with etype := t } 14
  else
    let p := { p with tag := some (ty 12, ty 14), tagOff := 14, l2End := 18 }
    if !isTag (ty 16) then
      let t := ty 16
      if t < 0x0600 then { p with etype := t } else parseL3 b { p with etype := t } 18
    else
      let p := { p with l2End := 22 }
      let t := ty 20
      if isTag t ∨ t < 0x0600 then { p with etype := t } else parseL3 b { p with etype := t } 22

/-- Outer VLAN ID and PCP; an untagged frame counts as 0. -/
def Parsed.vid (p : Parsed) : Nat := match p.tag with | some t => t.2 % 4096 | none => 0
def Parsed.pcp (p : Parsed) : Nat := match p.tag with | some t => t.2 / 8192 | none => 0

/-- The timing class of R30: EtherType 0x88F7, or UDP destination port 319 or 320. -/
def Parsed.timing (p : Parsed) : Bool := p.etype == 0x88F7 || (p.udp.isSome && (p.dport == 319 || p.dport == 320))

/-- First byte of the audit region (R365): behind the UDP header, or behind the Ethernet and VLAN headers. -/
def Parsed.region (p : Parsed) : Nat := match p.udp with | some o => o + 8 | none => p.l2End

end Machine
end Sys2Proof
end

