-- ==== Sys2Proof/Machine/Seif.lean ====
section
/-!
DEFINITION. Seif (ch. 13): how a stamp is composed, the phase tracker of each port, the asymmetry, and the interval meter.
-/
namespace Sys2Proof
namespace Machine

/-! ### Stamps (R406-R411) -/

/-- Symbol rate of a rung in Bd (R153). -/
def symbolRate (rung : Nat) : Nat :=
  [1250000000, 10312500000, 25781250000, 26562500000, 53125000000, 106250000000].getD rung 1250000000

/-- `n` symbols of a rung in 2^-8 ps. -/
def symbolPs8 (rung : Nat) (n : Int) : Int := n * (256 * 10 ^ 12) / symbolRate rung

/-- Grains as ps times 256, from an instant to a later one. -/
def grainsPs8 (g : Nat) : Nat := g * 1000 * 256 / 65536

/-- The phase of a direction at instant `t` (grains), in 2^-8 ps: the window's, extrapolated in TRACKING (R411). -/
def State.phaseAt (s : State) (p d t : Nat) : Int :=
  let φ : Int := s.reg (if d = 0 then .SEIF_PORT_PHASE_RX_PHASE else .SEIF_PORT_PHASE_TX_PHASE) p
  if s.seifState p d = 3 then
    let x := tget SeifDir.off0 s.seif.dirs (2 * p + d)
    φ + x.freq * (((t : Int) - x.at_) * 1000 / 65536) / 10 ^ 9
  else φ

/-- The value nearest the centre of the sampled bin among φ, φ − 2,000 ps and φ + 2,000 ps (R409). -/
def nearBin (φ : Int) (bin : Nat) : Int :=
  let c : Int := (250 + 500 * (bin : Int)) * 256
  let d (x : Int) := (x - c).natAbs
  let a := φ - 2000 * 256
  let b := φ + 2000 * 256
  if d φ ≤ d a ∧ d φ ≤ d b then φ else if d a ≤ d b then a else b

/-- The TAI, in grains, of the TIME edge `back` TIME cycles ago. -/
def State.edgeGrains (s : State) (back : Nat) : Nat := (s.clk.acc - back * s.reg .TME_INCR_INCR) / 2 ^ 24

/-- 2^-8 ps as grains. -/
def ps8Grains (x : Int) : Int := x * 65536 / 256000

/-- WRAP corrections (R409, E164). -/
def State.seifWrap (s : State) (p : Nat) : State :=
  (s.evT 164 [(4, 1, .sum), (2, p, .low)]).tally1 6 4 p

/-- The stamp of a frame on port `p`, direction `d`, in full TAI grains, by the sum of R406; MP0 and MP1 have no seif and
take the TIME edge with the symbol and the die delay alone (log entry 13). -/
def State.stampOf (s : State) (p d : Nat) (x : StampIn) : State × Nat :=
  let edge := s.edgeGrains x.back
  let rung := s.reg .LN_STATUS_RUNG p
  let φ0 : Int := if p < 256 then s.phaseAt p d edge else 0
  let φ := if p < 256 then nearBin φ0 x.bin else 0
  let symbols : Int := if d = 0 then -((x.word - x.sym : Nat) : Int) else (x.sym : Int)
  let die : Int := s.reg (if d = 0 then .PRT_DLY_RX else .PRT_DLY_TX) p
  let pkg : Int := if p < 256 then s.reg (if d = 0 then .SEIF_PORT_PKG_RX else .SEIF_PORT_PKG_TX) p else 0
  let fixed := (die + pkg) * 256
  let sum := φ + symbolPs8 rung symbols + (if d = 0 then -fixed else fixed)
  let s := if p < 256 ∧ φ ≠ φ0 then s.seifWrap p else s
  (s, ((edge : Int) + ps8Grains sum).toNat)

/-- The egress stamp the switch core predicts for a copy presented now (R314): TIME, the fixed egress latency of the
output's mode and the fine phase of its first lane. -/
def State.predictStamp (s : State) (p : Nat) : Nat :=
  let lat := egressNs (s.reg .PRT_MODE_RATE p) (s.reg .PRT_MODE_FEC p) * 65536
  ((s.grains + lat : Nat) + ps8Grains (if p < 256 then s.phaseAt p 1 s.grains else 0)).toNat

/-! ### The tracker (R407-R413) -/

def State.seifDir (s : State) (p d : Nat) : SeifDir := tget SeifDir.off0 s.seif.dirs (2 * p + d)
def State.setSeifDir (s : State) (p d : Nat) (x : SeifDir) : State :=
  { s with seif := { s.seif with dirs := tset SeifDir.off0 (2 * p + d) x s.seif.dirs } }

/-- A direction gives stamps: it is not OFF, not LOST, and not in ACQUIRE before its first beat (R428). -/
def State.seifGood (s : State) (p d : Nat) : Bool :=
  let st := s.seifState p d
  (st == 1 && (s.seifDir p d).beat) || (decide (2 ≤ st) && decide (st ≤ 4))

/-- VALID of a port holds while both directions give stamps. -/
def State.seifValid (s : State) (p : Nat) : State := s.setReg .SEIF_PORT_STATUS_VALID p (b2n (s.seifGood p 0 && s.seifGood p 1))

/-- The phase register of a direction. -/
def phaseReg (d : Nat) : Fld := if d = 0 then .SEIF_PORT_PHASE_RX_PHASE else .SEIF_PORT_PHASE_TX_PHASE

/-- A difference of two phases, brought within half a TIME cycle: phases are told apart by the sampled bin (R409). -/
def phaseDiff (a b : Int) : Int := (a - b + 256000) % 512000 - 256000

/-- Beats of a window (R408). -/
def State.windowBeats (s : State) : Nat := 2 ^ s.reg .SEIF_CFG_AVG

/-- A direction starts to ACQUIRE (R412). -/
def State.seifAcquire (s : State) (p d : Nat) : State :=
  ((s.setSeifDir p d SeifDir.off0).setSeifState p d 1).calMark 1 (2 * p + d) (s.temp (p / 32))

/-- A beat ends and yields a sample of the phase, in steps of 2,000 / 4,096 ps, or has seen no image-clock edge (R407, R410): in
ACQUIRE it is the phase until the first window ends; a LOST direction whose edges return starts to ACQUIRE; two windows of
beats in REMEASURE without a whole one lead to ACQUIRE (R412). -/
def doSeifBeat (p d : Nat) (sample : Option Nat) (s : State) : State :=
  let s := s.tally1 6 1 p
  let n := s.windowBeats
  match sample with
  | none =>
    let x := s.seifDir p d
    let x := { x with missed := x.missed + 1, samples := [], beats := x.beats + 1 }
    if s.seifState p d = 4 ∧ 2 * n ≤ x.beats then s.seifAcquire p d else s.setSeifDir p d x
  | some k =>
    let s := if s.seifState p d = 5 then s.seifAcquire p d else s
    let x := s.seifDir p d
    let y : Int := (125 * (k % 4096) : Nat)
    let y := match x.samples with | [] => y | z :: _ => z + phaseDiff y z
    let x := { x with missed := 0, samples := (y :: x.samples).take n, beats := x.beats + 1 }
    match s.seifState p d with
    | 0 => s
    | 1 => ((s.setSeifDir p d { x with beat := true, at_ := s.grains }).setReg (phaseReg d) p (125 * (k % 4096))).seifValid p
    | 4 => if 2 * n ≤ x.beats ∧ x.samples.length < n then s.seifAcquire p d else s.setSeifDir p d x
    | _ => s.setSeifDir p d x

def execSeifBeat (p d : Nat) (sample : Option Nat) (s : State) : Res := run (doSeifBeat p d sample) s

/-- Sum of a list of integers. -/
def sumInt (l : List Int) : Int := l.foldl (· + ·) 0

/-- Sum of the samples, newest first, each times its distance from the middle of the window in half beats. -/
def sumAcross (l : List Int) : Int :=
  ((List.range l.length).foldl (fun (a : Int × List Int) i =>
    (a.1 + ((l.length : Int) - 1 - 2 * i) * a.2.headD 0, a.2.drop 1)) (0, l)).1

/-- Root mean square of what the linear fit leaves of `n` samples: the sum of their squares about the mean, less the part that
the slope explains. -/
def rmsLeft (l : List Int) (slope : Bool) : Nat :=
  let n := l.length
  let m := sumInt l
  let sq := sumInt (l.map fun y => y * y)
  let u := sumAcross l
  let w : Int := (n * (n * n - 1) / 3 : Nat)
  let left := (n : Int) * sq - m * m
  let left := if slope ∧ w ≠ 0 then left - (n : Int) * u * u / w else left
  Nat.sqrt (left.toNat / (n * n))

/-- The window of the samples `l`: its phase at the middle, the frequency offset of the linear fit, and the residuals; `o` are
the other direction's samples, and `s1` stands for the slope of a window of one sample (R408, R427; log entry 166). -/
def seifFit (l o : List Int) (s1 : Int) : SeifWindow :=
  let n := l.length
  let w : Int := (n * (n * n - 1) / 3 : Nat)
  let d := List.zipWith (fun a b => a - b) l o
  let d0 := d.headD 0
  ⟨(sumInt l / n % 512000).toNat, if w = 0 then s1 else sumAcross l * 15625 / (64 * w), rmsLeft l true,
    rmsLeft (d.map fun x => d0 + phaseDiff x d0) false⟩

/-- A window ended `back` grains ago: what its samples give is judged, and in force, from the next boundary (R408; log entry 196). -/
def doSeifWindowEnd (p d back : Nat) (s : State) : State :=
  let x := s.seifDir p d
  if 256 ≤ p ∨ 2 ≤ d ∨ s.seifState p d < 1 ∨ 4 < s.seifState p d ∨ x.samples.length < s.windowBeats then s
  else
    let o := s.seifDir p (1 - d)
    let w := seifFit x.samples (o.samples ++ o.last) (Config.freeSlope s.freeCtr)
    let s := s.setSeifDir p d { x with samples := [], last := x.samples }
    ({ s with seif := { s.seif with due := s.seif.due ++ [(2 * p + d, s.grains - back, w)] } } : State).fresh

def execSeifWindowEnd (p d back : Nat) (s : State) : Res := run (doSeifWindowEnd p d back) s

/-- A frequency offset beyond 200 ppm (R412). -/
def beyond200 (f : Int) : Bool := decide (200000 * 256 < f.natAbs)

/-- A direction enters LOST (R412): `freq` says that |f| exceeds 200 ppm. -/
def State.seifLost (s : State) (p d : Nat) (freq : Bool) : State :=
  ((s.setSeifState p d 5).seifValid p).ev 162 [(2, p), (1, d + 1), (1, if freq then 2 else 1)]

/-- SEIF_LOST: by `freq`, the window just ended lies beyond 200 ppm, or no image-clock edge has been seen for 4 beats (R412). -/
def doSeifLost (p d : Nat) (freq : Bool) (s : State) : State :=
  let met := if freq then s.seif.due.any fun x => x.1 == 2 * p + d && beyond200 x.2.2.freq
    else decide (4 ≤ (s.seifDir p d).missed)
  if 256 ≤ p ∨ 2 ≤ d ∨ s.seifState p d < 1 ∨ 4 < s.seifState p d ∨ !met then s else s.seifLost p d freq

def execSeifLost (p d : Nat) (freq : Bool) (s : State) : Res := run (doSeifLost p d freq) s

/-- A trigger of R413: the commanded move, in 2^-8 ps, is added to φ at once, and a window is measured. -/
def State.seifRemeasure (s : State) (p d : Nat) (move : Int) (trig : Nat) : State :=
  let st := s.seifState p d
  if st = 2 ∨ st = 3 ∨ st = 4 then
    let x := s.seifDir p d
    let f := phaseReg d
    let s := s.setReg f p (((s.reg f p : Int) + move) % 512000).toNat
    let s := s.setSeifDir p d { x with
      held := if st = 4 then x.held else st
      moves := if st = 4 then x.moves + move else move
      trig := trig
      beats := 0
      samples := [] }
    (s.setSeifState p d 4).calMark 1 (2 * p + d) (s.temp (p / 32))
  else s

/-- The window's phase, frequency and residuals come into force; RESID shows the worse direction (R408, R411, R427). -/
def State.seifTake (s : State) (p d : Nat) (endAt : Nat) (w : SeifWindow) : State :=
  let s := s.setRegs [(phaseReg d, p, w.phase), (.SEIF_PORT_RESID_PHASE, p, max w.resPhase (s.seifDir p (1 - d)).res),
    (.SEIF_PORT_RESID_ASYM, p, w.resAsym)]
  let s := if d = 0 then s.setReg .SEIF_PORT_FREQ_FREQ p (unsgn 32 w.freq) else s
  let half := 2 ^ s.reg .SEIF_CFG_AVG * 8192 / 2 * 65536
  s.setSeifDir p d { s.seifDir p d with at_ := endAt - half, freq := w.freq, res := w.resPhase }

/-- A window that ended at `endAt` is judged at its boundary (R408, R412, R413). -/
def State.seifWindow (s : State) (k endAt : Nat) (w : SeifWindow) : State :=
  let p := k / 2
  let d := k % 2
  let st := s.seifState p d
  let good := decide (w.freq.natAbs ≤ s.reg .SEIF_CFG_LOCK)
  let x := s.seifDir p d
  if st < 1 ∨ 4 < st then s
  else if beyond200 w.freq then s.seifLost p d true
  else if st = 4 then
    let diff : Int := phaseDiff w.phase (s.reg (phaseReg d) p)
    let s := ((s.seifTake p d endAt w).tally1 6 2 p).setReg .SEIF_PORT_STEP_PS p (unsgn 32 diff)
    let s := s.setSeifDir p d { s.seifDir p d with moves := 0, beats := 0, off := 0 }
    ((s.setSeifState p d x.held).ev 163 [(2, p), (1, d + 1), (4, unsgn 32 diff), (1, x.trig), (4, unsgn 32 x.moves)]).tally1 6 5 p
  else
    let s := (s.seifTake p d endAt w).tally1 6 2 p
    if st = 1 then
      let n := if good then 2 else 3
      (s.setSeifState p d n).ev 165 [(2, p), (4, w.resPhase), (4, w.resAsym), (1, n)]
    else if good = (st == 2) then s.setSeifDir p d { s.seifDir p d with off := 0 }
    else if 2 ≤ x.off + 1 then (s.setSeifDir p d { s.seifDir p d with off := 0 }).setSeifState p d (5 - st)
    else s.setSeifDir p d { s.seifDir p d with off := x.off + 1 }

/-- The boundary takes the windows ended in the tick (R408). -/
def State.seifTick (s : State) : State :=
  let due := s.seif.due
  due.foldl (fun (s : State) (x : Nat × Nat × SeifWindow) => (s.seifWindow x.1 x.2.1 x.2.2).seifValid (x.1 / 2))
    { s with seif := { s.seif with due := [] } }

/-! ### Asymmetry (R416) -/

/-- round(x / 2 × 65.536) grains, halves away from zero. -/
def asymGrains (x : Int) : Int :=
  let n := x.natAbs * 65536
  let r : Int := ((n + 1000) / 2000 : Nat)
  if x < 0 then -r else r

/-- At the boundary of a commit with SEIF in scope, D_LOC and ASYM of a port are computed from its values. -/
def State.seifAsym (s : State) (p : Nat) : State :=
  let r (f : Fld) : Int := s.reg f p
  let dloc := r .SEIF_PORT_BRD_RX + r .SEIF_PORT_MOD_RX - (r .SEIF_PORT_BRD_TX + r .SEIF_PORT_MOD_TX)
  let old := s.sreg .SEIF_PORT_ASYM_GRAINS p
  let new := asymGrains (dloc - s.sreg .SEIF_PORT_PEER_PS p + s.sreg .SEIF_PORT_FIBRE_PS p)
  let s := s.setRegs [(.SEIF_PORT_DLOC_PS, p, unsgn 32 dloc), (.SEIF_PORT_ASYM_GRAINS, p, unsgn 32 new)]
  if old = new then s else s.ev 170 [(2, p), (4, unsgn 32 old), (4, unsgn 32 new)]

/-- Every port. -/
def State.seifCommit (s : State) : State := (List.range 256).foldl (fun s p => s.seifAsym p) s

/-! ### The interval meter (R418-R424) -/

def State.setItm (s : State) (x : Itm) : State := { s with seif := { s.seif with itm := x } }
def State.itmBusy (s : State) : Bool := s.flag .SEIF_ITM_STATUS_BUSY
def State.itmCal (s : State) : Bool := s.flag .SEIF_ITM_STATUS_CAL_BUSY

/-- A set starts (R421). -/
def State.itmStart (s : State) : State :=
  let x := s.seif.itm
  (s.setItm { Itm.idle with calDue := x.calDue, calTrig := x.calTrig }).setReg .SEIF_ITM_STATUS_BUSY 0 1

/-- A calibration starts, by trigger; it waits for a running set (R424). -/
def State.itmCalRequest (s : State) (trig : Nat) : State :=
  let x := s.seif.itm
  if s.itmBusy ∨ s.itmCal then s.setItm { x with calDue := some trig }
  else (s.setItm { x with calTrig := trig, calDue := none }).setReg .SEIF_ITM_STATUS_CAL_BUSY 0 1

/-- The end of the running set is shown, with RESULT `r` (R423): 1 DONE, 2 FAILED, 3 STOPPED. Its statistics are written when it
holds an interval, however it ended. -/
def State.itmShown (s : State) (r : Nat) : State :=
  let x := s.seif.itm
  let n : Int := x.n
  let mean := if x.n = 0 then 0 else x.sum / n
  let var := if x.n = 0 then 0 else (n * x.sq - x.sum * x.sum) / (n * n)
  let s := if x.n = 0 then s else s.setRegs
    [(.SEIF_ITM_MEAN_MEAN, 0, unsgn 64 mean), (.SEIF_ITM_DEV_DEV, 0, Nat.sqrt var.toNat),
     (.SEIF_ITM_MIN_MIN, 0, unsgn 64 x.min), (.SEIF_ITM_MAX_MAX, 0, unsgn 64 x.max)]
  let s := s.setRegs [(.SEIF_ITM_STATUS_BUSY, 0, 0), (.SEIF_ITM_STATUS_RESULT, 0, r), (.SEIF_ITM_STATUS_COUNT, 0, x.n),
    (.SEIF_ITM_FLAGS_UNDER, 0, min 255 x.under), (.SEIF_ITM_FLAGS_REVERSED, 0, min 255 x.reversed),
    (.SEIF_ITM_FLAGS_TIMEOUT, 0, min 255 x.timeouts), (.SEIF_ITM_FLAGS_IGNORED, 0, min 255 x.ignored)]
  (s.ev 166 [(1, r), (4, x.n), (4, x.under), (4, x.reversed), (4, x.timeouts)]).tally 6 7 1 r 0 0 1

/-- The running set ends with RESULT `r`. With CONT the next set starts at once, behind a calibration that is due (R423, R424). -/
def State.itmEnd (s : State) (r : Nat) : State :=
  let x := s.seif.itm
  let s := s.itmShown r
  let again := s.flag .SEIF_ITM_CTRL_CONT && r != 3
  match x.calDue with
  | some t => (s.setItm { Itm.idle with goDue := again, calTrig := t }).setReg .SEIF_ITM_STATUS_CAL_BUSY 0 1
  | none => if again then (s.setItm Itm.idle).itmStart else s.setItm Itm.idle

/-- The corrected result of a raw interval (R418). -/
def State.itmResult (s : State) (raw : Int) : Int := raw - raw * s.sreg .SEIF_ITM_AGE_PPB / (256 * 10 ^ 9)

/-- Firmware on C1 copies REF's measurement of the XO every 1,000 ticks while AUTO is 1 and time is traceable (R418, R433). -/
def State.itmAge (s : State) : State :=
  if s.clk.tickCount % 1000 = 0 ∧ s.flag .SEIF_ITM_AGE_AUTO ∧ s.flag .TME_STATUS_TRACEABLE then
    s.setReg .SEIF_ITM_AGE_PPB 0 (s.reg .REF_XO_MEAS_PPB 0 % 2 ^ 31)
  else s

/-- An interval completes between a start and a stop (R421-R423). -/
def State.itmInterval (s : State) (a b : Nat × Nat × Int) (reversed : Bool) : State :=
  let x := s.seif.itm
  let under := a.1 == b.1 && a.2.1 == b.2.1
  let raw := (b.2.2 - Config.itmPath (s.reg .SEIF_ITM_SRC_STOP_SRC)) - (a.2.2 - Config.itmPath (s.reg .SEIF_ITM_SRC_START))
  let v := if under then 0 else s.itmResult raw
  let x := { x with
    start := none, stop := none, n := x.n + 1, sum := x.sum + v, sq := x.sq + (v * v).toNat
    min := if x.n = 0 then v else min x.min v
    max := if x.n = 0 then v else max x.max v
    under := x.under + b2n under, reversed := x.reversed + b2n reversed, consec := 0 }
  let s := (s.setItm x).setReg .SEIF_ITM_LAST_LAST 0 (unsgn 64 v)
  let s := if under then s.tally 6 6 1 1 0 0 1 else s
  let s := if reversed then s.tally 6 6 1 2 0 0 1 else s
  if s.reg .SEIF_ITM_N_N ≤ x.n then s.itmEnd 1 else s

/-- A pending start ends as TIMEOUT; the fourth in a row ends the set FAILED (R421, R423). -/
def State.itmTimeout (s : State) : State :=
  let x := s.seif.itm
  let x := { x with start := none, timeouts := x.timeouts + 1, consec := x.consec + 1 }
  let s := ((s.setItm x).evT 167 [(4, 1, .sum), (4, x.consec, .new)]).tally 6 6 1 3 0 0 1
  if 4 ≤ x.consec then s.itmEnd 2 else s

/-- A held stop is dropped and counted IGNORED. -/
def State.itmIgnore (s : State) : State :=
  let x := s.seif.itm
  (s.setItm { x with stop := none, ignored := x.ignored + 1 }).tally 6 6 1 4 0 0 1

/-- ns as 2^-8 ps. -/
def nsPs8 (n : Nat) : Int := n * 256000

/-- The time of an edge captured in ITM cycle `c` at `tap`, in 2^-8 ps: 250 ps a cycle, and the widths of the taps before it, each
250 ps × hits / 2^20 (R418, R419; log entry 167). -/
def State.itmTime (s : State) (c tap : Nat) : Int :=
  let hits := (List.range (tap % 64)).foldl (fun n k => n + s.seif.taps.getD k (2 ^ 14)) 0
  (64000 * c + 64000 * hits / 2 ^ 20 : Nat)

/-- The pending start, or the held stop, is the edge `e`, captured now. -/
def State.itmPend (s : State) (e : Nat × Nat × Int) : State := s.setItm { s.seif.itm with start := some e, startAt := s.xoNow }
def State.itmHold (s : State) (e : Nat × Nat × Int) : State := s.setItm { s.seif.itm with stop := some e, stopAt := s.xoNow }

/-- The source and edge that starts are taken from, and stops, as source × 2 + 1 for a falling edge (R420). -/
def State.itmStartSrc (s : State) : Nat := s.reg .SEIF_ITM_SRC_START * 2 + s.reg .SEIF_ITM_SRC_START_FALL
def State.itmStopSrc (s : State) : Nat := s.reg .SEIF_ITM_SRC_STOP_SRC * 2 + s.reg .SEIF_ITM_SRC_STOP_FALL

/-- An edge of `src` captured in ITM cycle `cycle` at `tap`. One of the start's source is a start edge (R420, R421): it
completes a reversed interval with a held stop of at most WIN, or becomes the pending start. -/
def doItmStartEdge (cycle tap src : Nat) (s : State) : State :=
  let t := s.itmTime cycle tap
  if !s.itmBusy ∨ src ≠ s.itmStartSrc then s
  else
    let e := (cycle, tap, t)
    match s.seif.itm.stop with
    | some b =>
      if t - b.2.2 ≤ nsPs8 (s.reg .SEIF_ITM_WIN_NS) then s.itmInterval e b true
      else
        s.itmIgnore.itmPend e
    | none =>
      let s := if s.seif.itm.start.isSome then s.itmTimeout else s
      if s.itmBusy then s.itmPend e else s

def execItmStartEdge (cycle tap src : Nat) (s : State) : Res := run (doItmStartEdge cycle tap src) s

/-- An edge of the stop's source (R420, R421): it completes an interval with a pending start of at most TIMEOUT, or is held. -/
def doItmStopEdge (cycle tap src : Nat) (s : State) : State :=
  let t := s.itmTime cycle tap
  if !s.itmBusy ∨ src ≠ s.itmStopSrc then s
  else
    let e := (cycle, tap, t)
    let hold (s : State) : State :=
      (if s.seif.itm.stop.isSome then s.itmIgnore else s).itmHold e
    match s.seif.itm.start with
    | some a =>
      if t - a.2.2 ≤ nsPs8 (s.reg .SEIF_ITM_TIMEOUT_NS) then s.itmInterval a e false
      else
        let s := s.itmTimeout
        if s.itmBusy then hold s else s
    | none => hold s

def execItmStopEdge (cycle tap src : Nat) (s : State) : Res := run (doItmStopEdge cycle tap src) s

/-- ns as XO time. -/
def nsXo (n : Nat) : Nat := n * (256 * 10 ^ 12)

/-- A held stop has waited longer than WIN, by the XO (R421; log entry 194). -/
def doItmWinExpiry (s : State) : State :=
  if s.itmBusy ∧ s.seif.itm.stop.isSome ∧ s.seif.itm.stopAt + nsXo (s.reg .SEIF_ITM_WIN_NS) < s.xoNow then s.itmIgnore else s

def execItmWinExpiry (s : State) : Res := run doItmWinExpiry s

/-- A pending start has had no stop for longer than TIMEOUT, by the XO (R421; log entry 194). -/
def doItmTimeout (s : State) : State :=
  if s.itmBusy ∧ s.seif.itm.start.isSome ∧ s.seif.itm.startAt + nsXo (s.reg .SEIF_ITM_TIMEOUT_NS) < s.xoNow then s.itmTimeout else s

def execItmTimeout (s : State) : Res := run doItmTimeout s

/-- SEIF_ITM_CTRL with GO (R421, R424): it starts a set; during a calibration, when that ends. `cont` is the CONT bit
written with it. -/
def doItmGo (cont : Bool) (s : State) : State :=
  let s := s.setReg .SEIF_ITM_CTRL_CONT 0 (b2n cont)
  if s.itmCal then s.setItm { s.seif.itm with goDue := true }
  else if s.itmBusy then s else s.itmStart

def execItmGo (cont : Bool) (s : State) : Res := run (doItmGo cont) s

/-- SEIF_ITM_CTRL with STOP (R428): it ends the running set. -/
def doItmStop (cont : Bool) (s : State) : State :=
  let s := s.setReg .SEIF_ITM_CTRL_CONT 0 (b2n cont)
  if s.itmBusy then s.itmEnd 3 else s

def execItmStop (cont : Bool) (s : State) : Res := run (doItmStop cont) s

/-- SEIF_ITM_CAL with GO (R424). -/
def doItmCalGo (s : State) : State := s.itmCalRequest 2

def execItmCalGo (s : State) : Res := run doItmCalGo s

/-- The residual of a calibration, 2^-8 ps rms: the deviation of the reference measurements from 4,000 ps (R419). -/
def itmResidual (refs : List Int) : Nat :=
  Nat.sqrt ((sumInt (refs.map fun r => (r - 1024000) * (r - 1024000))).toNat / max 1 refs.length)

/-- A calibration ends (R419, R424): the hits of the taps give their widths and the reference measurements, in 2^-8 ps, the
residual; E168, and a GO that waited starts its set. -/
def doItmCalDone (y : ItmCal) (temp : Int) (s : State) : State :=
  let resid := itmResidual y.refs
  if !s.itmCal then s
  else
    let s : State := { s with seif := { s.seif with taps := y.hits } }
    let x := s.seif.itm
    let s := s.setRegs [(.SEIF_ITM_STATUS_CAL_BUSY, 0, 0), (.SEIF_ITM_CAL_RESID, 0, resid), (.SEIF_ITM_CAL_TEMP, 0, unsgn 15 temp)]
    let s := s.calMark 2 0 temp
    let s := (s.ev 168 [(4, resid), (2, unsgn 16 temp), (1, x.calTrig)]).tally1 6 8 0
    let s := s.setItm { x with goDue := false, calDue := none }
    match x.calDue with
    | some t => (s.setItm { x with calDue := none }).itmCalRequest t
    | none => if x.goDue then s.itmStart else s

def execItmCalDone (y : ItmCal) (temp : Int) (s : State) : Res := run (doItmCalDone y temp) s

end Machine
end Sys2Proof
end

