-- ==== Sys2Proof/Machine/Classify.lean ====
section
/-!
DEFINITION. The classifier (R217-R231, R653): classes, key lookup, flow index, flow entries, the generation stamp and the
guard of the tables.
-/
namespace Sys2Proof
namespace Machine

/-! ### Entry fields (R220, R223, R306, R307) -/

def field (e : Line) (off n hi lo : Nat) : Nat := bits (ofLE (slice e off n)) hi lo

def keyValid (e : Line) : Bool := bit (e.getD 0 0) 7
def keyKind (e : Line) : Nat := e.getD 0 0 % 16
def keyPlen (e : Line) : Nat := e.getD 1 0
def keyFlow (e : Line) : Nat := field e 36 4 22 0
def keyClass (e : Line) : Nat := e.getD 40 0 % 8
def keyRank (e : Line) : Nat := e.getD 41 0 / 16
def keySpan (e : Line) : Nat := e.getD 41 0 % 8
def keyAction (e : Line) : Nat := e.getD 42 0 % 8
def keyTarget (e : Line) : Nat := ofLE (slice e 44 2)
/-- FLOW that names none. -/
def noFlow : Nat := 0x7FFFFF

def flowValid (e : Line) : Bool := bit (e.getD 0 0) 7
def flowKind (e : Line) : Nat := e.getD 0 0 / 16 % 8
def flowRank (e : Line) : Nat := e.getD 0 0 % 16
def flowTtlDec (e : Line) : Bool := bit (e.getD 1 0) 7
def flowAudit (e : Line) : Bool := bit (e.getD 1 0) 6
def flowCount (e : Line) : Bool := bit (e.getD 1 0) 5
/-- 0: L2; 1: L3. -/
def flowKeyTable (e : Line) : Nat := e.getD 1 0 / 16 % 2
def flowKeyLoad (e : Line) : Bool := bit (e.getD 1 0) 3
def flowOut (e : Line) : Nat := ofLE (slice e 2 2)
def flowQueue (e : Line) : Nat := e.getD 4 0 % 16
def flowAuditLog2 (e : Line) : Nat := e.getD 5 0 % 16
def flowPace (e : Line) : Nat := ofLE (slice e 6 2)
def flowPair (e : Line) : Nat := field e 8 4 19 0
def flowKeyHash (e : Line) : Nat := ofLE (slice e 12 4)
def flowAnchor (e : Line) : Nat := field e 16 4 18 0
def flowDmac (e : Line) : List Nat := slice e 20 6
def flowVlanEn (e : Line) : Bool := bit (ofLE (slice e 26 2)) 15
def flowVlan (e : Line) : Nat := field e 26 2 11 0

def groupValid (e : Line) : Bool := bit (e.getD 0 0) 7
def groupInline (e : Line) : Nat := e.getD 0 0 % 16
def groupTotal (e : Line) : Nat := field e 2 2 9 0
def groupList (e : Line) : Nat := field e 4 4 20 0
def groupLines (e : Line) : Nat := e.getD 8 0 % 128
/-- Inline members of a group entry. -/
def groupMembers (e : Line) : List Nat := (List.range (min 12 (groupInline e))).map fun k => ofLE (slice e (12 + 4 * k) 4)
/-- Members of a replication-list line. -/
def listMembers (e : Line) : List Nat := (List.range 16).map fun k => ofLE (slice e (4 * k) 4)

/-! ### Keys (R218, R219) -/

/-- The first `n` bits of an address; the others 0. -/
def maskAddr (n : Nat) : List Nat → List Nat
  | [] => []
  | b :: t => (if 8 ≤ n then b else b / 2 ^ (8 - n) * 2 ^ (8 - n)) :: maskAddr (n - 8) t

/-- Key entry bytes 0 to 35 as the CRC of R219 takes them. -/
def keyBytes (kind plen vlan : Nat) (addr src : List Nat) : List Nat :=
  [kind, plen] ++ le 2 vlan ++ padTo 16 addr ++ padTo 16 src

/-- The same of a key entry: byte 0 bit 7 taken as 0, a route's address bits beyond PLEN taken as 0. -/
def entryKey (e : Line) : List Nat :=
  let b := slice e 0 36
  let k := keyKind e
  let addr := if k = 7 ∨ k = 8 then maskAddr (keyPlen e) (slice b 4 16) else slice b 4 16
  (b.getD 0 0 % 128) :: slice b 1 3 ++ addr ++ slice b 20 16

/-- Set of a key in the L2 (0) or L3 (1) table (R219). -/
def State.keySet (s : State) (t : Nat) (key : List Nat) : Nat :=
  if t = 0 then crc32c (s.reg .CLS_SEED_L2_SEED) key % 65536 else crc32c (s.reg .CLS_SEED_L3_SEED) key % 131072

/-- The entry of generation `g` that holds a key: its index and version. -/
def State.probe (s : State) (t g : Nat) (key : List Nat) : Option (Nat × Ver) :=
  let set := s.keySet t key
  (List.range 4).findSome? fun w =>
    match s.lookup t (4 * set + w) g with
    | some v => match v.val with
      | some e => if keyValid e ∧ entryKey e = key then some (4 * set + w, v) else none
      | none => none
    | none => none

/-- The IP multicast MAC of a group address. -/
def mcastMac (ip : Nat) (d : List Nat) : List Nat :=
  if ip = 4 then [0x01, 0x00, 0x5E, d.getD 1 0 % 128, d.getD 2 0, d.getD 3 0]
  else [0x33, 0x33, d.getD 12 0, d.getD 13 0, d.getD 14 0, d.getD 15 0]

def ipMulticast (p : Parsed) : Bool :=
  (p.ip == 4 && decide (224 ≤ p.dst.getD 0 0 ∧ p.dst.getD 0 0 < 240)) || (p.ip == 6 && p.dst.getD 0 0 == 255)

/-- Which lookup a frame takes (R218): 0 L2 unicast, 1 L2 multicast, 2 L3 unicast, 3 L3 multicast. -/
def State.lookupKind (s : State) (p : Parsed) : Nat :=
  if p.dmac = be 6 (s.reg .CLS_ROUTER_MAC_MAC) ∧ p.ip ≠ 0 then 2
  else if ipMulticast p ∧ p.dmac = mcastMac p.ip p.dst then 3
  else if bit (p.dmac.getD 0 0) 0 then 1 else 0

/-- Prefix lengths in use, longest first. -/
def prefixes (w limit : Nat) : List Nat :=
  let l := (le 8 w).filter fun b => decide (b ≤ limit)
  (List.range (limit + 1)).reverse.filter fun b => l.contains b

/-- The entry a frame's lookup hits: table, index, version (R218). -/
def State.keyLookup (s : State) (p : Parsed) (g : Nat) : Option (Nat × Nat × Ver) :=
  let at_ (t : Nat) (k : List Nat) := (s.probe t g k).map fun r => (t, r.1, r.2)
  let v6 := b2n (p.ip == 6)
  match s.lookupKind p with
  | 2 =>
    match at_ 1 (keyBytes (1 + v6) 0 0 p.dst []) with
    | some r => some r
    | none =>
      let lens := if p.ip = 4 then prefixes (s.reg .CLS_PLEN4_LEN) 32 else prefixes (s.reg .CLS_PLEN6_LEN) 128
      lens.findSome? fun n => at_ 1 (keyBytes (7 + v6) n 0 (maskAddr n p.dst) [])
  | 3 =>
    match at_ 1 (keyBytes (3 + v6) 0 0 p.dst p.src) with
    | some r => some r
    | none => at_ 1 (keyBytes (5 + v6) 0 0 p.dst [])
  | _ => at_ 0 (keyBytes 0 0 p.vid p.dmac [])

/-- The selector hash of R222. -/
def State.selector (s : State) (p : Parsed) : Nat :=
  if p.ip = 0 ∨ p.udp.isNone then 0
  else crc32c (s.reg .CLS_SEED_FLOW_SEED) (p.src ++ be 2 p.sport ++ be 2 p.dport)

/-! ### Class and pool (R217, R236) -/

/-- A class code as an entry or a PCP gives it. -/
def classCode (c : Nat) : Nat := if 1 ≤ c ∧ c ≤ 4 then c else 4

def State.classOf (s : State) (p : Parsed) (hit : Option Line) : Nat :=
  if p.timing then 0
  else if p.snoop then 3
  else match hit with
    | some e => classCode (keyClass e)
    | none => classCode (s.reg .CLS_PCP_MAP_MAP / 8 ^ p.pcp % 8)

def State.poolOf (s : State) (c : Nat) (hit : Option Line) : Nat :=
  match c with
  | 0 => 0
  | 1 => match hit with
    | some e => if s.reg .CLS_PLACE_EXP_RANK ≤ keyRank e then 1 else 2
    | none => 2
  | 2 => 1
  | 3 => 2
  | _ => 3

/-! ### The guard of the tables (R39, R40, R44, R241) -/

/-- What a store of table `t` is called in E048 (order of its detail text): 1 key, 2 group, 3 flow,
4 version, 5 flow cache, 6 directory, 7 flow-store line. -/
def storeCode (t : Nat) : Nat := if t ≤ 1 then 1 else 2

/-- The version that frames of generation `g` see stands in the version table (R231): it is pending, or it came after the one
that the flow's line still holds. -/
def State.versioned (s : State) (i g : Nat) : Bool :=
  match s.lookup tFlow i g, retireVers s.liveGens (s.vers tFlow i) with
  | some v, w :: _ => v.gen != w.gen || decide (s.sys.genSeq < v.gen)
  | _, _ => false

/-- The store a flow entry's damage was found in: 4 the version table, 5 the flow cache, 7 its Cistern line. -/
def State.flowStore (s : State) (i g : Nat) : Nat :=
  if s.versioned i g then 4 else if (s.spotAt i g).cacheOut then 7 else 5

/-- A directory record is damaged (R242): it is reread from its mirror. -/
def State.directoryDamage (s : State) (i g : Nat) : State :=
  let s := ((s.ev 48 [(1, 6), (4, i), (1, g % 4), (1, 0)]).guard 0xD 1).ask 0 (cisLine 1 i) 1
  { s with cls := { s.cls with place := tupd Placement.default i (fun p => { p with reread := true }) s.cls.place } }

/-- BAR0 index of the subsystem that owns a table: CLS, SWC for the lists, EGR for gate lists and pacing entries. -/
def guardBlock (t : Nat) : Nat := if t = 4 then 0x10 else if t = 5 ∨ t = 6 then 0x11 else 0xD

/-- The guard event of a damaged entry, by the subsystem that owns it: E048 for the classifier's, E103 for groups and
lists found by caravan, E116 for gate lists, E121 for pacing entries. -/
def State.guardEvent (s : State) (t i g : Nat) (refetch : Bool) : State :=
  let s := s.guard (guardBlock t) 1
  match t with
  | 4 => s.ev 103 [(1, 2), (4, i), (1, g % 4)]
  | 5 => s.evLow 116 (i / 1024) [(4, i % 1024), (1, 1)]
  | 6 => s.ev 121 [(4, i), (1, g % 4)]
  | 3 => s.ev 48 [(1, s.flowStore i g), (4, i), (1, g % 4), (1, b2n refetch)]
  | _ => s.ev 48 [(1, storeCode t), (4, i), (1, g % 4), (1, b2n refetch)]

/-- E049 of an entry that enters FAILED, or the guard event of its owner (R44). -/
def State.failedEvent (s : State) (t i : Nat) : State :=
  if t ≤ 3 then s.ev 49 [(1, t + 1), (4, i)] else s.guardEvent t i s.sys.genSeq false

/-- The function that holds the registration of a table, and has a shadow entry for the index (R107). -/
def State.shadowOf (s : State) (t i : Nat) : Option Nat :=
  match tget 0 s.hst.shadowOwner t with
  | 0 => none
  | f + 1 => if i < s.shadowEntries t f then some f else none

/-- The class of an entry for the counters of R253: a flow's or key's; 5: it has none. -/
def State.entryClass (s : State) (t i : Nat) : Nat :=
  if t = tFlow then s.flowClass i
  else if t ≤ 1 then (match s.newest t i with | some v => (v.val.map fun e => e.getD 40 0 % 8).getD 5 | none => 5)
  else 5

/-- Read the shadow entry of an index again (R44, R107). -/
def State.shadowRead (s : State) (t i f : Nat) : State :=
  (s.emit (.hostRead f t (s.reg .HST_SHADOW_BASE_ADDR (f * 7 + t) * 4096 + 64 * i))).tally 13 9 1 0 0 (s.entryClass t i) 1

/-- A flow whose entry fails is in placement state FAILED (R239). -/
def State.flowFailed (s : State) (t i : Nat) : State :=
  if t = 3 then { s with cls := { s.cls with place := tupd Placement.default i (fun p => { p with state := 5 }) s.cls.place } }
  else s

/-- Damage found in an entry, in the version frames of generation `g` see (R39, R44): it is invalidated, and refetched
when it is the newest version; without a registration it fails at once (the case of R118), and beyond ENTRIES as a failed
shadow read does (R107). -/
def State.entryDamage (s : State) (t i g : Nat) : State :=
  let l := s.vers t i
  match verAt l g with
  | none => s
  | some v =>
    if v.state ≠ 0 then s
    else
      let newest := l.getLast?.map Ver.gen == some v.gen
      let mark (st at_ : Nat) := l.map fun w => if w.gen = v.gen then { w with state := st, tries := 0, at_ := at_ } else w
      let s := if t = 5 then s.setReg .EGR_GATE_FALLBACK (i / 1024) 1 else s
      if !newest then (s.setVers t i (mark 1 0)).guardEvent t i g false
      else if tget 0 s.hst.shadowOwner t = 0 then
        (((s.setVers t i (mark 2 0)).guardEvent t i g false).failedEvent t i).flowFailed t i
      else match s.shadowOf t i with
        | some f => ((s.setVers t i (mark 1 0)).guardEvent t i g true).shadowRead t i f
        | none => (s.setVers t i (mark 1 (s.clk.tickCount + 1))).guardEvent t i g true

/-- Damage found in a store: table 8 is the placement directory. -/
def State.damage (s : State) (t i g : Nat) : State := if t = 8 then s.directoryDamage i g else s.entryDamage t i g

/-- A shadow refetch returns (R44): the entry is installed in the newest generation; a failed read leaves it invalid. -/
def doRefetchDone (t i : Nat) (r : HostRead) (s : State) : State :=
  let l := s.vers t i
  match l.getLast? with
  | none => s
  | some v =>
    if v.state ≠ 1 then s
    else match r with
      | .ok b =>
        let e := padTo 64 b
        let ok := if t ≤ 1 then keyValid e else if t = 3 then flowValid e else true
        let s := s.setVers t i (l.map fun w => if w.gen = v.gen then { w with val := if ok then some e else none, state := 0, tries := 0, at_ := 0 } else w)
        -- a flow-store line or a list line is written through the host DMA requester (R249)
        let s := if t = tFlow then s.ask 5 (cisLine 0 (s.placement i).spot.slot) 1 else if t = tList then s.ask 5 (cisLine 5 i) 1 else s
        if t = 5 then
          let p := i / 1024
          { s with egr := { s.egr with gates := tupd Gate.open_ p (fun g => { g with
              fallEnds := true, list := g.list.set (i % 1024) e }) s.egr.gates } }
        else s
      | .error =>
        let f := (tget 0 s.hst.shadowOwner t) - 1
        let s := s.setVers t i (l.map fun w => if w.gen = v.gen then { w with at_ := s.clk.tickCount + 1 } else w)
        s.dmaError f (s.reg .HST_SHADOW_BASE_ADDR (f * 7 + t) * 4096 + 64 * i) 3

def execRefetchDone (t i : Nat) (r : HostRead) (s : State) : Res := run (doRefetchDone t i r) s

/-- A shadow read that has failed is tried once more per tick, beyond ENTRIES without a read (R107); when the eighth try has
failed too the entry is failed (R44). -/
def doRefetchRetry (t i : Nat) (s : State) : State :=
  let l := s.vers t i
  match l.getLast? with
  | none => s
  | some v =>
    if v.state ≠ 1 ∨ v.at_ = 0 ∨ s.clk.tickCount < v.at_ then s
    else
      let put (w : Ver) := s.setVers t i (l.map fun u => if u.gen = v.gen then w else u)
      if tget 0 s.hst.shadowOwner t = 0 ∨ 8 ≤ v.tries then ((put { v with state := 2, at_ := 0 }).failedEvent t i).flowFailed t i
      else match s.shadowOf t i with
        | some f => (put { v with tries := v.tries + 1, at_ := 0 }).shadowRead t i f
        | none => put { v with tries := v.tries + 1, at_ := s.clk.tickCount + 1 }

def execRefetchRetry (t i : Nat) (s : State) : Res := run (doRefetchRetry t i) s

/-- A scrub pass reads every entry of the classifier's stores (R241): the entries found damaged, as (table,
index, and which of its versions: 0 the newest, 1 the one before it, and so on). -/
def doScrubPass (damaged : List (Nat × Nat × Nat)) (s : State) : State :=
  let due := s.reg .CLS_SCRUB_TICKS
  if due = 0 ∨ s.clk.tickCount < s.cls.scrubNext then s
  else
    let s := { s with cls := { s.cls with scrubNext := s.clk.tickCount + due } }
    damaged.foldl (fun (s : State) x =>
      s.damage x.1 x.2.1 (match (s.vers x.1 x.2.1).reverse[x.2.2]? with | some v => v.gen | none => s.sys.genSeq)) s

def execScrubPass (damaged : List (Nat × Nat × Nat)) (s : State) : Res := run (doScrubPass damaged) s

/-! ### Generation stamp (R63, R70) -/

/-- The generation of a frame with ingress stamp `full` (TAI grains): under an armed comparator the pending one from the
instant on (R70), else the current one. -/
def State.genStamp (s : State) (full : Nat) : Nat :=
  match s.sys.timed with
  | some t => if t.armed ∧ t.instant ≤ full then s.pendSeq else s.sys.genSeq
  | none => s.sys.genSeq

/-! ### Flows (R222-R224, R227, R653) -/

/-- The flow's entry is answered on die for frames of generation `g`: cached, or in the version table (R227, R231). -/
def State.onDie (s : State) (i g : Nat) : Bool := !(s.spotAt i g).cacheOut || s.versioned i g

/-- What a flow entry makes of a frame that a key entry `k` matched. -/
inductive FlowRes where
  /-- no flow entry applies: the key entry alone decides -/
  | key (mismatch : Bool)
  | entry (e : Line)
  /-- the entry is invalid: the frame is discarded (R40) -/
  | guard
deriving DecidableEq, Repr

/-- The flow entry of flow `i` for a frame of generation `g` with selector hash `h` (R224, R653). -/
def State.flowRes (s : State) (i g h : Nat) (k : Line) : FlowRes :=
  match s.lookup 3 i g with
  | none => .key true
  | some v =>
    if v.state = 1 then .guard
    else if v.state = 2 then .key false
    else match v.val with
      | none => .key true
      | some e =>
        if !flowValid e then .key true
        else if 0 < keySpan k ∧ flowKeyHash e ≠ h then .key true
        else if flowKind e = 0 ∨ 4 < flowKind e then .key false
        else .entry e

/-- The action of a key entry alone: drop, port, group, or nowhere with a punt. -/
def keyVerdict (k : Line) : Verdict :=
  match keyAction k with
  | 0 => ⟨1, keyTarget k % 512, none, none⟩
  | 1 => ⟨2, keyTarget k, none, none⟩
  | 3 => ⟨3, 0, some 1, none⟩
  | 4 => ⟨1, keyTarget k % 512, some 1, none⟩
  | 5 => ⟨2, keyTarget k, some 1, none⟩
  | _ => ⟨0, 0, none, none⟩

/-- Key entry and flow entry together (R653). -/
def flowVerdict (k e : Line) : Verdict :=
  let a := keyAction k
  if a = 2 ∨ a = 3 then keyVerdict k
  else
    let out := flowOut e
    ⟨if flowKind e = 1 then 1 else 2, if flowKind e = 1 then out % 512 else out, if a = 4 ∨ a = 5 then some 1 else none, some e⟩

/-- The miss action of a lookup (R221). -/
def State.missVerdict (s : State) (kind : Nat) : Verdict :=
  let a := match kind with
    | 0 => s.reg .CLS_MISS_L2_UC | 1 => s.reg .CLS_MISS_L2_MC | 2 => s.reg .CLS_MISS_L3_UC | _ => s.reg .CLS_MISS_L3_MC
  match a with
  | 1 => ⟨3, 0, some 4, none⟩
  | 2 => ⟨2, s.reg .CLS_MISS_GROUP, none, none⟩
  | _ => ⟨0, 0, none, none⟩

/-- What classification says of a frame. -/
structure Klass where
  cls : Nat
  pool : Nat
  flow : Option Nat
  /-- a lookup of its flow must go to the Cistern -/
  read : Bool
  guard : Bool
  mismatch : Bool
  missed : Bool
  verdict : Verdict

/-- Classification of parsed bytes in generation `g`; `have_` says that the flow's line is at hand. -/
def State.classify (s : State) (p : Parsed) (g : Nat) (have_ : Bool) : Klass :=
  let hit := s.keyLookup p g
  let key := match hit with | some (_, _, v) => if v.state = 2 then none else v.val | none => none
  let bad := match hit with | some (_, _, v) => v.state == 1 | none => false
  let c := s.classOf p key
  let pool := s.poolOf c key
  let kind := s.lookupKind p
  let ttl (v : Verdict) : Verdict := if kind = 2 ∧ p.ttl ≤ 1 ∧ v.kind ≠ 0 then ⟨3, 0, some 1, none⟩ else v
  match key with
  | none => ⟨c, pool, none, false, bad, false, true, ttl (s.missVerdict kind)⟩
  | some k =>
    if bad then ⟨c, pool, none, false, true, false, false, ⟨0, 0, none, none⟩⟩
    else if p.timing ∨ keyFlow k = noFlow then ⟨c, pool, none, false, false, false, false, ttl (keyVerdict k)⟩
    else
      let h := s.selector p
      let i := keyFlow k + h % 2 ^ keySpan k
      if (s.placement i).state = 5 then ⟨c, pool, some i, false, false, false, false, ttl (keyVerdict k)⟩
      else if (s.placement i).reread then ⟨c, pool, some i, false, true, false, false, ⟨0, 0, none, none⟩⟩
      else if !have_ ∧ !s.onDie i g then ⟨c, pool, some i, true, false, false, false, ⟨0, 0, none, none⟩⟩
      else match s.flowRes i g h k with
        | .guard => ⟨c, pool, some i, false, true, false, false, ⟨0, 0, none, none⟩⟩
        | .key m => ⟨c, pool, some i, false, false, m, false, ttl (keyVerdict k)⟩
        | .entry e => ⟨c, pool, some i, false, false, false, false, ttl (flowVerdict k e)⟩

/-! ### Flow counters (R557) -/

/-- A frame of a COUNT flow: frames and bytes. -/
def State.flowCounted (s : State) (i n len : Nat) : State :=
  { s with cls := { s.cls with cnt := tupd FlowCnt.zero i (fun c => { c with
      frames := (c.frames + n) % 2 ^ 40, bytes := (c.bytes + len) % 2 ^ 56 }) s.cls.cnt } }

/-- A frame of a COUNT flow is discarded anywhere in the device. -/
def State.flowDiscard (s : State) (i : Nat) : State :=
  { s with cls := { s.cls with cnt := tupd FlowCnt.zero i (fun c => { c with discards := (c.discards + 1) % 2 ^ 24 }) s.cls.cnt } }

/-! ### Placement query (R240) -/

/-- CLS_PLACE_QUERY with GO: the placement of FLOW in the current generation. -/
def doPlaceQuery (flow : Nat) (s : State) : State :=
  let s := s.setReg .CLS_PLACE_QUERY_FLOW 0 flow
  let i := s.reg .CLS_PLACE_QUERY_FLOW
  let used := match s.lookup 3 i s.sys.genSeq with | some v => v.val.isSome | none => false
  let st := (s.placement i).state
  let p := s.spotAt i s.sys.genSeq
  let l : List (Fld × Nat) :=
    [(.CLS_PLACE_RESULT_STATE, if used then st else 7), (.CLS_PLACE_RESULT_WHERE, if used then b2n p.cacheOut else 0),
     (.CLS_PLACE_RESULT_PIN, if used then b2n (st == 3) else 0), (.CLS_PLACE_RESULT_BANK, if used then p.bank else 0),
     (.CLS_PLACE_RESULT_CHKU, if used then min 31 p.chku else 0), (.CLS_PLACE_RESULT_POOL, if used then p.pool else 0),
     (.CLS_PLACE_RESULT_REPL, if used then s.replMode i s.sys.genSeq else 0), (.CLS_PLACE_RESULT_GEN, if used then p.gen % 4 else 0)]
  (s.setReg .CLS_PLACE_RESULT_DONE 0 1).setRegs (l.map fun x => (x.1, 0, x.2))

def execPlaceQuery (flow : Nat) (s : State) : Res := run (doPlaceQuery flow) s

end Machine
end Sys2Proof
end

