-- ==== Sys2Proof/Machine/Rings.lean ====
section
/-!
DEFINITION. Completion, punt and event rings (R84, R88, R98-R105), MSI-X, and punted frames (R109-R111).
-/
namespace Sys2Proof
namespace Machine

/-! ### MSI-X (R103-R105) -/

/-- The vector belongs to the function: entries 0 to 63 − 2k of the PF while k VFs are enabled, 0 and 1 of a VF (R103). -/
def State.vectorOk (s : State) (fn v : Nat) : Bool :=
  if fn = 0 then decide (v ≤ 63 - 2 * s.hst.numVf) else decide (fn ≤ s.hst.numVf) && decide (v < 2)

/-- Signal a vector: the message is sent, or its pending bit set while it is masked (R105). Vectors are masked after
reset (log entry 15). -/
def State.signal (s : State) (fn v : Nat) : State :=
  let k := fn * 64 + v
  if !s.vectorOk fn v then s
  else if tget 0 s.hst.unmasked k = 1 then s.emit (.msix fn v)
  else { s with hst := { s.hst with vecPend := tset 0 k 1 s.hst.vecPend } }

/-- The host unmasks a vector, and a pending message is sent (R105). -/
def doMsixUnmask (fn v : Nat) (s : State) : State :=
  let k := fn * 64 + v
  let s := { s with hst := { s.hst with unmasked := tset 0 k 1 s.hst.unmasked } }
  if tget 0 s.hst.vecPend k = 1 then
    ({ s with hst := { s.hst with vecPend := tdel k s.hst.vecPend } } : State).signal fn v
  else s

def execMsixUnmask (fn v : Nat) (s : State) : Res := run (doMsixUnmask fn v) s

/-! ### Completion rings (R98-R100, R104) -/

def State.cqEntries (s : State) (k : Nat) : Nat := 2 ^ s.reg .HST_CQ_CTRL_LOG2_SIZE k

/-- FULL of a completion ring: no entry can be posted. -/
def State.showCqFull (s : State) (k : Nat) : State :=
  s.setReg .HST_CQ_STATUS_FULL k
    (b2n (s.flag .HST_CQ_CTRL_EN k && (s.reg .HST_CQ_STATUS_INDEX k + 1) % s.cqEntries k == tget 0 s.hst.cqHead k))

/-- The ring signals when the entries since its last signal reach COAL_COUNT, or the oldest has waited COAL_TICKS
boundaries (R104). -/
def State.cqSignal (s : State) (fn cq : Nat) : State :=
  let k := ring fn cq
  let n := tget 0 s.hst.cqUns k
  let ticks := s.reg .HST_CQ_CTRL_COAL_TICKS k
  if n = 0 then s
  else if max 1 (s.reg .HST_CQ_CTRL_COAL_COUNT k) ≤ n ∨ (ticks ≠ 0 ∧ ticks ≤ tget 0 s.hst.cqAge k) then
    let s : State := { s with hst := { s.hst with cqUns := tdel k s.hst.cqUns, cqAge := tdel k s.hst.cqAge } }
    if tget 0 s.hst.lostVec k = 1 then s else s.signal fn (s.reg .HST_CQ_CTRL_VECTOR k)
  else s

/-- The phase bit of the pass the ring is in (R99). -/
def State.cqPhase (s : State) (k : Nat) : Nat := tget 1 s.hst.cqPhase k

/-- An entry has been written at INDEX: the tail advances, PHASE inverts at the wrap, and the signal is judged. -/
def State.cqWritten (s : State) (fn cq : Nat) : State :=
  let k := ring fn cq
  let next := (s.reg .HST_CQ_STATUS_INDEX k + 1) % s.cqEntries k
  let s := s.setReg .HST_CQ_STATUS_INDEX k next
  let s := { s with hst := { s.hst with
    cqPhase := if next = 0 then tset 1 k (1 - s.cqPhase k) s.hst.cqPhase else s.hst.cqPhase
    cqUns := tupd 0 k (· + 1) s.hst.cqUns } }
  (s.showCqFull k).cqSignal fn cq

/-- Completion coalescing by ticks is judged at a boundary, and by the row itself (R104). -/
def doCqInterrupt (fn cq : Nat) (s : State) : State := s.cqSignal fn cq

def execCqInterrupt (fn cq : Nat) (s : State) : Res := run (doCqInterrupt fn cq) s

/-- Every ring with entries not yet signalled has waited one more boundary. -/
def State.cqAgeTick (s : State) : State :=
  let keys := s.hst.cqUns.map Prod.fst
  let s := { s with hst := { s.hst with cqAge := keys.foldl (fun t k => tupd 0 k (· + 1) t) s.hst.cqAge } }
  keys.foldl (fun (s : State) k => s.cqSignal (k / 256) (k % 256)) s

/-- OP_SUSPEND, OP_RESUME and OP_CANCEL: the handle of their outcome is the model's own, and their entry shows none. -/
def opControl (opc : Nat) : Bool := opc == 0xA0 || opc == 0xA1 || opc == 0xA2

/-- The result bytes 32 to 63 and the rest of a completion entry (R98). -/
def State.completionEntry (s : State) (c : Cmd) (r : Cpl) (phase : Nat) : List Nat :=
  le 4 c.tag ++ [r.status, 128 * phase + 64 * b2n r.final] ++ le 2 c.sqHead ++ [c.sq, c.opcode, 0, 0] ++
    le 4 (if opControl c.opcode then 0 else r.handle) ++
    le 8 s.clk.tick ++ le 4 s.wrapNs ++ le 2 s.grain ++ [0, 0] ++ padTo 32 r.result

/-! ### Event rings (R101, R102, R105) -/

def State.evqEntries (s : State) (fn : Nat) : Nat := 2 ^ s.reg .HST_EVQ_CTRL_LOG2_SIZE fn

def State.evqFull (s : State) (fn : Nat) : Bool :=
  (s.reg .HST_EVQ_STATUS_INDEX fn + 1) % s.evqEntries fn == tget 0 s.hst.evqHead fn

/-- Put one entry into the event ring of `fn` at its tail. -/
def State.evqPut (s : State) (fn e sev count tick : Nat) (d : List Nat) : State :=
  let i := s.reg .HST_EVQ_STATUS_INDEX fn
  let ph := tget 1 s.hst.evqPhase fn
  let seq := tget 0 s.hst.evqSeq fn
  let entry := [e, 128 * ph + 16 * sev] ++ le 2 (min 0xFFFF count) ++ le 4 seq ++ le 8 tick ++ padTo 16 d
  let next := (i + 1) % s.evqEntries fn
  let s := (s.emit (.event fn i entry)).setReg .HST_EVQ_STATUS_INDEX fn next
  let s := { s with hst := { s.hst with
    evqPhase := if next = 0 then tset 1 fn (1 - ph) s.hst.evqPhase else s.hst.evqPhase
    evqSeq := tset 0 fn ((seq + 1) % 2 ^ 32) s.hst.evqSeq
    evGot := tset 0 fn 1 s.hst.evGot } }
  (s.setReg .HST_EVQ_STATUS_FULL fn (b2n (s.evqFull fn))).tally 1 4 1 0 0 fn 1

/-- An entry is lost (R88, R102). -/
def State.evqLose (s : State) (fn : Nat) : State :=
  let s := { s with hst := { s.hst with
    evqSeq := tset 0 fn ((tget 0 s.hst.evqSeq fn + 1) % 2 ^ 32) s.hst.evqSeq
    evqOwed := tupd 0 fn (· + 1) s.hst.evqOwed } }
  (s.countReg .HST_EVQ_STATUS_LOST fn 1).tally 1 5 1 0 0 fn 1

/-- Room has returned: E242 goes ahead of any entry, straight into the ring that lost entries (R102). -/
def State.evqOwe (s : State) (fn : Nat) : State :=
  let n := tget 0 s.hst.evqOwed fn
  if n = 0 ∨ s.evqFull fn then s
  else
    let sev := s.severity 242 2
    let s := { s with
      hst := { s.hst with evqOwed := tdel fn s.hst.evqOwed }
      cairn := { s.cairn with
        evt := tupd 0 242 (satAdd 0xFFFF · 1) s.cairn.evt
        sevCnt := tupd 0 sev (· + 1) s.cairn.sevCnt } }
    s.evqPut fn 242 sev 1 s.clk.tick (det [(2, fn), (4, n)])

/-- Write an entry to the event ring of `fn`, if it is enabled; a stopped or full ring loses it. -/
def State.evqWrite (s : State) (fn e sev count tick : Nat) (d : List Nat) : State :=
  if !s.flag .HST_EVQ_CTRL_EN fn then s
  else if s.reg .HST_EVQ_STATUS_ERR fn ≠ 0 then (s.countReg .HST_EVQ_STATUS_LOST fn 1).tally 1 5 1 0 0 fn 1
  else
    let s := s.evqOwe fn
    if s.evqFull fn then s.evqLose fn else s.evqPut fn e sev count tick d

/-- After the last entry of a tick, every ring that received entries signals its vector (R105). -/
def State.evqSignals (s : State) : State :=
  let l := s.hst.evGot.map Prod.fst
  l.foldl (fun (s : State) f =>
    if tget 0 s.hst.lostVec (65536 + f) = 1 then s else s.signal f (s.reg .HST_EVQ_CTRL_VECTOR f)) { s with hst := { s.hst with evGot := [] } }

/-! ### Punted frames (R109-R111) -/

/-- Slot size of a punt ring. -/
def slotBytes (c : Nat) : Nat := match c with | 0 => 2048 | 1 => 4096 | _ => 16384

/-- A punted frame for function `fn` is discarded and counted (R109, R111); `cq` names a punt ring that discards it. -/
def State.puntDrop (s : State) (fn : Nat) (cq : Option Nat) : State :=
  let d := tget (0, 0) s.hst.puntDrop fn
  let rings := match cq with | some q => if q < 64 then 2 ^ q else 0 | none => 0
  ({ s with hst := { s.hst with puntDrop := tset (0, 0) fn (d.1 ||| rings, d.2 + 1) s.hst.puntDrop } } : State).tally 1 7 1 0 0 fn 1

/-- The header of a punt record: everything but LEN, PHASE, TRUNC, REASON and TICK. -/
structure PuntInfo where
  port : Nat
  cls : Nat
  gen : Nat
  flow : Option Nat
  stamp : Nat
  vlan : Nat

/-- Write a frame to the punt ring that reason `r` is mapped to (R109, R110). `frame` is the whole frame with FCS. -/
def State.punt (s : State) (r : Nat) (x : PuntInfo) (frame : List Nat) : State :=
  let fn := s.reg .HST_PUNT_MAP_FUNC r
  let cq := s.reg .HST_PUNT_MAP_CQ r
  let k := ring fn cq
  if !s.flag .HST_PUNT_MAP_EN r ∨ !s.flag .HST_CQ_CTRL_EN k ∨ !s.flag .HST_CQ_CTRL_PUNT k then s.puntDrop fn none
  else if !s.cqRoom k then s.puntDrop fn (some cq)
  else
    let slot := slotBytes (s.reg .HST_CQ_CTRL_SLOT k)
    let cut := decide (slot < frame.length)
    let rec_ := le 2 frame.length ++ [128 * s.cqPhase k + 64 * b2n cut, r] ++ le 2 x.port ++ [x.cls, x.gen % 4] ++
      le 4 (x.flow.getD 0x7FFFFF) ++ [0, 0, 0, 0] ++ le 4 (x.stamp / 65536) ++ le 2 (x.stamp % 65536) ++ [0, 0] ++
      le 8 s.clk.tick ++ le 4 x.vlan
    let i := s.reg .HST_CQ_STATUS_INDEX k
    let addr := s.reg .HST_CQ_BASE_ADDR k * 4096 + 64 * s.cqEntries k + slot * i
    let s := s.emit (.punt fn cq i addr (padTo 64 rec_) (frame.take slot))
    (s.cqWritten fn cq).tally 1 6 1 0 0 fn 1

/-- E246 of the tick, once per function (R111). -/
def State.puntTick (s : State) : State :=
  let l := s.hst.puntDrop
  l.foldl (fun (s : State) p => s.evFn 246 p.1 [(2, p.1), (8, p.2.1), (4, p.2.2)])
    { s with hst := { s.hst with puntDrop := [] } }

end Machine
end Sys2Proof
end

