-- ==== Sys2Proof/Machine/Place.lean ====
section
/-!
DEFINITION. The table commands (R129-R135, R225, R308) and the placement engine (R230-R242).
-/
namespace Sys2Proof
namespace Machine

/-! ### Slots (R232) -/

def flowSlots : Nat := 5242880

/-- Slots of a bank that hold a flow. -/
def State.bankUsed (s : State) (b : Nat) : Nat := (s.cls.slots.filter fun x => x.1 % 64 == b).length

/-- The first free slot of bank `b` at or after place `o`, looked for `n` times. -/
def State.freeFrom (s : State) (b : Nat) : Nat → Nat → Nat
  | 0, o => b + 64 * (o % 81920)
  | n + 1, o =>
    let k := b + 64 * (o % 81920)
    if tget 0 s.cls.slots k = 0 then k else s.freeFrom b n (o + 1)

/-- A free slot of the least-loaded bank that has one, other than bank `not_` (R232). Which of several equally loaded
banks, and which of its free slots, are free values (log entry 8). -/
def State.pickSlot (s : State) (not_ : Nat) : Nat :=
  let l := (List.range 64).filter fun b => b != not_ && decide (s.bankUsed b < 81920)
  let low := l.foldl (fun m b => min m (tget 0 s.cls.bankLoad b)) (tget 0 s.cls.bankLoad (l.headD 0))
  let l := l.filter fun b => tget 0 s.cls.bankLoad b == low
  let v := Config.freeSlotPick s.freeCtr
  let b := l.getD (v % max 1 l.length) 0
  s.freeFrom b (s.bankUsed b) (v / 64)

/-- The slot of a flow that is placed anew. -/
def State.chooseSlot (s : State) (i : Nat) : State × Nat :=
  if tget 0 s.cls.slots i = 0 then (s, i) else (s.fresh, s.pickSlot 64)

def State.takeSlot (s : State) (k i : Nat) : State := { s with cls := { s.cls with slots := tset 0 k (i + 1) s.cls.slots } }
def State.dropSlot (s : State) (k : Nat) : State := { s with cls := { s.cls with slots := tdel k s.cls.slots } }

/-! ### Placement of a loaded flow (R232, R236, R237) -/

/-- The check unit of an AUDIT flow: the unit of UNITS with the fewest audited frames in the last interval, the lowest of
equal ones (log entry 19); 0xFF without one. -/
def State.pickUnit (s : State) (e : Line) : Nat :=
  let l := (List.range 16).filter fun n => bit (s.reg .CLS_PLACE_AUDIT_UNITS) n
  if !flowAudit e then 0xFF
  else match l with
    | [] => 0xFF
    | a :: t => t.foldl (fun a n => if tget 0 s.cls.auditLast n < tget 0 s.cls.auditLast a then n else a) a

/-- The key entry at a flow entry's ANCHOR, as the newest generation sees it. -/
def State.anchorKey (s : State) (e : Line) : Option Line := (s.newest (flowKeyTable e) (flowAnchor e)).bind Ver.val

/-- The pool of a flow: that of its key entry's class (R236). -/
def State.flowPool (s : State) (e : Line) : Nat :=
  match s.anchorKey e with
  | some k => if keyValid k then s.poolOf (classCode (keyClass k)) (some k) else 3
  | none => 3

/-- A load places its flow: a new one in CISTERN at a slot of its own; a FAILED one too, and a lost slot is chosen anew
(R232, R239, R242). What it changes holds from the pending generation on (R36). -/
def State.placeLoad (s : State) (i : Nat) (e : Line) : State :=
  let p := s.placement i
  let has := p.state != 7 && tget 0 s.cls.slots p.plan.slot == i + 1
  let q := if has then (s, p.plan.slot) else s.chooseSlot i
  let s := q.1.takeSlot q.2 i
  let anew := p.state == 7 || p.state == 5
  let keep := decide (p.plan.chku < 16) && flowAudit e && bit (s.reg .CLS_PLACE_AUDIT_UNITS) p.plan.chku
  let p := p.put fun x => { x with
    cacheOut := anew || x.cacheOut
    slot := q.2
    chku := if keep then x.chku else s.pickUnit e
    pool := s.flowPool e }
  s.setPlacement i { p with
    state := if p.state = 7 then 0 else p.state
    recover := p.state == 5
    reread := p.reread && !anew }

/-- A flow entry, and with KEY_LOAD its key entry, are written into the pending generation (R225, R64). -/
def State.loadFlow (s : State) (i : Nat) (e k : Line) (held : Bool) : State :=
  let s := s.update tFlow i (some e) held
  let s := if flowKeyLoad e then s.update (flowKeyTable e) (flowAnchor e) (some k) held else s
  s.placeLoad i e

/-- The version of a flow whose key entry a FLOW_DEL removes: the current one, or the pending one of a flow that has none
(R225; log entry 162). -/
def State.anchoring (s : State) (i : Nat) : Line :=
  match (s.lookup tFlow i s.sys.genSeq).bind Ver.val with
  | some e => e
  | none => ((s.newest tFlow i).bind Ver.val).getD []

/-- A flow entry, and the key entry that its current version anchors, are removed in the pending generation (R225). -/
def State.removeFlow (s : State) (i : Nat) (held : Bool) : State :=
  let e := s.anchoring i
  let s := s.update tFlow i none held
  if flowKeyLoad e then s.update (flowKeyTable e) (flowAnchor e) none held else s

/-! ### Checks of the table commands (R124, R129, R130, R225, R308) -/

/-- The index is in use in the newest generation (R129). -/
def State.flowInUse (s : State) (i : Nat) : Bool := ((s.newest tFlow i).bind Ver.val).isSome

/-- A registration of table `t` by the function covers index `i` (R107, R108). -/
def State.covers (s : State) (t fn i : Nat) : Bool := s.registered t fn && decide (i < s.shadowEntries t fn)

/-- R225, checks 2: the key entry may stand at index `a` of table `t`. -/
def State.keyOk (s : State) (t a : Nat) (k : Line) : Bool :=
  keyValid k && (if t = 0 then keyKind k == 0 else decide (1 ≤ keyKind k ∧ keyKind k ≤ 8)) && decide (keyAction k ≤ 5) &&
    decide (keySpan k ≤ 6) && (keyKind k != 0 || keySpan k == 0) && decide (a < tableSize t) &&
    s.keySet t (entryKey k) == a / 4

/-- R225, checks 1 to 4, of the entry loaded at index `i`; `k` is the key entry at its ANCHOR. -/
def State.flowOk (s : State) (i : Nat) (e k : Line) : Bool :=
  flowValid e && decide (flowKind e ≤ 4) &&
    (!flowKeyLoad e || (s.keyOk (flowKeyTable e) (flowAnchor e) k &&
      (flowKind e == 0 || i == keyFlow k + flowKeyHash e % 2 ^ keySpan k))) &&
    (flowKind e != 1 || decide (flowOut e % 512 ≤ 255))

/-- An entry takes a version of its own in the pending generation unless it has one (R132). -/
def State.freshAt (s : State) (t i : Nat) : Nat := b2n !((s.vers t i).any fun v => v.gen == s.pendSeq)

/-- Room for the versions of a list of entries (R133, R230). -/
def State.roomFor (s : State) (held : Bool) (l : List (Nat × Nat)) (c : Checks) : Checks :=
  let n := l.foldl (fun n x => n + s.freshAt x.1 x.2) 0
  let h := l.foldl (fun n x => n + b2n !(s.heldAt x.1 x.2)) 0
  let full := decide (131072 < s.versionsUsed + n)
  { c with
    noRoom := c.noRoom || full || (held && decide (65536 < s.heldCount + h))
    versFull := full && !held }

/-- The entries a load changes. -/
def flowKeys (i : Nat) (e : Line) : List (Nat × Nat) :=
  (tFlow, i) :: (if flowKeyLoad e then [(flowKeyTable e, flowAnchor e)] else [])

/-- Host address of a shadow entry. -/
def State.shadowAddr (s : State) (t fn i : Nat) : Nat := s.reg .HST_SHADOW_BASE_ADDR (fn * 7 + t) * 4096 + 64 * i

def State.flowChecks (s : State) (h : Hdr) (i : Nat) (add check : Bool) (crc : Nat) (r : FlowRead) : Checks :=
  let base : Checks := { badField := decide (flowSlots ≤ i) || decide (2 ^ 32 ≤ crc), noShadow := !s.covers tFlow h.fn i, updates := 1 }
  match r.flow with
  | .error => { base with own := some (if s.flowInUse i = add then stBADFIELD else stHWFAULT), dmaAddr := s.shadowAddr tFlow h.fn i }
  | .ok b =>
    let e := padTo 64 b
    let t := flowKeyTable e
    let base := { base with noShadow := base.noShadow || (flowKeyLoad e && !s.covers t h.fn (flowAnchor e)) }
    if s.flowInUse i = add ∨ (check ∧ crc32 e ≠ crc) ∨ !flowValid e ∨ 4 < flowKind e then { base with own := some stBADFIELD }
    else match flowKeyLoad e, r.key with
      | true, .error => { base with own := some stHWFAULT, dmaAddr := s.shadowAddr t h.fn (flowAnchor e) }
      | true, .ok k => s.roomFor h.hold (flowKeys i e) { base with own := if s.flowOk i e (padTo 64 k) then none else some stBADFIELD }
      | false, _ => s.roomFor h.hold (flowKeys i e) { base with own := if s.flowOk i e [] then none else some stBADFIELD }

/-- The bytes a read gave. -/
def hostLine (r : HostRead) : Line := match r with | .ok b => padTo 64 b | .error => []

/-- A table command's updates are written: a held one completes at once, an unheld one at the switch (R97). -/
def State.updated (s : State) (h : Hdr) (id : Nat) (flow : Option Nat) : State :=
  if h.hold then
    match flow with | some i => s.completePlace id i s.pendSeq | none => s.complete id stOK []
  else s.awaitSwitch (some (id, flow))

/-- FLOW_ADD (R129, R130, R225). -/
def specFlowAdd (h : Hdr) (flow : Nat) (check : Bool) (crc : Nat) (r : FlowRead) : Spec :=
  { opc := 0x10
    chk := fun s => s.flowChecks h flow true check crc r
    work := fun id s => (s.loadFlow flow (hostLine r.flow) (hostLine r.key) h.hold).updated h id (some flow) }

def execFlowAdd (h : Hdr) (flow : Nat) (check : Bool) (crc : Nat) (r : FlowRead) (s : State) : Res :=
  s.issue h (.flowAdd h flow check crc r) (specFlowAdd h flow check crc r)

/-- FLOW_MOD (R129, R130, R225). -/
def specFlowMod (h : Hdr) (flow : Nat) (check : Bool) (crc : Nat) (r : FlowRead) : Spec :=
  { opc := 0x12
    chk := fun s => s.flowChecks h flow false check crc r
    work := fun id s => (s.loadFlow flow (hostLine r.flow) (hostLine r.key) h.hold).updated h id (some flow) }

def execFlowMod (h : Hdr) (flow : Nat) (check : Bool) (crc : Nat) (r : FlowRead) (s : State) : Res :=
  s.issue h (.flowMod h flow check crc r) (specFlowMod h flow check crc r)

/-- FLOW_DEL (R129, R225, R42). -/
def specFlowDel (h : Hdr) (flow : Nat) : Spec :=
  { opc := 0x11
    chk := fun s =>
      let e := s.anchoring flow
      let base : Checks :=
        { badField := decide (flowSlots ≤ flow)
          noShadow := !s.registered tFlow h.fn || (s.flowInUse flow && flowKeyLoad e && !s.registered (flowKeyTable e) h.fn)
          own := if s.flowInUse flow then none else some stBADFIELD
          updates := 1 }
      s.roomFor h.hold (flowKeys flow e) base
    work := fun id s => (s.removeFlow flow h.hold).updated h id none }

def execFlowDel (h : Hdr) (flow : Nat) (s : State) : Res := s.issue h (.flowDel h flow) (specFlowDel h flow)

/-! ### GROUP_SET (R131, R306-R308) -/

/-- Valid members of a list. -/
def validMembers (l : List Nat) : Nat := (l.filter fun m => bit m 31).length

def groupBad (e : Line) (list lines : Nat) (ls : List Line) : Bool :=
  let n := validMembers (groupMembers e) + ls.foldl (fun n l => n + validMembers (listMembers l)) 0
  decide (12 < groupInline e) || groupTotal e != n || decide (1023 < groupTotal e) || decide (2097152 < list + lines) ||
    decide (2097152 < groupList e + groupLines e) || (decide (0 < lines ∨ 0 < groupLines e) && decide (groupInline e < 12))

def specGroupSet (h : Hdr) (group list lines : Nat) (g : HostRead) (ls : List HostRead) : Spec :=
  let rs := (List.range lines).map fun k => ls.getD k .error
  { opc := 0x14
    chk := fun s =>
      let base : Checks :=
        { badField := decide (65535 < group) || decide (64 < lines) || decide (2 ^ 32 ≤ list)
          noShadow := !s.covers tGroup h.fn group || (lines != 0 && (!s.registered tList h.fn || decide (s.shadowEntries tList h.fn < list + lines)))
          updates := 1 + lines }
      match g, rs.findIdx? (fun r => r == .error) with
      | .error, _ => { base with own := some stHWFAULT, dmaAddr := s.shadowAddr tGroup h.fn group }
      | _, some k => { base with own := some stHWFAULT, dmaAddr := s.shadowAddr tList h.fn (list + k) }
      | .ok _, none =>
        s.roomFor h.hold ((tGroup, group) :: (List.range lines).map fun k => (tList, list + k))
          { base with own := if groupBad (hostLine g) list lines (rs.map hostLine) then some stBADFIELD else none }
    work := fun id s =>
      let s := s.update tGroup group (some (hostLine g)) h.hold
      let s := (List.range lines).foldl (fun (s : State) k => s.update tList (list + k) (some (hostLine (rs.getD k .error))) h.hold) s
      s.updated h id none }

def execGroupSet (h : Hdr) (group list lines : Nat) (g : HostRead) (ls : List HostRead) (s : State) : Res :=
  s.issue h (.groupSet h group list lines g ls) (specGroupSet h group list lines g ls)

/-! ### FLOW_BULK (R54, R122, R129, R135) -/

/-- Its operands in LongOp.args: FIRST, COUNT, DELETE, the status it ends with plus one, and the entries in force. -/
def specFlowBulk (h : Hdr) (first count : Nat) (delete : Bool) : Spec :=
  { opc := 0x13
    chk := fun s =>
      { badField := decide (flowSlots < first + count) || count == 0
        noShadow := !s.registered tFlow h.fn || (!delete && decide (s.shadowEntries tFlow h.fn < first + count))
        noRoom := (s.freeSlot h.fn).isNone || (h.hold && decide (65536 < s.heldCount + count)) }
    work := fun id s => s.startOp h id 0x13 [first, count, b2n delete, 0, 0] fun _ s => s }

def execFlowBulk (h : Hdr) (first count : Nat) (delete : Bool) (s : State) : Res :=
  s.issue h (.flowBulk h first count delete) (specFlowBulk h first count delete)

def State.bulkArg (s : State) (k i : Nat) : Nat := (s.op k).args.getD i 0
def State.setBulkArg (s : State) (k i v : Nat) : State := s.setOp k { s.op k with args := (s.op k).args.set i v }

/-- APPLIED and NEXT of a bulk (R129, R135). -/
def bulkResult (applied next : Nat) : List Nat := le 4 applied ++ le 4 next

/-- What a held bulk wrote and still stands in the pending generation is taken back (R122). -/
def State.bulkUndo (s : State) (k : Nat) : State :=
  let l := tget [] s.hst.undo k
  let s := l.foldl (fun (s : State) u =>
    let vs := s.vers u.table u.index
    match vs.getLast? with
    | some v =>
      if v.gen = s.pendSeq ∧ v.val = u.wrote ∧ v.held then
        s.setVers u.table u.index ((vs.filter fun w => w.gen != s.pendSeq) ++ u.old.toList)
      else s
    | none => s) s
  { s with hst := { s.hst with undo := tdel k s.hst.undo } }

/-- A bulk ends with a status before its range is done, as a cancel would end it (R122, R129): with HOLD nothing stays;
without, its final completion waits until what it has written is in force. -/
def State.bulkStop (s : State) (k st next : Nat) : State :=
  let o := s.op k
  if o.hold then (s.bulkUndo k).endOp k st (bulkResult (s.bulkArg k 4) next)
  else if o.applied = s.bulkArg k 4 then s.endOp k st (bulkResult o.applied next)
  else (s.setBulkArg k 3 (st + 1)).setOp k { (s.setBulkArg k 3 (st + 1)).op k with next := next }

/-- Record a version for the undo of a held bulk. -/
def State.noteUndo (s : State) (k t i : Nat) (wrote : Option Line) : State :=
  if (s.op k).hold then
    let old := (s.vers t i).getLast?.filter fun v => v.gen == s.pendSeq
    { s with hst := { s.hst with undo := tset [] k (⟨t, i, old, wrote⟩ :: tget [] s.hst.undo k) s.hst.undo } }
  else s

/-- One entry of the range is applied. -/
def State.bulkAdvance (s : State) (k : Nat) : State :=
  let o := s.op k
  s.setOp k { o with applied := o.applied + 1, next := o.next + 1 }

/-- What became of one entry of a bulk: it is applied with so many entry updates, the bulk waits, or it ends with a status. -/
inductive BulkStep where
  | applied (updates : Nat)
  | wait (full : Bool)
  | stop (status : Nat)
deriving DecidableEq, Repr

/-- Apply entry `i` of the bulk in slot `k`, whose shadow was read as `r`. -/
def State.bulkEntry (s : State) (k i : Nat) (r : FlowRead) : State × BulkStep :=
  let o := s.op k
  let del := s.bulkArg k 2 == 1
  let room (l : List (Nat × Nat)) := s.roomFor o.hold l {}
  let stopRoom (c : Checks) : State × BulkStep := (s, .wait c.versFull)
  if !s.registered tFlow o.fn ∨ (!del ∧ !s.covers tFlow o.fn i) then (s, .stop stNOSHADOW)
  else match del, r.flow with
  | false, .error => (s.dmaError o.fn (s.shadowAddr tFlow o.fn i) 3, .stop stHWFAULT)
  | _, _ =>
    let e := (hostLine r.flow)
    if del ∨ !flowValid e then
      if !s.flowInUse i then (s, .applied 0)
      else
        let x := s.anchoring i
        if flowKeyLoad x ∧ !s.registered (flowKeyTable x) o.fn then (s, .stop stNOSHADOW)
        else
          let c := room (flowKeys i x)
          if c.noRoom then stopRoom c
          else
            let s := (flowKeys i x).foldl (fun (s : State) y => s.noteUndo k y.1 y.2 none) s
            (s.removeFlow i o.hold, .applied 1)
    else if flowKeyLoad e ∧ !s.covers (flowKeyTable e) o.fn (flowAnchor e) then (s, .stop stNOSHADOW)
    else match flowKeyLoad e, r.key with
      | true, .error => (s.dmaError o.fn (s.shadowAddr (flowKeyTable e) o.fn (flowAnchor e)) 3, .stop stHWFAULT)
      | _, _ =>
        if !s.flowOk i e (hostLine r.key) then (s, .stop stBADFIELD)
        else
          let c := room (flowKeys i e)
          if c.noRoom then stopRoom c
          else
            let s := s.noteUndo k tFlow i (some e)
            let s := if flowKeyLoad e then s.noteUndo k (flowKeyTable e) (flowAnchor e) (some (hostLine r.key)) else s
            (s.loadFlow i e (hostLine r.key) o.hold, .applied 1)

/-- The share of a tick (R54, R135): at most `n` entries, one for each read at hand, from the budget left. -/
def State.bulkShare (s : State) (k : Nat) : Nat → List FlowRead → State
  | 0, _ => s
  | _ + 1, [] => s
  | n + 1, r :: rs =>
    let o := s.op k
    if s.bulkArg k 0 + s.bulkArg k 1 ≤ o.next ∨ s.bulkArg k 3 ≠ 0 ∨ o.ended.isSome ∨ s.sys.budget = 0 then s
    else
      let x := s.bulkEntry k o.next r
      match x.2 with
      | .applied u => (({ x.1 with sys := { x.1.sys with budget := x.1.sys.budget - u } } : State).bulkAdvance k).bulkShare k n rs
      | .wait full => if full then x.1.ev 53 [(4, x.1.versionsUsed), (4, x.1.heldCount)] else x.1
      | .stop st => x.1.bulkStop k st o.next

/-- After its share: a held bulk whose range is written has ended; an unheld one waits for the switch (R97). -/
def State.bulkDone (s : State) (k : Nat) : State :=
  let o := s.op k
  if o.ended.isSome ∨ s.bulkArg k 3 ≠ 0 ∨ o.next < s.bulkArg k 0 + s.bulkArg k 1 then s
  else if o.hold ∨ o.applied = s.bulkArg k 4 then s.endOp k stOK (bulkResult o.applied o.next)
  else s.setBulkArg k 3 (stOK + 1)

/-- One bulk takes its share; unheld updates wait for the switch. -/
def State.bulkTake (s : State) (k : Nat) (rs : List FlowRead) : State :=
  let o := s.op k
  let rs := if s.bulkArg k 2 = 1 then List.replicate (s.reg .SYS_BUDGET_BULK_SHARE) ⟨.ok [], .ok []⟩ else rs
  let b := s.sys.budget
  let s := (s.bulkShare k (s.reg .SYS_BUDGET_BULK_SHARE) rs).bulkDone k
  if !o.hold ∧ s.sys.budget < b then s.awaitSwitch none else s

/-- Each running bulk takes its share, in slot order (R54, R135); `reads` are the shadow entries read for each slot, in index
order. -/
def State.sharesTaken (s : State) (reads : List (Nat × List FlowRead)) : State :=
  let s : State := { s with hst := { s.hst with sharedAt := s.clk.tickCount + 1 } }
  (List.range 32).foldl (fun (s : State) k =>
    let o := s.op k
    if o.state = 2 ∧ o.opcode = 0x13 ∧ o.ended.isNone then
      let o := if o.next < o.args.getD 0 0 then { o with next := o.args.getD 0 0 } else o
      (s.setOp k o).bulkTake k (((reads.find? fun x => x.1 == k).map Prod.snd).getD [])
    else s) s

/-- A switch has made what the bulks wrote current: it is in force, and a bulk that waited for it ends (R97). -/
def State.bulkSwitched (s : State) : State :=
  let s := { s with hst := { s.hst with undo := [] } }
  (List.range 32).foldl (fun (s : State) k =>
    let o := s.op k
    if o.live ∧ o.opcode = 0x13 then
      let s := s.setBulkArg k 4 o.applied
      if s.bulkArg k 3 ≠ 0 then s.endOp k (s.bulkArg k 3 - 1) (bulkResult o.applied o.next) else s
    else s) s

/-! ### The engine (R233-R239) -/

/-- Set of a flow in the flow cache (R227). -/
def cacheSet (i : Nat) : Nat := (i % 8192) ^^^ (i / 8192 % 8192)

/-- Ways of a set in use: cached and filling flows, and ways not yet freed (R234). -/
def State.waysUsed (s : State) (k : Nat) : Nat :=
  (s.cls.place.filter fun x => cacheSet x.1 == k && (!x.2.spot.cacheOut || !x.2.plan.cacheOut || x.2.state == 1)).length +
    (s.cls.freeing.filter fun x => x.1 == 0 && x.2.1 == k).length

/-- Free slots of the flow store. -/
def State.slotsFree (s : State) : Nat := flowSlots - s.cls.slots.length

/-- A placement move of flow `i` is made (R234, R253). -/
def State.moveMade (s : State) (i : Nat) : State :=
  ({ s with cls := { s.cls with moves := s.cls.moves + 1 } } : State).tally 13 8 1 0 0 (s.flowClass i) 1

/-- A move, or its abandonment, is reported by E052: 0 promotion, 1 demotion, 2 bank move, 3 abandoned. -/
def State.placeNote (s : State) (what i : Nat) : State :=
  let s := if what ≤ 2 then s.moveMade i else s
  s.evT 52 ((List.range 4).map fun k => (4, b2n (k == what), Mg.sum))

/-- A move is abandoned: what it wrote into the pending generation is taken back (R239). -/
def Placement.abandoned (p : Placement) : Placement :=
  { p.put fun x => { x with cacheOut := p.spot.cacheOut, slot := p.spot.slot } with
    state := if p.state = 4 then p.prev else 0, ready := false }

/-- One move is made (0 promotion, 1 demotion, 2 bank move, 3 replication, 4 check unit), unless the pending generation already holds a host update of the flow (R234). -/
def State.placeMove (s : State) (i what : Nat) : State :=
  let p := s.placement i
  if (s.vers tFlow i).any fun v => v.gen == s.pendSeq then s.placeNote 3 i
  else match what with
    | 0 =>
      if p.state = 0 ∧ s.waysUsed (cacheSet i) < 16 then
        (s.setPlacement i { p with state := 1, ready := false, since := s.clk.tickCount + 1 }).placeNote 0 i
      else s.placeNote 3 i
    | 1 =>
      if p.state = 2 ∧ !p.demote then
        ((s.setPlacement i { p.put fun x => { x with cacheOut := true } with demote := true }).awaitSwitch none).placeNote 1 i
      else s
    | 2 =>
      if p.state = 0 ∧ s.reg .CLS_PLACE_BANK_SLOT_RESERVE ≤ s.slotsFree then
        let k := s.pickSlot p.spot.bank
        let s := s.fresh.takeSlot k i
        ((s.setPlacement i { p.put fun x => { x with slot := k } with
          state := 4, prev := 0, newSlot := k, ready := true, since := s.clk.tickCount + 1 }).awaitSwitch none).placeNote 2 i
      else s.placeNote 3 i
    | 3 =>
      if p.plan.repl = p.replHint then s
      else ((s.setPlacement i (p.put fun x => { x with repl := p.replHint })).awaitSwitch none).moveMade i
    | _ =>
      match (s.newest tFlow i).bind Ver.val with
      | some e => ((s.setPlacement i (p.put fun x => { x with chku := s.pickUnit e })).awaitSwitch none).moveMade i
      | none => s

/-- The moves chosen are made, at most MOVES per tick, and none while a timed commit set is accepted (R234). -/
def State.placeMoves (s : State) : State :=
  if !s.flag .CLS_PLACE_EN ∨ s.sys.timed.isSome then s
  else
    let n := s.reg .CLS_PLACE_MOVES - s.cls.moves
    let l := s.cls.todo
    (l.take n).foldl (fun (s : State) x => s.placeMove x.1 x.2) { s with cls := { s.cls with todo := l.drop n } }

/-- Score of a flow (R233). -/
def State.score (s : State) (i : Nat) (p : Placement) : Nat :=
  let rank := match (s.lookup tFlow i s.sys.genSeq).bind Ver.val with | some e => flowRank e | none => 0
  rank * 2 ^ 20 + min p.frames (2 ^ 20 - 1) + (if p.cacheHint = 1 then 2 ^ 24 else 0)

/-- Insert by falling key. -/
def insBy (k i : Nat) : List (Nat × Nat) → List (Nat × Nat)
  | [] => [(k, i)]
  | (a, b) :: t => if a < k then (k, i) :: (a, b) :: t else (a, b) :: insBy k i t

/-- The flows a set keeps: the pinned ones, then the highest-scoring ones not marked keep-out, 16 in all (R233). The order
of equal scores is a free value (log entry 20). -/
def State.setWanted (s : State) (k : Nat) : List Nat :=
  let l := s.cls.place.filter fun x => cacheSet x.1 == k && x.2.state != 7 && x.2.state != 5 && x.2.cacheHint != 3
  let tie (i : Nat) := Config.freeTie (s.freeCtr * 2 ^ 23 + i) % 2 ^ 32
  let o := l.foldl (fun a x => insBy (((if x.2.cacheHint = 2 then 2 ^ 40 else 0) + s.score x.1 x.2) * 2 ^ 32 + tie x.1) x.1 a) []
  (o.take 16).map Prod.snd

/-- Moves of the cache sets: demotions first, so that a promotion of a later interval finds its way free. -/
def State.cacheMoves (s : State) : List (Nat × Nat) :=
  let sets := (s.cls.place.map fun x => cacheSet x.1).eraseDups
  sets.flatMap fun k =>
    let want := s.setWanted k
    let here := s.cls.place.filter fun x => cacheSet x.1 == k
    (here.filter fun x => x.2.state == 2 && !want.contains x.1).map (fun x => (x.1, 1)) ++
      (here.filter fun x => x.2.state == 0 && want.contains x.1).map (fun x => (x.1, 0))

/-- Flows that leave one overloaded bank: Cistern-only ones with frames in the interval, until the load lies within the
bound (log entry 20). -/
def bankShed (bound : Nat) : Nat → List (Nat × Placement) → List (Nat × Nat)
  | _, [] => []
  | load, x :: t => if bound < load then (x.1, 2) :: bankShed bound (load - x.2.frames) t else []

/-- Moves out of banks whose lookup load exceeds the mean by more than SKEW percent (R233). -/
def State.bankMoves (s : State) : List (Nat × Nat) :=
  let total := s.cls.bankLoad.foldl (fun n x => n + x.2) 0
  let skew := s.reg .CLS_PLACE_BANK_SKEW
  (s.cls.bankLoad.filter fun x => decide (total * (100 + skew) < x.2 * 64 * 100)).flatMap fun x =>
    bankShed (total * (100 + skew) / 6400) x.2 (s.cls.place.filter fun y => y.2.spot.bank == x.1 && y.2.state == 0 && y.2.frames != 0)

/-- Frames audited in the interval by check unit. -/
def State.auditCounts (s : State) : Tab Nat :=
  s.cls.place.foldl (fun t x => if x.2.spot.chku < 16 then tupd 0 x.2.spot.chku (· + x.2.audited) t else t) []

/-- Flows whose REPL hint is not in force, and AUDIT flows whose check unit UNITS no longer holds: their moves are chosen, and
chosen again after they were abandoned (R234, R237). -/
def State.otherMoves (s : State) : List (Nat × Nat) :=
  let units := s.reg .CLS_PLACE_AUDIT_UNITS
  (s.cls.place.filter fun x => x.2.plan.repl != x.2.replHint).map (fun x => (x.1, 3)) ++
    (s.cls.place.filter fun x => match (s.newest tFlow x.1).bind Ver.val with
      | some e => flowAudit e && !(decide (x.2.plan.chku < 16) && bit units x.2.plan.chku) && s.pickUnit e != 0xFF
      | none => false).map fun x => (x.1, 4)

/-- PLACE_INTERVAL: flows are scored and moves chosen (R233, R237); with EN 0, placements stay as they are. -/
def doPlaceInterval (s : State) : State :=
  if !s.flag .CLS_PLACE_EN ∨ s.clk.tickCount < s.cls.intervalNext then s
  else
    let todo := s.cacheMoves ++ s.bankMoves ++ s.otherMoves
    let s := { s with cls := { s.cls with
      intervalNext := s.clk.tickCount + max 1 (s.reg .CLS_PLACE_INTERVAL), todo := todo, auditLast := s.auditCounts, bankLoad := [] } }
    let s : State := { s with spe := { s.spe with groupLast := s.spe.groupLoad, groupLoad := [] } }
    let place := s.cls.place.map fun x => (x.1, { x.2 with frames := 0, audited := 0 })
    ({ s with cls := { s.cls with place := place } } : State).fresh.placeMoves

def execPlaceInterval (s : State) : Res := run doPlaceInterval s

/-- FILL_READ_DONE: the line of a FILLING flow is in its way, or the read has failed (R239). -/
def doFillReadDone (flow : Nat) (ok : Bool) (s : State) : State :=
  let p := s.placement flow
  if p.state ≠ 1 ∨ p.ready then s
  else if ok then (s.setPlacement flow { p.put fun x => { x with cacheOut := false } with ready := true }).awaitSwitch none
  else s.setPlacement flow { p with state := 0 }

def execFillReadDone (flow : Nat) (ok : Bool) (s : State) : Res := run (doFillReadDone flow ok) s

/-- PLACE_TIMEOUT: FILLING or MOVING has lasted 8 ticks (R239). -/
def doPlaceTimeout (flow : Nat) (s : State) : State :=
  let p := s.placement flow
  if s.clk.tickCount + 1 < p.since + 8 then s
  else match p.state with
    | 1 => (s.setPlacement flow p.abandoned).placeNote 3 flow
    | 4 => ((s.dropSlot p.newSlot).setPlacement flow p.abandoned).placeNote 3 flow
    | _ => s

def execPlaceTimeout (flow : Nat) (s : State) : Res := run (doPlaceTimeout flow) s

/-- DIRECTORY_REREAD_DONE: the record is back, or its mirror line is damaged too and the flow has FAILED, its slot lost
(R242). -/
def doDirectoryRereadDone (flow : Nat) (ok : Bool) (s : State) : State :=
  let p := s.placement flow
  if !p.reread then s
  else if ok then s.setPlacement flow { p with reread := false }
  else ((s.dropSlot p.spot.slot).setPlacement flow { p with
    reread := false, state := 5, spot := { p.spot with cacheOut := true }, next := none }).failedEvent tFlow flow

def execDirectoryRereadDone (flow : Nat) (ok : Bool) (s : State) : Res := run (doDirectoryRereadDone flow ok) s

/-- The placement of one flow as a switch leaves it (R36, R239): `old` is the last generation that uses what it leaves, `g` the
number of the one that has become current. -/
def Placement.switched (p : Placement) (old g : Nat) : Placement :=
  match p.next with
  | none => p
  | some q =>
    let st := if p.recover then 0 else if p.state = 1 ∧ p.ready then (if p.cacheHint = 2 then 3 else 2)
      else if p.state = 4 ∧ p.ready then p.prev else if p.demote then 0 else p.state
    { p with
      state := st, spot := { q with gen := g % 4 }, next := none
      older := if p.spot = Placement.default.spot then p.older else p.older ++ [(old, p.spot)]
      ready := p.ready && st == 1, demote := false, recover := false }

/-- The placements written into the generation that has become current are in force (R36, R239); what they leave is freed when
generation `old` has drained (R234). -/
def State.placeSwitched (s : State) (old : Nat) : State :=
  s.cls.place.foldl (fun (s : State) x =>
    let i := x.1
    let p := s.placement i
    let left := (if p.state = 4 ∧ p.ready then [(1, p.spot.slot, old)] else []) ++
      (if p.demote then [(0, cacheSet i, old)] else [])
    { s.setPlacement i (p.switched old s.sys.genSeq) with
      cls := { (s.setPlacement i (p.switched old s.sys.genSeq)).cls with freeing := s.cls.freeing ++ left } }) s

/-- Lines into which the versions that a retirement leaves are written: a flow's line, or a list line (R231, R249). -/
def State.writeBacks (s : State) : List Nat :=
  s.store.filterMap fun x =>
    let t := x.1 / 2 ^ 23
    let i := x.1 % 2 ^ 23
    let l := retireVers s.liveGens x.2
    if l.length < x.2.length ∧ l ≠ [] then
      (if t = tFlow then some (cisLine 0 (s.placement i).spot.slot) else if t = tList then some (cisLine 5 i) else none)
    else none

/-- Once older generations have drained: superseded versions are written back and retired, the slots and ways that moved flows
have left are free, and a flow with no entry in any generation gives up its placement, slots and counters (R231, R234, R65). -/
def State.retireAll (s : State) : State :=
  let s := (s.writeBacks.foldl (fun (s : State) l => s.ask 1 l 1) s).retire
  let low := s.oldestGen
  let gone := s.cls.freeing.filter fun x => decide (x.2.2 < low)
  let s := gone.foldl (fun (s : State) x => if x.1 = 1 then s.dropSlot x.2.1 else s)
    { s with cls := { s.cls with
      freeing := s.cls.freeing.filter fun x => decide (low ≤ x.2.2)
      place := s.cls.place.map fun x => (x.1, { x.2 with older := x.2.older.filter fun y => decide (low ≤ y.1) }) } }
  let dead := (s.cls.place.filter fun x => (s.vers tFlow x.1).isEmpty).map Prod.fst
  dead.foldl (fun (s : State) i =>
    let own := (s.cls.slots.filter fun x => x.2 == i + 1).map Prod.fst
    { s with cls := { s.cls with
      slots := s.cls.slots.filter fun x => x.2 != i + 1
      freeing := s.cls.freeing.filter fun x => !(x.1 == 1 && own.contains x.2.1)
      place := tdel i s.cls.place, cnt := tdel i s.cls.cnt, todo := s.cls.todo.filter fun y => y.1 != i } }) s

/-! ### PLACE_HINT (R134, R235) -/

/-- Pinned flows other than `i`, of a set or of all. -/
def State.pins (s : State) (i : Nat) : List Nat := (s.cls.place.filter fun x => x.2.cacheHint == 2 && x.1 != i).map Prod.fst

def specPlaceHint (h : Hdr) (flow cache repl : Nat) : Spec :=
  { opc := 0x15
    chk := fun s =>
      { badField := decide (flowSlots ≤ flow) || decide (3 < cache) || decide (2 < repl)
        own := if s.flowInUse flow then none else some stBADFIELD
        noRoom := cache == 2 && (decide (65536 ≤ (s.pins flow).length) ||
          decide (8 ≤ ((s.pins flow).filter fun j => cacheSet j == cacheSet flow).length)) }
    work := fun id s =>
      let p := s.placement flow
      let p := { p with
        cacheHint := cache
        replHint := repl
        state := if p.state = 2 ∧ cache = 2 then 3 else if p.state = 3 ∧ cache ≠ 2 then 2 else p.state
        demote := p.demote && cache != 2 }
      let s := s.setPlacement flow p
      let more := (if cache = 3 ∧ p.state = 2 then [(flow, 1)] else []) ++ (if repl ≠ p.plan.repl then [(flow, 3)] else [])
      let s := ({ s with cls := { s.cls with todo := s.cls.todo ++ more } } : State).placeMoves
      s.completePlace id flow s.sys.genSeq }

def execPlaceHint (h : Hdr) (flow cache repl : Nat) (s : State) : Res :=
  s.issue h (.placeHint h flow cache repl) (specPlaceHint h flow cache repl)

end Machine
end Sys2Proof
end

