-- ==== Sys2Proof/Machine/Cistern.lean ====
section
/-!
DEFINITION. The Cistern arbiter (R245-R249) and the HBM interface.
-/
namespace Sys2Proof
namespace Machine

/-- Credit of requester `n`, signed, and its floor and ceiling (R246, R247). -/
def State.credit (s : State) (n : Nat) : Int := s.sreg .CIS_ARB_STAT_CREDIT n
def State.arbWeight (s : State) (n : Nat) : Nat := s.reg .CIS_ARB_CFG_WEIGHT n
def State.creditFloor (s : State) (n : Nat) : Int := -((2 * s.arbWeight n : Nat) : Int)

/-- Store a credit, clamped to ±2 × WEIGHT (R247, R248). -/
def State.setCredit (s : State) (n : Nat) (c : Int) : State :=
  s.setReg .CIS_ARB_STAT_CREDIT n (unsgn 16 (max (s.creditFloor n) (min c (2 * s.arbWeight n : Nat))))

/-- The lines that the scrub requester asks for in a tick (R249): the next LINES of the regions, which it walks in turn. -/
def State.scrubAsks (s : State) : State :=
  let a := s.cls.scrubLine
  let n := s.reg .CIS_SCRUB_LINES
  let first := min n (cisLines - a)
  (({ s with cls := { s.cls with scrubLine := (a + n) % cisLines } } : State).ask 7 a first).ask 7 0 (n - first)

/-- CORE cycle 0 of a tick: every credit is refilled (R246). -/
def State.creditTick (s : State) : State :=
  let s := (s.scrubAsks).tally 14 5 1 0 0 8 (Config.refreshCycles (s.reg .CIS_STATUS_REFRESH_2X))
  (List.range 8).foldl (fun (s : State) n =>
    let s := s.tally 14 4 1 0 0 n (b2n (s.reg .CIS_ARB_STAT_WAIT n != 0))
    s.setCredit n (s.credit n + s.arbWeight n)) { s with cls := { s.cls with bankUse := [] } }

/-- Accesses one bank serves in a tick (R245). -/
def bankLimit : Nat := 250

/-- The first `n` lines of a queue of runs, and what is left of it. -/
def takeRun : Nat → List (Nat × Nat) → List Nat × List (Nat × Nat)
  | 0, l => ([], l)
  | _ + 1, [] => ([], [])
  | n + 1, (a, c) :: t =>
    let r := takeRun n (if c ≤ 1 then t else (a + 1, c - 1) :: t)
    (a :: r.1, r.2)

/-- Banks of the next lines of requester `n`, up to a burst. -/
def State.nextBanks (s : State) (n : Nat) : List Nat :=
  (takeRun (max 1 (s.reg .CIS_ARB_CFG_BURST n)) (tget [] s.cls.asks n)).1.map cisBank

/-- The lines of a burst: up to `n`, in order, up to the first one whose bank has no access left in the tick. -/
def State.burstLines (s : State) (n : Nat) (l : List Nat) : List Nat :=
  (l.take n).foldl (fun (a : List Nat × Bool) b =>
    if a.2 ∨ bankLimit ≤ tget 0 s.cls.bankUse b + a.1.count b then (a.1, true) else (a.1 ++ [b], false)) ([], false) |>.1

/-- `a` goes before `b` by credit, then wait count, then number (R247, 2 and 3). -/
def State.fuller (s : State) (a b : Nat) : Bool :=
  decide (s.credit b < s.credit a) || (s.credit a == s.credit b &&
    (decide (s.reg .CIS_ARB_STAT_WAIT b < s.reg .CIS_ARB_STAT_WAIT a) ||
      (s.reg .CIS_ARB_STAT_WAIT a == s.reg .CIS_ARB_STAT_WAIT b && decide (a < b))))

def State.fullest (s : State) : List Nat → Option Nat
  | [] => none
  | a :: t => some (t.foldl (fun a b => if s.fuller b a then b else a) a)

/-- The winner among the requesters that ask, and whether a wait limit forced it (R247). -/
def State.arbWinner (s : State) (l : List Nat) : Option (Nat × Bool) :=
  match (List.range 8).find? fun n => l.contains n && decide (s.reg .CIS_ARB_CFG_WAIT_LIMIT n ≤ s.reg .CIS_ARB_STAT_WAIT n) with
  | some n => some (n, true)
  | none =>
    let above := l.filter fun n => decide (s.creditFloor n < s.credit n)
    ((s.fullest (if above.isEmpty then l else above)).map fun n => (n, false))

/-- One line is served: the bank's accesses of the tick, and E067 when they reach its limit (R245, R252). -/
def State.bankAccess (s : State) (b : Nat) : State :=
  let s := { s with cls := { s.cls with bankUse := tupd 0 b (· + 1) s.cls.bankUse } }
  let n := tget 0 s.cls.bankUse b
  if n = bankLimit then s.ev 67 [(2, b), (4, n)] else s

/-- The registers that a write of CIS_ARB_CFGn stores; a burst of 0 stores 1 (R251). -/
def State.arbStore (s : State) (x : ArbWrite) : State :=
  if 8 ≤ x.n then s
  else s.setRegs [(.CIS_ARB_CFG_WEIGHT, x.n, x.weight), (.CIS_ARB_CFG_BURST, x.n, if x.burst % 16 = 0 then 1 else x.burst),
    (.CIS_ARB_CFG_WAIT_LIMIT, x.n, x.limit)]

/-- The credit of the requester written is clamped to its range as it then is (R248). -/
def State.arbClamp (s : State) (x : ArbWrite) : State := if 8 ≤ x.n then s else s.setCredit x.n (s.credit x.n)

/-- ARB_CONTEST: one requester is granted a burst; its credit falls by one a line and its wait count becomes 0; every other
that asked gains one (R247, R249). The requesters that have a line waiting ask; one whose first line's bank has no access
left does not. `x` is a write of CIS_ARB_CFGn that comes while the contest runs: the contest and its burst go by the old
values; the credit is charged as it stands and clamped to the new range when the burst ends (R248). -/
def doArbContest (x : Option ArbWrite) (s : State) : State :=
  let asks := (List.range 8).filter fun n => !(s.burstLines 1 (s.nextBanks n)).isEmpty
  match s.arbWinner asks with
  | none => x.elim s fun y => (s.arbStore y).arbClamp y
  | some (w, forced) =>
    let lines := s.burstLines 8 (s.nextBanks w)
    let s := { s with cls := { s.cls with asks := tset [] w (takeRun lines.length (tget [] s.cls.asks w)).2 s.cls.asks } }
    let s := asks.foldl (fun (s : State) n =>
      if n = w then s.setReg .CIS_ARB_STAT_WAIT n 0 else s.countReg .CIS_ARB_STAT_WAIT n 1) s
    let s := lines.foldl (fun (s : State) b => s.bankAccess b) s
    let s := x.elim s s.arbStore
    let s := s.setCredit w (s.credit w - lines.length)
    let s := x.elim s s.arbClamp
    let s := (s.tally 14 1 1 0 0 w lines.length).tally 14 2 1 0 0 w 1
    if forced then (s.tally 14 3 1 0 0 w 1).evT 65 ((List.range 8).map fun n => (1, b2n (n == w), Mg.sum)) else s

def execArbContest (w : Option ArbWrite) (s : State) : Res := run (doArbContest w) s

/-- A write of CIS_ARB_CFGn between two contests: it holds from the next contest on, and the credit is clamped to the new
range at once (R248, R251). One that comes within a burst is the operand of ARB_CONTEST. -/
def doArbCfgWrite (n weight burst limit : Nat) (s : State) : State :=
  (s.arbStore ⟨n, weight, burst, limit⟩).arbClamp ⟨n, weight, burst, limit⟩

def execArbCfgWrite (n weight burst limit : Nat) (s : State) : Res := run (doArbCfgWrite n weight burst limit) s

/-- An HBM interface error is retried, or retraining starts (R252). -/
def doHbmInterfaceError (channel kind : Nat) (s : State) : State := s.ev 66 [(2, channel), (1, kind)]

def execHbmInterfaceError (channel kind : Nat) (s : State) : Res := run (doHbmInterfaceError channel kind) s

/-- The stack temperature, and double refresh above 85 °C (R245, R251, E064). -/
def State.stackTemp (s : State) (t : Int) : State :=
  let hot := b2n (decide (85 * 16 < t))
  let was := s.reg .CIS_STATUS_REFRESH_2X
  let s := s.setRegs [(.CIS_STATUS_TEMP, 0, unsgn 16 t), (.CIS_STATUS_REFRESH_2X, 0, hot)]
  s.evIf (was != hot) 64 [(2, unsgn 16 t)]

end Machine
end Sys2Proof
end

