-- ==== Sys2Proof/Machine/Seamless.lean ====
section
/-!
DEFINITION. The seamless protection engine (ch. 11): pair records and windows, the merge decision, ageing, duplication,
the skew probe and the flow audit.
-/
namespace Sys2Proof
namespace Machine

def State.pairRec (s : State) (w : Nat) : PairRec := tget (PairRec.reset w) s.spe.recs w
def State.setPairRec (s : State) (w : Nat) (r : PairRec) : State :=
  { s with spe := { s.spe with recs := tset (PairRec.reset w) w r s.spe.recs } }

/-- The 64-bit record of R353. -/
def PairRec.word (r : PairRec) : Nat :=
  let v := r.head * 2 ^ 48 + r.floor * 2 ^ 32 + r.tags * 2 ^ 16 + b2n r.hv * 2 ^ 15 + b2n r.fv * 2 ^ 14 + b2n r.g * 2 ^ 13 +
    r.gleg * 2 ^ 12 + r.ageB * 2 ^ 10 + r.ageA * 2 ^ 8 + r.bgrp * 2 ^ 5 + r.oow * 2
  v + parity 64 v

/-- Window slot of a pair, window line, bit and expected tag of a sequence number (R354). -/
def PairRec.slot (r : PairRec) (w : Nat) : Nat := 8 * (w / 8) + r.bgrp
def seqLine (q : Nat) : Nat := q / 512 % 8
def seqBit (q : Nat) : Nat := q % 512
def seqTag (q : Nat) : Nat := q / 4096 % 4
def PairRec.tag (r : PairRec) (j : Nat) : Nat := r.tags / 4 ^ j % 4
def PairRec.setTag (r : PairRec) (j v : Nat) : PairRec := { r with tags := setBits r.tags (2 * j + 1) (2 * j) v }

def State.window (s : State) (w j : Nat) : Nat := tget 0 s.spe.win ((s.pairRec w).slot w * 8 + j)
def State.setWindow (s : State) (w j v : Nat) : State :=
  { s with spe := { s.spe with win := tset 0 ((s.pairRec w).slot w * 8 + j) v s.spe.win } }

/-- Signed 16-bit difference. -/
def seqDiff (a b : Nat) : Int := sgn 16 (a + 65536 - b % 65536)

/-- Ones among the low `n` bits. -/
def ones : Nat → Nat → Nat
  | 0, _ => 0
  | n + 1, v => v % 2 + ones n (v / 2)

/-- Clear a line for sequence number `q`, counting what the old lap has lost (R355, R357). -/
def State.clearLine (s : State) (w q : Nat) : State :=
  let r := s.pairRec w
  let j := seqLine q
  let lost := if !r.fv ∧ r.tag j = (seqTag q + 3) % 4 then 512 - ones 512 (s.window w j) else 0
  let s := (s.setWindow w j 0).setPairRec w (r.setTag j (seqTag q))
  if lost = 0 then s
  else
    let s := { s with spe := { s.spe with lost := tupd 0 w (· + lost) s.spe.lost } }
    (s.evT 131 [(4, lost, .sum), (4, w, .low)]).tally 18 3 1 0 0 w lost

/-- Set the bit of a sequence number. -/
def State.seqSeen (s : State) (w q : Nat) : State := s.setWindow w (seqLine q) (s.window w (seqLine q) ||| 2 ^ seqBit q)

/-- The outcomes of R355 in the order of R370; 0: discarded in guard. -/
inductive Merge where
  | guard | start | restart | advance | fill | duplicate | behind | late | outOfWindow
deriving DecidableEq, Repr

def Merge.code (m : Merge) : Nat :=
  match m with
  | .guard => 0 | .start => 1 | .restart => 2 | .advance => 3 | .fill => 4 | .duplicate => 5 | .behind => 6 | .late => 7
  | .outOfWindow => 8

/-- The frame is forwarded. -/
def Merge.forward (m : Merge) : Bool :=
  match m with
  | .start => true | .restart => true | .advance => true | .fill => true | _ => false

/-- The pairs of an octet. -/
def octet (w : Nat) : List Nat := (List.range 8).map (8 * (w / 8) + ·)

/-- Pair `w` is given bank group `g`, in its record and, through the seamless window requester, in the directory mirror
(R354). -/
def State.giveGroup (s : State) (w g : Nat) : State :=
  let s := s.setPairRec w { s.pairRec w with bgrp := g }
  ({ s with spe := { s.spe with mirror := tset (w % 8) w g s.spe.mirror } } : State).ask 2 (cisLine 4 w) 1

/-- A pair that starts exchanges its bank group with the idle pair of its octet whose bank group had the fewest window
accesses in the last interval, where that had fewer (R354; log entry 164). -/
def State.placeWindow (s : State) (w : Nat) : State :=
  let group (q : Nat) := (s.pairRec q).bgrp
  let load (q : Nat) := tget 0 s.spe.groupLast (group q)
  let q := ((octet w).filter fun q => q != w && !(s.pairRec q).hv).foldl (fun a q => if load q < load a then q else a) w
  if q = w then s else (s.giveGroup w (group q)).giveGroup q (group w)

/-- START (R355, row 1). -/
def State.mergeStart (s : State) (w q : Nat) : State :=
  let s := if (s.pairRec w).hv then s else s.placeWindow w
  let r := s.pairRec w
  let t := (seqTag q + 2) % 4
  let r := { r with
    head := q, floor := q, hv := true, fv := true, oow := 0
    tags := (List.range 8).foldl (fun a j => a + t * 4 ^ j) 0 }
  let r := r.setTag (seqLine q) (seqTag q)
  ((s.setPairRec w r).setWindow w (seqLine q) 0).seqSeen w q

/-- FV ends once HEAD is 4,096 beyond FLOOR (R355). -/
def State.mergeFloor (s : State) (w : Nat) : State :=
  let r := s.pairRec w
  if r.fv ∧ 4096 ≤ seqDiff r.head r.floor then s.setPairRec w { r with fv := false } else s

/-- RESTART: cause 1 JUMP, 2 RESYNC (E130). -/
def State.mergeRestart (s : State) (w q cause : Nat) : State × Merge :=
  ((s.mergeStart w q).evCount 130 w fun n => [(1, cause, .keep), (4, n, .new), (4, w, .low)], .restart)

/-- The bits of a line that fails its parity check (R362): those of sequence numbers at or behind HEAD are set. -/
def lineReset (head q : Nat) : Nat :=
  let base := q / 512 * 512
  (List.range 512).foldl (fun a k => if seqDiff (base + k) head ≤ 0 then a + 2 ^ k else a) 0

/-- A window line read has failed its parity check: counted, and E128 (R39, R362). -/
def State.lineFound (s : State) (w q : Nat) (bad : Bool) : State :=
  if bad then (s.guard 0x12 1).ev 128 [(1, 1), (4, w), (2, seqLine q)] else s

/-- Rows 3 to 10 of R355. `bad`: the line of the sequence number fails its parity (R362). -/
def State.mergeRows (s : State) (w q : Nat) (bad : Bool) : State × Merge :=
  let r := s.pairRec w
  let d := seqDiff q r.head
  let stale := r.tag (seqLine q) != seqTag q
  if (s.reg .SPE_CFG_JUMP : Int) < d then (s.lineFound w q bad).mergeRestart w q 1
  else if bad then
    let s := (s.setPairRec w ({ r with head := if 0 < d then q else r.head, oow := if 0 < d then 0 else r.oow }.setTag (seqLine q) (seqTag q))).setWindow w
      (seqLine q) (lineReset r.head q)
    let s := ((s.seqSeen w q).mergeFloor w).lineFound w q true
    (s, if 0 < d then .advance else .fill)
  else if 0 < d then
    let s := s.setPairRec w { r with head := q, oow := 0 }
    let s := if stale then s.clearLine w q else s
    ((s.seqSeen w q).mergeFloor w, .advance)
  else if -4096 < d then
    if r.fv ∧ seqDiff q r.floor < 0 then (s, .behind)
    else
      let s := if stale then s.clearLine w q else s
      if !stale ∧ bit (s.window w (seqLine q)) (seqBit q) then (s, .duplicate)
      else
        let s := s.seqSeen w q
        (s, if (s.reg .SPE_CFG_FILL_LAG : Int) < -d then .late else .fill)
  else
    let o := min 15 (r.oow + 1)
    let s := s.setPairRec w { r with oow := o }
    if s.reg .SPE_CFG_RESYNC ≤ o then s.mergeRestart w q 2
    else (s.evT 129 [(4, 1, .sum), (4, w, .low), (4, (-d).toNat, .high)], .outOfWindow)

/-- The AGE of a leg. -/
def PairRec.age (r : PairRec) (leg : Nat) : Nat := if leg = 0 then r.ageA else r.ageB
def PairRec.setAge (r : PairRec) (leg v : Nat) : PairRec := if leg = 0 then { r with ageA := v } else { r with ageB := v }

/-- A record whose parity fails is reset (R363): BGRP comes from the mirror. Where pairs of the octet have neither a readable
record nor a readable mirror, all of them are reset, with the bank groups that the others do not hold, in ascending order. -/
def State.pairDamage (s : State) (w unread : Nat) : State :=
  if !bit unread (w % 8) then
    ((s.setPairRec w { PairRec.reset w with bgrp := tget (w % 8) s.spe.mirror w }).guard 0x12 1).ev 128 [(1, 2), (4, w), (2, 0)]
  else
    let lost := (octet w).filter fun q => bit unread (q % 8)
    let held := ((octet w).filter fun q => !bit unread (q % 8)).map fun q => (s.pairRec q).bgrp
    let free := (List.range 8).filter fun g => !held.contains g
    let s := (lost.zip free).foldl (fun (s : State) x => (s.setPairRec x.1 (PairRec.reset x.1)).giveGroup x.1 x.2) s
    let others := lost.filter fun q => q != w && !s.spe.opens.contains q
    (({ s with spe := { s.spe with opens := s.spe.opens ++ others } } : State).guard 0x12 lost.length).ev 128 [(1, 3), (4, w), (2, 0)]

/-- The merge decision on sequence number `q` of leg `leg` of pair `w` (R355, R361-R363), which meets the damage `x`. -/
def State.merge (s : State) (w leg q : Nat) (x : SpeFaults) : State × Merge :=
  let lineBad := x.line
  let s := if x.record then s.pairDamage w x.unread else s
  let opens := x.record || s.spe.opens.contains w
  let s : State := { s with spe := { s.spe with opens := s.spe.opens.filter fun q => q != w } }
  let r := s.pairRec w
  let s := s.evIf (r.age leg == 3) 132 [(1, 2), (4, w), (1, leg + 1)]
  let s := s.setPairRec w (r.setAge leg 0)
  if opens then
    let s := s.mergeStart w q
    (s.setPairRec w ({ s.pairRec w with g := true, gleg := leg }.setAge (1 - leg) 0), .start)
  else if !r.hv then ((s.lineFound w q lineBad).mergeStart w q, .start)
  else if r.g ∧ r.gleg = leg then
    let s := s.lineFound w q lineBad
    let s := if lineBad then (s.setPairRec w ((s.pairRec w).setTag (seqLine q) (seqTag q))).setWindow w (seqLine q) (lineReset r.head q) else s
    let r := s.pairRec w
    ((if 0 < seqDiff q r.head then (s.setPairRec w { r with head := q }).mergeFloor w else s).tally 18 4 1 0 0 w 1, .guard)
  else (s.setPairRec w { s.pairRec w with g := false }).mergeRows w q lineBad

/-! ### Skew probe (R368) -/

/-- An arrival of the probed pair: the first one's stamp is held, the second measures leg B minus leg A. -/
def State.probeArrival (s : State) (w leg q full : Nat) : State :=
  if !s.flag .SPE_PROBE_EN ∨ s.reg .SPE_PROBE_PAIR ≠ w then s
  else
    let k := q % 4096
    match tget (0, 0) s.spe.probe k with
    | (tag, t) =>
      if tag = q * 4 + (1 - leg) * 2 + 1 then
        let d : Int := if leg = 1 then (full : Int) - t else (t : Int) - full
        let ns := d / 65536
        let n := s.reg .SPE_SKEW_COUNT_COUNT
        let s := { s with spe := { s.spe with probe := tdel k s.spe.probe } }
        s.setRegs [(.SPE_SKEW_MIN_NS, 0, unsgn 32 (if n = 0 then ns else min ns (s.sreg .SPE_SKEW_MIN_NS))),
          (.SPE_SKEW_MAX_NS, 0, unsgn 32 (if n = 0 then ns else max ns (s.sreg .SPE_SKEW_MAX_NS))),
          (.SPE_SKEW_SUM_NS, 0, unsgn 64 (s.sreg .SPE_SKEW_SUM_NS + ns)), (.SPE_SKEW_COUNT_COUNT, 0, min (2 ^ 32 - 1) (n + 1))]
      else { s with spe := { s.spe with probe := tset (0, 0) k (q * 4 + leg * 2 + 1, full) s.spe.probe } }

/-- SPE_PROBE: a write of EN 0 → 1 clears the skew registers (R368). -/
def doSkewProbe (en : Bool) (pair : Nat) (s : State) : State :=
  let rise := en && !s.flag .SPE_PROBE_EN
  let s := s.setRegs [(.SPE_PROBE_EN, 0, b2n en), (.SPE_PROBE_PAIR, 0, pair)]
  if rise then
    ({ s with spe := { s.spe with probe := [] } }).setRegs [(.SPE_SKEW_MIN_NS, 0, 0), (.SPE_SKEW_MAX_NS, 0, 0),
      (.SPE_SKEW_SUM_NS, 0, 0), (.SPE_SKEW_COUNT_COUNT, 0, 0)]
  else s

def execSkewProbe (en : Bool) (pair : Nat) (s : State) : Res := run (doSkewProbe en pair) s

/-- SPE_QUERY with GO: the record of PAIR into SPE_RESULT (R368). -/
def doSpeQuery (pair : Nat) (s : State) : State :=
  let s := s.setReg .SPE_QUERY_PAIR 0 pair
  s.setRegs [(.SPE_QUERY_DONE, 0, 1), (.SPE_RESULT_RECORD, 0, (s.pairRec (s.reg .SPE_QUERY_PAIR)).word)]

def execSpeQuery (pair : Nat) (s : State) : Res := run (doSpeQuery pair) s

/-- SPE_RESET with GO: the record of PAIR is reset at the next boundary (R368). -/
def doSpeReset (pair : Nat) (s : State) : State :=
  let s := s.setReg .SPE_RESET_PAIR 0 pair
  { s with spe := { s.spe with resets := s.spe.resets ++ [s.reg .SPE_RESET_PAIR] } }

def execSpeReset (pair : Nat) (s : State) : Res := run (doSpeReset pair) s

/-- The boundary resets the pairs named, with BGRP kept (the case of R363). -/
def State.speTick (s : State) : State :=
  let l := s.spe.resets
  l.foldl (fun (s : State) w => s.setPairRec w { PairRec.reset w with bgrp := (s.pairRec w).bgrp })
    { s with spe := { s.spe with resets := [], opens := s.spe.opens.filter fun w => !l.contains w } }

/-! ### Ageing (R361) -/

/-- One record in a sweep pass. -/
def State.agePair (s : State) (w : Nat) : State :=
  let r := s.pairRec w
  if !r.hv then s
  else
    let a := min 3 (r.ageA + 1)
    let b := min 3 (r.ageB + 1)
    let quiet (old new leg : Nat) (s : State) : State :=
      if old < 3 ∧ new = 3 then (s.ev 132 [(1, 1), (4, w), (1, leg + 1)]).tally 18 7 1 0 0 w 1 else s
    let s := quiet r.ageB b 1 (quiet r.ageA a 0 s)
    s.setPairRec w { r with
      ageA := a, ageB := b, hv := !(a == 3 && b == 3)
      g := r.g && !((if r.gleg = 0 then b else a) == 3) }

/-- A sweep pass (R361), every TICKS ticks. -/
def doSpeSweep (s : State) : State :=
  if s.clk.tickCount < s.spe.sweepAt + s.reg .SPE_SWEEP_TICKS then s
  else
    let s := { s with spe := { s.spe with sweepAt := s.clk.tickCount } }
    (s.spe.recs.map Prod.fst).foldl (fun (s : State) w => s.agePair w) s

def execSpeSweep (s : State) : Res := run doSpeSweep s

/-! ### Duplicated sources (R364) -/

/-- A frame of a duplicated source moves HEAD, and counts SOURCE_GAP or REORDER. -/
def State.duplicated (s : State) (w q : Nat) : State :=
  let r := s.pairRec w
  let d := seqDiff q r.head
  if 1 < d then (s.tally 18 6 1 0 0 w (d - 1).toNat).setPairRec w { r with head := q }
  else if 0 < d then s.setPairRec w { r with head := q }
  else s.tally 18 6 2 0 0 w 1

/-! ### Flow audit (R365-R367) -/

/-- One frame in 2^AUDIT_LOG2 of a flow's arrivals is sampled; it is audited when its unit is idle with no job waiting
(R514). The unit is held from here on. -/
def State.auditSample (s : State) (i fid : Nat) (e : Line) : State × Nat :=
  let p := s.placement i
  let u := (s.spotAt i (tget Frame.none_ s.swc.frames fid).gen).chku
  if !flowAudit e ∨ 16 ≤ u then (s, 0)
  else
    let n := p.arrivals
    let s := s.setPlacement i { p with arrivals := (n + 1) % 2 ^ flowAuditLog2 e }
    if n ≠ 0 then (s, 0)
    else if !s.unitFree u then (s.tally 18 8 2 0 0 0 1, 0)
    else
      let a := (s.alive u 0 + 1) % 256
      let s := s.queueJob u 4 0 .audit
      let s := s.setPlacement i { s.placement i with audited := (s.placement i).audited + 1 }
      ({ s with spe := { s.spe with audit := tset none u (some ⟨i, fid, 0, a, 0, false, false⟩) s.spe.audit } }, u + 1)

/-- The frame has ended: its ingress value stands, and the context takes the count of the pair (R515). -/
def State.auditIngress (s : State) (u : Nat) (region : List Nat) : State :=
  match tget none s.spe.audit u with
  | none => s
  | some a =>
    let v := s.chkValue u region
    let s := (s.setAlive u 0 a.alive).setReg .CHK_UNIT_LAST_VALUE u v
    let a : AuditRun := { a with ingress := v, bytes := region.length, ready := true }
    { s with spe := { s.spe with audit := tset none u (some a) s.spe.audit } }

/-- The copy that is audited, the first of its frame, is presented, or it or the frame is stomped or discarded (R366). -/
def State.auditSent (s : State) (u id : Nat) (sent : Bool) : State :=
  match tget none s.spe.audit u with
  | none => s
  | some a => if a.frame = id then { s with spe := { s.spe with audit := tset none u (some { a with sent := sent }) s.spe.audit } } else s

/-- An audit ends (R366): `egress` is the region as the first copy presented it; none: no copy left. -/
def doAuditComplete (u : Nat) (egress : Option (List Nat)) (s : State) : State :=
  match tget none s.spe.audit u with
  | none => s
  | some a =>
    let s := ({ s with spe := { s.spe with audit := tdel u s.spe.audit } }).nextOnUnit u
    let s := s.jobCounted u 4 (a.bytes + (egress.getD []).length)
    match egress, a.ready && a.sent with
    | some d, true =>
      let v := s.chkValue u d
      let s := s.setReg .CHK_UNIT_LAST_VALUE u v
      if v = a.ingress then s.tally 18 8 1 1 0 0 1
      else
        (((s.setReg .SPE_AUDIT_LAST_FLOW 0 a.flow).ev 134 [(4, a.flow), (2, u), (4, a.ingress), (4, v), (4, a.alive)]).tally
          18 8 1 2 0 0 1)
    | _, _ => s.tally 18 8 1 3 0 0 1

def execAuditComplete (u : Nat) (egress : Option (List Nat)) (s : State) : Res := run (doAuditComplete u egress) s

end Machine
end Sys2Proof
end

