-- ==== Sys2Proof/Machine/TimeEngine.lean ====
section
/-!
DEFINITION. The time engine (ch. 12), but for the messages it sends: full time, the increment, the slew and the step, the
servo, clock ports, the two-step match table, and the TIO pins.
-/
namespace Sys2Proof
namespace Machine

/-! ### Time read out (R371, R375) -/

/-- Full time of an accumulator value: seconds, ns, grain. -/
def fullTime (acc : Nat) : Nat × Nat × Nat := (acc / 2 ^ 40 / 10 ^ 9, acc / 2 ^ 40 % 10 ^ 9, acc / 2 ^ 24 % 65536)

/-- A read of TME_TIME_SEC_LO latches full time (R375); the low half of the seconds is what it returns. -/
def doTimeLatchRead (s : State) : State :=
  let t := fullTime s.clk.acc
  let s : State := { s with hiLatch := tset none (latchKey 0 0x500010) (some (0x500010, t.1 / 2 ^ 32)) s.hiLatch }
  (s.setRegs [(.TME_TIME_SEC_SEC, 0, t.1), (.TME_TIME_NS_NS, 0, t.2.1), (.TME_TIME_FRAC_GRAIN, 0, t.2.2)]).emit
    (.readValue 0 0x500010 (t.1 % 2 ^ 32))

def execTimeLatchRead (s : State) : Res := run doTimeLatchRead s

/-- A read of HST_TS_SEC_LO latches full time, the tick number and the traceable flag for function `f` (R82). -/
def doTimeSnapshotRead (f : Nat) (s : State) : State :=
  let t := fullTime s.clk.acc
  let a := 0x5000000 + 0x10000 * f
  let s : State := { s with hiLatch := tset none (latchKey f a) (some (a, t.1 / 2 ^ 32)) s.hiLatch }
  (s.setRegs [(.HST_TS_SEC_SEC, f, t.1), (.HST_TS_NS_NS, f, t.2.1), (.HST_TS_FRAC_GRAIN, f, t.2.2),
    (.HST_TS_FRAC_TRACEABLE, f, b2n s.traceable), (.HST_TS_TICK_TICK, f, s.clk.tick)]).emit
    (.readValue f a (t.1 % 2 ^ 32))

def execTimeSnapshotRead (f : Nat) (s : State) : Res := run (doTimeSnapshotRead f) s

/-! ### Owner and compatibility (R382, R383) -/

def State.compat (s : State) : Bool := s.flag .TME_CFG_COMPAT

/-- The identity that owns the servo: C1 (17) or the PF (0). -/
def State.servoOwner (s : State) : Nat := if s.flag .TME_CFG_SERVO_OWNER then 0 else 17

/-- A refusal under R382 (E145): 1 a step, 2 an increment command, 3 an increment write, 4 a slew write. -/
def State.compatRefused (s : State) (what : Nat) : State := s.ev 145 [(1, what)]

/-- A write by an identity that may not make it (E149). -/
def State.ownerRefused (s : State) (who off : Nat) : State := s.ev 149 [(2, who), (4, off)]

/-- TME_CFG (R382, R383): the servo owner changes only by the PF, COMPAT only until the first correction. -/
def doTmeCfgWrite (who : Nat) (compat owner : Bool) (s : State) : State :=
  let s := if owner = s.flag .TME_CFG_SERVO_OWNER then s
    else if who = 0 then s.setReg .TME_CFG_SERVO_OWNER 0 (b2n owner)
    else s.ownerRefused who 0
  if compat = s.compat then s
  else if s.tme.touched then s.ev 157 [(4, 0)]
  else s.setReg .TME_CFG_COMPAT 0 (b2n compat)

def execTmeCfgWrite (who : Nat) (compat owner : Bool) (s : State) : Res := run (doTmeCfgWrite who compat owner) s

/-- The owner's write of the servo registers (R384): `freq` when TME_SERVO_FREQ is written, `ctrl` (VALID, TIMEOUT) when
TME_SERVO_CTRL is; either restarts the watch. -/
def doServoFreqWrite (who : Nat) (freq : Option Nat) (ctrl : Option (Bool × Nat)) (s : State) : State :=
  if who ≠ s.servoOwner then s.ownerRefused who (if freq.isSome then 0x34 else 0x38)
  else
    let s := match freq with
      | some v => s.setReg .TME_SERVO_FREQ_FREQ 0 v
      | none => s
    let s := match ctrl with
      | some (v, t) => s.setRegs [(.TME_SERVO_CTRL_VALID, 0, b2n v), (.TME_SERVO_CTRL_TIMEOUT, 0, t)]
      | none => s
    { s with tme := { s.tme with servoAt := s.clk.tickCount } }

def execServoFreqWrite (who : Nat) (freq : Option Nat) (ctrl : Option (Bool × Nat)) (s : State) : Res :=
  run (doServoFreqWrite who freq ctrl) s

/-- DPLL `d` is locked (or narrowing) or in holdover: its state is 2, 3 or 4 (R385, R441). -/
def State.dpllGood (s : State) : Bool :=
  let st := s.reg .REF_DPLL_STATUS_STATE 0
  decide (2 ≤ st ∧ st ≤ 4)

/-- TRACEABLE follows SET and DPLL0; every change raises E146 (R385). -/
def State.judgeTraceable (s : State) : State :=
  let v := s.flag .TME_TRACE_SET && s.dpllGood
  if v = s.traceable then s
  else (s.setReg .TME_STATUS_TRACEABLE 0 (b2n v)).ev 146 [(1, b2n v), (1, s.reg .REF_DPLL_STATUS_STATE 0), (1, b2n (s.flag .TME_TRACE_SET))]

/-! ### Slew (R378) -/

/-- A write of TME_SLEW_AMT (R378, R382, R383). -/
def doSlewWrite (who amount : Nat) (s : State) : State :=
  if who ≠ s.servoOwner then s.ownerRefused who 0x28
  else if s.compat then s.compatRefused 4
  else
    let left := s.tme.slewLeft
    let a := sgn 32 amount
    let s := s.evIf (left != 0) 147 [(1, 2), (4, unsgn 32 (left.tdiv (2 ^ 24 : Nat)))]
    let s := { s with tme := { s.tme with slewLeft := a * (2 ^ 24 : Nat) } }
    s.setRegs [(.TME_SLEW_AMT_AMOUNT, 0, amount), (.TME_STATUS_SLEWING, 0, b2n (a != 0))]

def execSlewWrite (who amount : Nat) (s : State) : Res := run (doSlewWrite who amount) s

/-- The remainder has reached 0: SLEWING clears (R378). -/
def doSlewDone (s : State) : State :=
  if s.tme.slewLeft = 0 ∧ s.flag .TME_STATUS_SLEWING then
    (s.setReg .TME_STATUS_SLEWING 0 0).ev 147 [(1, 1), (4, 0)]
  else s

def execSlewDone (s : State) : Res := run doSlewDone s

/-! ### Increment and step (R140, R141, R377, R379) -/

/-- The nominal increment: 2 ns (R377). -/
def nominalIncr : Nat := 2 ^ 41

/-- INCR lies within 500,000 ppb of nominal (R377). -/
def incrAllowed (v : Nat) : Bool := decide (((v : Int) - nominalIncr).natAbs * 2000 ≤ nominalIncr)

/-- INCR of an offset in ppb: round(2^41 × (1 + PPB × 10^-9)) (R377), halves upward. -/
def incrOfPpb (ppb : Int) : Nat := (((2 ^ 41 : Int) * (10 ^ 9 + ppb) + 5 * 10 ^ 8) / 10 ^ 9).toNat

/-- TIME_SET_INCR (R140): the pending TME_INCR at acceptance; it completes at the boundary. -/
def specTimeSetIncr (units incr ppb : Nat) : Spec :=
  let p := sgn 32 ppb
  { opc := 0x30
    chk := fun s =>
      { badField := decide (1 < units) || (units == 0 && (!incrAllowed incr || decide (2 ^ 48 ≤ incr))) ||
          (units == 1 && decide (500000 < p.natAbs))
        own := if s.servoOwner = 17 then some stFROZEN
          else if s.compat ∧ units = 0 then some stBADFIELD else none
        compat := 2 }
    work := fun id s =>
      let s := s.setPend .TME_INCR_INCR 0 (if units = 0 then incr else incrOfPpb p)
      { s with
        tme := { s.tme with incrs := s.tme.incrs ++ [id], touched := true }
        sys := { s.sys with selfScope := s.sys.selfScope ||| 2 ^ 5 } } }

def execTimeSetIncr (h : Hdr) (units incr ppb : Nat) (s : State) : Res :=
  s.issue h (.timeSetIncr h units incr ppb) (specTimeSetIncr units incr ppb)

/-- TIME_STEP (R141): effect at CORE cycle 16 of the tick after acceptance. -/
def specTimeStep (abs delta sec ns grain : Nat) : Spec :=
  { opc := 0x31
    chk := fun s =>
      { badField := decide (1 < abs) || (abs == 1 && (decide (10 ^ 9 ≤ ns) || decide (2 ^ 48 ≤ sec) || decide (2 ^ 16 ≤ grain)))
        own := if s.servoOwner = 17 then some stFROZEN
          else if s.compat ∧ (s.flag .TME_STATUS_STEPPED ∨ !s.tme.step.isEmpty) then some stSTEPSPENT else none
        compat := 1 }
    work := fun id s =>
      { s with tme := { s.tme with
          step := s.tme.step ++ [⟨id, abs == 1, sgn 64 delta, (sec * 10 ^ 9 + ns) * 65536 + grain, s.clk.tickCount⟩], touched := true } } }

def execTimeStep (h : Hdr) (abs delta sec ns grain : Nat) (s : State) : Res :=
  s.issue h (.timeStep h abs delta sec ns grain) (specTimeStep abs delta sec ns grain)

/-! ### Servo watch (R384) -/

/-- The owner has not written the servo value for TIMEOUT ticks. -/
def doServoTimeout (s : State) : State :=
  let t := s.reg .TME_SERVO_CTRL_TIMEOUT
  if s.flag .TME_SERVO_CTRL_VALID ∧ t ≠ 0 ∧ t ≤ s.clk.tickCount - s.tme.servoAt then
    (s.setReg .TME_SERVO_CTRL_VALID 0 0).ev 148 [(4, s.reg .TME_SERVO_FREQ_FREQ)]
  else s

def execServoTimeout (s : State) : Res := run doServoTimeout s

/-! ### Clock ports (R386-R389) -/

def State.portState (s : State) (p : Nat) : Nat := if p < 256 then s.reg .TME_PORT_CFG_STATE p else 0
def State.portInst (s : State) (p : Nat) : Nat := s.reg .TME_PORT_CFG_INST p

/-- The frame arrived on an instance's transport (R387). -/
def State.onTransport (s : State) (i : Nat) (p : Parsed) : Bool :=
  match s.reg .TME_INST_CFG_TRANSPORT i with
  | 0 => p.etype == 0x88F7
  | 1 => p.ip == 4 && p.udp.isSome
  | 2 => p.ip == 6 && p.udp.isSome
  | _ => false

/-- Peer-delay messages: Pdelay_Req (2), Pdelay_Resp (3), Pdelay_Resp_Follow_Up (10). -/
def peerDelay (m : Nat) : Bool := m == 2 || m == 3 || m == 10

/-- A PTP frame is addressed to port `p`'s clock port (R388, R389). -/
def State.addressed (s : State) (p : Nat) (x : Parsed) : Bool :=
  match x.ptp with
  | none => false
  | some h =>
    let i := s.portInst p
    let st := s.portState p
    st != 0 && s.flag .TME_INST_CFG_EN i && s.reg .TME_INST_CFG_DOMAIN i == h.domain && s.onTransport i x &&
      (peerDelay h.msg || st != 5)

/-- How an addressed frame is handled (R389): 0 answered by hardware as a Delay_Req, 1 as a Pdelay_Req, 2 passed to the
agent, 3 discarded and counted. -/
def State.clockAction (s : State) (p : Nat) (h : PtpHead) : Nat :=
  if h.version ≠ 2 ∨ h.len < 34 then 3
  else if peerDelay h.msg then
    if !s.flag .TME_INST_CFG_DELAY (s.portInst p) then 3 else if h.msg = 2 then 1 else 2
  else if h.msg = 1 then (if s.portState p = 2 then 0 else 3)
  else 2

/-- A message to the agent of instance `i`: C1's queue of 4,096 entries, taken whole by C1 at each boundary (log entry
14). The host's part is a punt, made by the caller. -/
def State.toC1 (s : State) (p : Nat) : State :=
  if 4096 ≤ s.tme.agentQ then (s.evT 155 [(4, 1, .sum), (2, p, .low)]).tally 5 5 1 3 0 p 1
  else ({ s with tme := { s.tme with agentQ := s.tme.agentQ + 1 } }).tally 5 4 1 0 0 p 1

/-- A discard of an addressed message (E156): 1 version or length, 2 R389. -/
def State.ptpBad (s : State) (reason p msg : Nat) : State := (s.ev 156 [(1, reason), (2, p), (1, msg)]).tally 5 5 1 reason 0 p 1

/-- An egress stamp goes to the agent (R386, R395): C1's queue, or the instance's FIFO of 1,024. -/
def State.stampToAgent (s : State) (p msg seq stamp : Nat) : State :=
  let i := s.portInst p
  if !s.flag .TME_INST_CFG_AGENT i then s.toC1 p
  else
    let l := tget [] s.tme.txs i
    if 1024 ≤ l.length then s.evT 152 [(1, i, .low), (4, 1, .sum)]
    else { s with tme := { s.tme with txs := tset [] i (l ++ [[msg, p, seq, stamp % 2 ^ 48]]) s.tme.txs } }

/-- A read of TME_INSTi_TXS pops the oldest entry and latches its stamp (R395). -/
def doTxsPop (i : Nat) (s : State) : State :=
  match tget [] s.tme.txs i with
  | [] => (s.setRegs [(.TME_INST_TXS_VALID, i, 0), (.TME_INST_TXS_MSG, i, 0), (.TME_INST_TXS_PORT, i, 0),
      (.TME_INST_TXS_SEQ, i, 0)]).emit (.readValue 0 (0x500110 + 0x40 * i) 0)
  | x :: t =>
    let v (k : Nat) := x.getD k 0
    let s := { s with tme := { s.tme with txs := tset [] i t s.tme.txs } }
    (s.setRegs [(.TME_INST_TXS_VALID, i, 1), (.TME_INST_TXS_MSG, i, v 0), (.TME_INST_TXS_PORT, i, v 1),
      (.TME_INST_TXS_SEQ, i, v 2), (.TME_INST_TXS_NS_NS, i, v 3 / 65536), (.TME_INST_TXS_GRAIN_GRAIN, i, v 3 % 65536)]).emit
      (.readValue 0 (0x500110 + 0x40 * i) (2 ^ 31 + v 0 % 16 * 2 ^ 27 + v 1 % 256 * 2 ^ 16 + v 2 % 65536))

def execTxsPop (i : Nat) (s : State) : Res := run (doTxsPop i) s

/-! ### Transparent clock (R397, R398) -/

/-- LINK of a port in grains (2^-8 ns). -/
def State.linkGrains (s : State) (p : Nat) : Nat := s.reg .TME_PORT_LINK_DELAY p * 256

/-- The addend of a transit event message (R397). -/
def State.ptpAddend (s : State) (msg ing egr : Nat) : Int :=
  match msg with
  | 0 => s.sreg .SEIF_PORT_ASYM_GRAINS ing +
      (if s.flag .TME_INST_CFG_DELAY (s.portInst ing) then (s.linkGrains ing : Int) else 0)
  | 1 => -s.sreg .SEIF_PORT_ASYM_GRAINS egr
  | _ => 0

/-- Keep the entry of a two-step Sync or Delay_Req copy (R398); a full table replaces its oldest entry (E151). -/
def State.twoStepKeep (s : State) (e : TwoStep) : State :=
  let full := decide (16384 ≤ s.tme.twoStep.length)
  let l := if full then s.tme.twoStep.drop 1 else s.tme.twoStep
  let s := { s with tme := { s.tme with twoStep := l ++ [e] } }
  if full then s.evT 151 [(4, 1, .sum)] else s

/-- The value a Follow_Up or Delay_Resp copy takes, freeing its entry (R398); without one, E150. -/
def State.twoStepMatch (s : State) (resp : Bool) (domain seq port : Nat) (spi : List Nat) : State × Option Int :=
  match s.tme.twoStep.find? fun e => e.resp == resp && e.domain == domain && e.seq == seq && e.port == port && e.spi == spi with
  | some e => (({ s with tme := { s.tme with twoStep := s.tme.twoStep.erase e } }).tally 5 6 1 0 0 port 1, some e.value)
  | none => ((s.evT 150 [(4, 1, .sum), (2, port, .low)]).tally 5 6 2 0 0 port 1, none)

/-- Entries that have reached AGE are freed (R398). -/
def doTwostepEntryAge (s : State) : State :=
  let l := s.tme.twoStep.filter fun e => decide (s.clk.tickCount - e.since < s.reg .TME_TWOSTEP_AGE)
  { s with tme := { s.tme with twoStep := l } }

def execTwostepEntryAge (s : State) : Res := run doTwostepEntryAge s

/-! ### TIO pins (R399-R402) -/

def State.tio (s : State) (n : Nat) : Tio := tget Tio.idle s.tme.pins n
def State.setTio (s : State) (n : Nat) (x : Tio) : State :=
  { s with tme := { s.tme with pins := tset Tio.idle n x s.tme.pins } }

/-- The range checks of TIO_SET (R142, R400). -/
def tioBad (x : TioSet) : Bool :=
  decide (7 < x.pin) || decide (4 < x.mode) || x.perDen == 0 || decide (10 ^ 9 ≤ x.startNs) || decide (2 ^ 48 ≤ x.startSec) ||
    decide (x.perNum < 100 * x.perDen) || decide (x.width < 8) || decide (x.perNum ≤ x.width * x.perDen)

/-- TIO_SET (R142): the staged fields of its pin, committed by the TME at the next boundary. -/
def specTioSet (x : TioSet) : Spec :=
  { opc := 0x32
    chk := fun _ => { badField := tioBad x }
    work := fun id s =>
      let n := x.pin
      let s := ([(.TME_TIO_MODE_MODE, x.mode), (.TME_TIO_WIDTH_NS, x.width), (.TME_TIO_PER_NUM_NUM, x.perNum),
        (.TME_TIO_PER_DEN_DEN, x.perDen), (.TME_TIO_START_SEC_SEC, x.startSec), (.TME_TIO_START_NS_NS, x.startNs)]
          : List (Fld × Nat)).foldl (fun (s : State) p => s.setPend p.1 n p.2) s
      { s with
        tme := { s.tme with tios := s.tme.tios ++ [(id, x)] }
        sys := { s.sys with selfScope := s.sys.selfScope ||| 2 ^ 5 } } }

def execTioSet (h : Hdr) (x : TioSet) (s : State) : Res := s.issue h (.tioSet h x) (specTioSet x)

/-- The settings in force of a pin. -/
def State.tioSettings (s : State) (n : Nat) : TioSet :=
  ⟨n, s.reg .TME_TIO_MODE_MODE n, s.reg .TME_TIO_WIDTH_NS n, s.reg .TME_TIO_PER_NUM_NUM n, s.reg .TME_TIO_PER_DEN_DEN n,
    s.reg .TME_TIO_START_SEC_SEC n, s.reg .TME_TIO_START_NS_NS n⟩

/-- The rising edge of number `k` of a train, in grains (R399). -/
def tioRaster (x : TioSet) (k : Nat) : Nat := k * x.perNum * 65536 / x.perDen

/-- The number of the first rising edge at or after grain `g`. -/
def tioIndex (x : TioSet) (g : Nat) : Nat :=
  let k := g * x.perDen / (x.perNum * 65536)
  if g ≤ tioRaster x k then k else if g ≤ tioRaster x (k + 1) then k + 1 else k + 2

/-- The first rising edge, in grains, at or after grain `g`. -/
def tioEdge (x : TioSet) (g : Nat) : Nat := if x.perNum = 0 then g else tioRaster x (tioIndex x g)

/-- A committed set changes a pin at boundary time now (R401). -/
def State.tioApply (s : State) (n : Nat) : State :=
  let x := s.tioSettings n
  let t := s.tio n
  if x.mode = 1 then
    let start := (x.startSec * 10 ^ 9 + x.startNs) * 65536
    let after := max start (max (s.grains + 1000 * 65536) (if t.highUntil = 0 then 0 else t.highUntil + 8 * 65536))
    (s.setTio n { t with train := some x, after := after }).setReg .TME_TIO_STATUS_RUNNING n 1
  else (s.setTio n { t with train := none }).setReg .TME_TIO_STATUS_RUNNING n 0

/-- A step moves the trains (the case of R401): the next edge lies at least 1,000 ns after it, a high pulse keeps its
width, and the edges skipped are counted. `old` is the time before the step, in grains. -/
def State.tioStep (s : State) (n old : Nat) : State :=
  let t := s.tio n
  let high := if t.highUntil = 0 then 0 else ((t.highUntil : Int) + ((s.grains : Int) - old)).toNat
  match t.train with
  | none => s.setTio n { t with highUntil := high }
  | some x =>
    let after := max ((x.startSec * 10 ^ 9 + x.startNs) * 65536) (s.grains + 1000 * 65536)
    let skipped := if old < s.grains then tioIndex x after - tioIndex x t.after else 0
    let s := s.setTio n { t with after := after, highUntil := high }
    if skipped = 0 then s
    else (s.countReg .TME_TIO_STATUS_SKIPPED n skipped).ev 154 [(1, n), (4, skipped)]

/-- The scheduled edge of a pulse train is issued (R399): a rising edge, or the falling edge WIDTH after it. The pin shows
it while its output is not gated by the claim. -/
def doTioPulseEdge (n : Nat) (s : State) : State :=
  let t := s.tio n
  let now : Int := s.grains + sgn 16 (s.reg .TME_TIO_DLY_PS n) * 65536 / 1000
  let shown (v : Nat) (s : State) : State :=
    if s.flag .OUT_TIO_CFG_SHARED n ∧ !s.flag .OUT_TIO_STATUS_GATE n then s else s.emit (.pin 2 n v)
  if t.highUntil ≠ 0 then
    if (t.highUntil : Int) ≤ now + 32768 then (shown 0 (s.setTio n { t with highUntil := 0 })).tally 5 9 1 0 0 n 1
    else s
  else match t.train with
    | none => s
    | some x =>
      let e := tioEdge x t.after
      -- handed to the aligner within the TIME cycle before it
      if (e : Int) ≤ now + 131072 + 2 * 65536 then
        (shown 1 (s.setTio n { t with after := e + 1, highUntil := e + x.width * 65536 })).tally 5 9 1 0 0 n 1
      else s

def execTioPulseEdge (n : Nat) (s : State) : Res := run (doTioPulseEdge n) s

/-- The stamp of a TIO pin goes to the agent C1, where C1 is that of an enabled instance (R386; log entry 165). -/
def State.tioToC1 (s : State) : State :=
  if (List.range 4).all fun i => !s.flag .TME_INST_CFG_EN i || s.flag .TME_INST_CFG_AGENT i then s
  else if 4096 ≤ s.tme.agentQ then s.evT 155 [(4, 1, .sum), (2, 0xFFFF, .low)]
  else { s with tme := { s.tme with agentQ := s.tme.agentQ + 1 } }

/-- An input edge on a TIO pin (R402), at TAI grain `g` of its ball. -/
def doTioInputEdge (n : Nat) (rising : Bool) (g : Nat) (s : State) : State :=
  let m := s.reg .TME_TIO_MODE_MODE n
  if !((m == 2 && rising) || (m == 3 && !rising) || m == 4) then s
  else
    let t := s.tio n
    let g := ((g : Int) + sgn 16 (s.reg .TME_TIO_DLY_PS n) * 65536 / 1000).toNat
    let drop (s : State) : State := (s.evT 153 [(1, 2 ^ n, .or), (4, 1, .sum)]).tally 5 10 2 0 0 n 1
    if t.last ≠ 0 ∧ g + 1 < t.last + 100 * 65536 then s.tally 5 10 2 0 0 n 1
    else if 16 ≤ t.fifo.length then drop s
    else (s.setTio n { t with fifo := t.fifo ++ [(rising, g)], last := g + 1 }).tioToC1.tally 5 10 1 0 0 n 1

def execTioInputEdge (n : Nat) (rising : Bool) (g : Nat) (s : State) : Res := run (doTioInputEdge n rising g) s

/-- A read of TME_TIOn_IN pops the oldest stamp and latches it (R402). -/
def doTioInPop (n : Nat) (s : State) : State :=
  let t := s.tio n
  match t.fifo with
  | [] => (s.setRegs [(.TME_TIO_IN_VALID, n, 0), (.TME_TIO_IN_RISING, n, 0), (.TME_TIO_IN_LEFT, n, 0)]).emit
      (.readValue 0 (0x500224 + 0x40 * n) 0)
  | (r, g) :: rest =>
    let f := fullTime (g * 2 ^ 24)
    let s := s.setTio n { t with fifo := rest }
    (s.setRegs [(.TME_TIO_IN_VALID, n, 1), (.TME_TIO_IN_RISING, n, b2n r), (.TME_TIO_IN_LEFT, n, rest.length),
      (.TME_TIO_IN_SEC_SEC, n, f.1), (.TME_TIO_IN_NS_NS, n, f.2.1), (.TME_TIO_IN_FRAC_GRAIN, n, f.2.2)]).emit
      (.readValue 0 (0x500224 + 0x40 * n) (2 ^ 31 + b2n r * 2 ^ 30 + rest.length))

def execTioInPop (n : Nat) (s : State) : Res := run (doTioInPop n) s

/-! ### The staged set of the TME (R387, R403, R377) -/

/-- The pending settings of a pin are no pulse train (R142). -/
def State.pinRefused (s : State) (n : Nat) : Bool :=
  s.pendReg .TME_TIO_MODE_MODE n == 1 &&
    tioBad ⟨n, 1, s.pendReg .TME_TIO_WIDTH_NS n, s.pendReg .TME_TIO_PER_NUM_NUM n, s.pendReg .TME_TIO_PER_DEN_DEN n,
      s.pendReg .TME_TIO_START_SEC_SEC n, s.pendReg .TME_TIO_START_NS_NS n⟩

/-- A set the TME refuses (R59): an increment out of range, a DOMAIN outside its profile, a TIO pin that breaks R400. -/
def State.tmeRefuses (s : State) : Bool :=
  !incrAllowed (s.pendReg .TME_INCR_INCR) ||
    (List.range 4).any (fun i =>
      let d := s.pendReg .TME_INST_CFG_DOMAIN i
      let ok := if s.pendReg .TME_INST_CFG_PROFILE i = 1 then decide (24 ≤ d ∧ d ≤ 43) else decide (d ≤ 127)
      !ok) ||
    (List.range 8).any s.pinRefused

end Machine
end Sys2Proof
end

