-- ==== Sys2Proof/Machine/Frames.lean ====
section
/-!
DEFINITION. The frames inside the device: what is known of one, its references and their release (R272, R309), discards and
stomps (R303, R304), its cells (R289-R296), and its sampler record (R564).
-/
namespace Sys2Proof
namespace Machine

def State.frame (s : State) (id : Nat) : Frame := tget Frame.none_ s.swc.frames id
def State.setFrame (s : State) (id : Nat) (f : Frame) : State :=
  { s with swc := { s.swc with frames := tset Frame.none_ id f s.swc.frames } }

/-- Port whose cells a frame counts against: 258, no port at all, for one that is injected or originated by the device. -/
def Frame.owner (f : Frame) : Nat := if f.inject.isSome ∨ f.dev.isSome then 258 else f.port

/-- Length of a frame in bytes with FCS; of one still arriving, from its IP length, or PRT_MAXLEN (R299). -/
def State.lenOf (s : State) (f : Frame) : Nat :=
  if f.ended then f.len
  else
    let n := (parse f.head).ipLen
    if n ≠ 0 then max 64 (n + 4) else s.reg .PRT_MAXLEN_MAXLEN f.port

/-! ### Preemption (R202, R205, R328) -/

/-- Preemption is active on a port (R328). -/
def State.preemptActive (s : State) (p : Nat) : Bool := p < 256 && s.reg .PRT_PREEMPT_STATE p == 2

/-- The wire of a MAC. -/
def State.onWire (s : State) (p m : Nat) : List Leaving := tget [] s.egr.wire (2 * p + m)
def State.setWire (s : State) (p m : Nat) (l : List Leaving) : State :=
  { s with egr := { s.egr with wire := tset [] (2 * p + m) l s.egr.wire } }

/-- Bytes of the minimum fragment of a port, with its mCRC (R202). -/
def State.minFragment (s : State) (p : Nat) : Nat := 64 * (1 + s.reg .PRT_PREEMPT_ADD_FRAG p)

/-- Bytes that have left of the fragment on the wire. -/
def State.fragmentSent (s : State) (p : Nat) (l : Leaving) : Nat := (s.grains - l.since) * s.portGbps p / (8 * 65536)

/-- The frame that leaves may be cut here: what has left of it and what is still to leave are each a minimum fragment (R202). -/
def State.cutHere (s : State) (p : Nat) (l : Leaving) : Bool :=
  let n := s.fragmentSent p l
  decide (s.minFragment p ≤ n + 4 ∧ s.minFragment p + l.sent + n ≤ s.lenOf (s.frame l.copy.frame))

/-- A preemptable frame on the wire is cut, where preemption is active and it may be: its fragment is counted; `pause` says
that the frame waits. -/
def State.cutFrame (s : State) (p : Nat) (pause : Bool) : State :=
  match s.onWire p 1 with
  | [] => s
  | l :: t =>
    if l.paused ∨ !s.preemptActive p ∨ !s.cutHere p l then s
    else
      let l := { l with paused := pause, sent := l.sent + s.fragmentSent p l, since := s.grains }
      ((s.setWire p 1 (l :: t)).portCount p 10 1).tally 12 4 2 0 0 p 1

/-! ### XOFF (R205) -/

/-- Send XOFF (or, with quanta 0, its release) for a priority of a port (R205): ahead of every queued frame, cutting the one
that leaves. Without PFC a port sends PAUSE, which pauses every priority while any is held (R204). -/
def State.sendXoff (s : State) (p prio q : Nat) : State :=
  let k := pkey p prio
  let on := q != 0
  let s := { s with prt := { s.prt with
    refresh := if on then tins k (s.grains + quantaGrains (s.portGbps p) q / 2) s.prt.refresh else tdel k s.prt.refresh } }
  if p < 256 ∧ s.flag .PRT_MODE_PFC p then
    let map := s.reg .PRT_PFC_XOFF_TX p
    let s := s.setReg .PRT_PFC_XOFF_TX p (if on then map ||| 2 ^ prio else map &&& (255 - 2 ^ prio))
    -- each PFC frame sent takes 64 B from the bucket of queue 15 (R329)
    (((((s.cutFrame p false).emit (.pfc p [(prio, q)])).portCount p (19 + prio) 1).tally 12 5 2 (prio + 1) 0 p 1).charge p 64)
  else
    let held := s.reg .SWC_HOLD_HELD p != 0
    let s := s.setReg .PRT_PFC_XOFF_TX p (if held then 255 else 0)
    if on ∨ !held then (s.cutFrame p false).emit (.pause p q) else s

/-- Half of QUANTA has elapsed while the priority is still held: XOFF is sent again (R205). -/
def doXoffRefresh (p prio : Nat) (s : State) : State :=
  let at_ := tget 0 s.prt.refresh (pkey p prio)
  if bit (s.reg .PRT_PFC_XOFF_TX p) prio ∧ at_ ≠ 0 ∧ at_ ≤ s.grains then s.sendXoff p prio (s.reg .PRT_PFC_QUANTA p) else s

/-- The row of `doXoffRefresh`. -/
def execXoffRefresh (p prio : Nat) (s : State) : Res := run (doXoffRefresh p prio) s

/-- A frame's flow entry asks for counters (R557). -/
def Frame.counted (f : Frame) : Option Nat :=
  match f.flow, f.verdict.entry with
  | some i, some e => if flowCount e then some i else none
  | _, _ => none

/-! ### Sampler records (R563, R564) -/

def State.frameSample (s : State) (id egr res path outcome : Nat) : State :=
  let f := s.frame id
  match f.samp with
  | none => s
  | some seq =>
    let s := s.setFrame id { f with samp := none }
    let s := { s with obs := { s.obs with following := s.obs.following - 1 } }
    s.sampWrite 0 (padTo 32 ([1, f.gen % 4 * 8 + f.cls] ++ le 2 f.port ++ le 2 egr ++ le 2 (s.lenOf f) ++
      le 4 (f.flow.getD 0x7FFFFF) ++ le 4 seq ++ le 6 res ++ [path, outcome] ++ le 6 (f.full % 2 ^ 48)))

/-! ### The data of a cell (R255) -/

/-- The bytes of the cell at place `k` of a frame: those behind its end are 0. -/
def Frame.cellData (f : Frame) (k : Nat) : List Nat := slice (f.head ++ f.rest) (256 * k) 256

/-- Invert the bits of `l`, numbered from the first byte's least significant one. -/
def flipBits (l : List Nat) (b : List Nat) : List Nat :=
  l.foldl (fun b n => b.set (n / 8) (b.getD (n / 8) 0 ^^^ 2 ^ (n % 8))) b

/-- The CRC written with a cell's data differs from that of the data read, where the bits `l` of the two read inverted. -/
def Frame.crcFails (f : Frame) (k : Nat) (l : List Nat) : Bool :=
  let d := f.cellData k
  let r := flipBits l (d ++ le 2 (crc16 d))
  crc16 (r.take 256) != ofLE (r.drop 256)

/-- The first place of a frame whose cell fails its check at the egress read; `flips` are the (place, bit) inverted. -/
def Frame.badCell (f : Frame) (flips : List (Nat × Nat)) : Option Nat :=
  (List.range f.cells.length).find? fun k =>
    flips.any (fun x => x.1 == k) && f.crcFails k ((flips.filter fun x => x.1 == k).map Prod.snd)

/-! ### Leaving the device -/

/-- The result of PKT_INJECT (R151). -/
def injectResult (f : Frame) (x : Inject) : List Nat :=
  let st := match f.firstEgr with | some g => if x.stamp then g else 0 | none => 0
  le 4 (st / 65536) ++ le 2 (st % 65536) ++ [f.copies % 256, b2n x.late]

/-- The last reference of a frame has gone: it leaves its generation's drain count (R65), an injected frame completes
(R114), and its record goes once its end has been seen. -/
def State.frameGone (s : State) (id : Nat) : State :=
  let f := s.frame id
  if f.stage = 5 then s
  else
    let s := if f.stamped then s.drainSub f.gen else s
    let s := s.frameSample id 0x1FF 0 0 2
    let s := match f.inject with
      | some x => s.complete x.cmd stOK (injectResult f x)
      | none => s
    if f.ended then s.setFrame id Frame.none_
    else s.setFrame id { f with stage := 5, cells := [], want := 0, waiting := [], punts := [], samp := none }

/-- Slice `sl` releases `n` references of every cell of a frame (R272). -/
def State.releaseRefs (s : State) (id n sl : Nat) : State :=
  let f := s.frame id
  if n = 0 ∨ f.stage = 5 then s
  else
    let s := f.cells.foldl (fun (s : State) c => s.cellRelease sl c n f.owner) s
    let s := s.setFrame id { s.frame id with left := f.left - n }
    if f.left ≤ n then s.frameGone id else s

/-- A frame discarded before it is forwarded: its cells are released whole; a COUNT flow's discard is counted (R557). -/
def State.discardFrame (s : State) (id : Nat) (count : Bool) : State :=
  let f := s.frame id
  let s := s.releaseAll f.cells f.owner
  let s := match f.counted, count with | some i, true => s.flowDiscard i | _, _ => s
  s.frameGone id

/-! ### Copies not yet presented -/

/-- Take the copies that `p` picks out of a table of lists. -/
def takeCopies (p : Copy → Bool) (t : Tab (List Copy)) : Tab (List Copy) × List Copy :=
  ((t.map fun x => (x.1, x.2.filter fun c => !p c)).filter fun x => !x.2.isEmpty, t.flatMap fun x => x.2.filter p)

/-- Take the copies that `p` picks, wherever they wait: queues, slipface reservations, pacers, caravan queues, and frames
not yet ended. -/
def State.takeCopies (s : State) (p : Copy → Bool) : State × List Copy :=
  let q := Machine.takeCopies p s.egr.queues
  let l := Machine.takeCopies p s.egr.slip
  let c := Machine.takeCopies p s.swc.caravan
  let w := Machine.takeCopies p s.swc.caravanWait
  let held := s.egr.pacers.flatMap fun x => x.2.held.filter p
  let wait := s.swc.frames.flatMap fun x => x.2.waiting.filter p
  let s := { s with
    egr := { s.egr with
      queues := q.1, slip := l.1
      deficit := s.egr.deficit.filter fun x => q.1.any fun y => y.1 == x.1
      pacers := s.egr.pacers.map fun x => (x.1, { x.2 with held := x.2.held.filter fun c => !p c }) }
    swc := { s.swc with
      caravan := c.1, caravanWait := w.1
      frames := s.swc.frames.map fun x => (x.1, { x.2 with waiting := x.2.waiting.filter fun c => !p c }) } }
  (s, q.2 ++ l.2 ++ c.2 ++ w.2 ++ held ++ wait)

/-- Release the reference of each copy given. -/
def State.releaseCopies (s : State) (l : List Copy) : State :=
  l.foldl (fun (s : State) c => s.releaseRefs c.frame 1 (sliceOf c.port)) s

/-- Stomp the copies of a frame that are on the wire (R304). -/
def State.stompWire (s : State) (id cause : Nat) : State :=
  { s with egr := { s.egr with wire := s.egr.wire.map fun x => (x.1, x.2.map fun l =>
      if l.copy.frame = id ∧ l.stomp = 0 then { l with stomp := cause } else l) } }

/-- A frame is found bad (R303, R304): copies not yet presented are discarded, those presented are stomped. -/
def State.frameBad (s : State) (id cause : Nat) : State :=
  let f := s.frame id
  if f.bad ≠ 0 ∨ f.stage = 5 then s
  else
    let s := s.setFrame id { f with bad := cause }
    let s := if f.unit = 0 then s else s.auditSent (f.unit - 1) id false
    let s := match f.counted with | some i => s.flowDiscard i | none => s
    if f.stage < 4 then s.discardFrame id false
    else
      let s := s.stompWire id cause
      let r := s.takeCopies fun c => c.frame == id
      let owed := f.punts.length
      let s := r.1.setFrame id { r.1.frame id with punts := [] }
      let s := s.releaseCopies r.2
      if owed = 0 then s else s.releaseRefs id owed (sliceOf f.owner)

/-! ### Admission (R289-R296) -/

/-- A priority is lossless at a port (R290). -/
def State.lossless (s : State) (p prio : Nat) : Bool :=
  if 256 ≤ p then true else if s.flag .PRT_MODE_PFC p then bit (s.reg .PRT_MODE_PFC_MASK p) prio else true

/-- The priority is in HOLD (R296). -/
def State.held (s : State) (p prio : Nat) : Bool := tget 0 s.swc.holdSince (pkey p prio) != 0

/-- Port and priority enter HOLD (R293, R296): XOFF is sent, E096 raised with the reason of the failure. -/
def State.holdEnter (s : State) (p prio reason : Nat) : State :=
  if s.held p prio ∨ 256 ≤ p then s
  else
    let s := s.setReg .SWC_HOLD_HELD p (s.reg .SWC_HOLD_HELD p ||| 2 ^ prio)
    let s := { s with swc := { s.swc with holdSince := tset 0 (pkey p prio) (s.clk.tickCount + 1) s.swc.holdSince } }
    let s := s.sendXoff p prio (s.reg .PRT_PFC_QUANTA p)
    (s.evCount 96 p fun n => [(2, p, .low), (1, 2 ^ prio, .or), (4, n, .new), (1, reason, .keep)]).tally 16 3 1 0 0 p 1

/-- The share check of R295: the request fails without asking Oasis. -/
def State.shareFails (s : State) (p pool : Nat) : Bool :=
  let a := s.reg .SWC_ADMIT_ALPHA
  a != 0 && decide (a * (s.reg .OAS_POOL_LIMIT_LIMIT pool - s.inUse pool) < 8 * (tget 0 s.oas.ord (p * 4 + pool) + 1))

/-- A refusal under R292 or R294: reported by E098, E099 or E106, and the frame is discarded, or stomped. -/
def State.refuseFrame (s : State) (id : Nat) : State :=
  let f := s.frame id
  let p := f.port
  let s := if f.cls = 2 then (s.evT 99 [(4, 1, .sum), (2, p, .low)]).tally 16 5 1 2 0 p 1
    else (s.evT 98 [(4, 1, .sum), (1, 2 ^ f.cls, .or), (2, p, .low)]).tally 16 5 1 1 0 p 1
  let s := if f.cls = 0 then s.evT 106 [(1, 1, .keep), (2, p, .low), (4, 1, .sum)] else s
  s.frameBad id 5

/-- The overrun of R207: a headroom request has failed. -/
def State.overrun (s : State) (id : Nat) : State :=
  let p := (s.frame id).port
  let s := ((s.portCount p 36 1).tally 12 8 1 0 0 p 1).evTally 38 p [(1, s.classPrio (s.frame id).cls, .keep), (4, 1, .sum)]
  (s.tally 16 5 1 3 0 p 1).frameBad id 5

/-- A frame asks for the cell it wants: one request of R263 and what its outcome means (R264, R291-R296). -/
def State.askCell (s : State) (id : Nat) : State :=
  let f := s.frame id
  if f.want = 0 ∨ f.stage = 5 ∨ f.stage = 0 ∨ (f.stage < 4 ∧ 1 ≤ f.stage ∧ !f.stamped) then s
  else
    let p := f.owner
    -- a cell is asked for in headroom only while the priority is held (the case of R296)
    let hr := f.hr && s.held p (s.classPrio f.cls)
    let ans : State × (Nat ⊕ CellFail) :=
      if !hr ∧ s.shareFails p f.pool then (s, .inr .share) else s.cellRequest (sliceOf p) f.pool p hr
    let s := ans.1
    match ans.2 with
    | .inl c =>
      let s := s.setRefs [c] (max 1 f.left)
      let s := s.setFrame id { f with cells := f.cells ++ [c], want := f.want - 1, hr := false }
      s.linkCells (f.cells.reverse.take 1 ++ [c])
    | .inr .deferred => s
    | .inr .contention => s
    | .inr r =>
      if hr then s.overrun id
      else if 256 ≤ p then s
      else
        let prio := s.classPrio f.cls
        if s.lossless p prio then
          (s.holdEnter p prio r.code).setFrame id { f with hr := true }
        else s.refuseFrame id

/-- A hold is released when the port's headroom cells of the pool read 0, IN_USE is at most LIMIT − XON_GAP, and nothing of
the port waits at a full queue (R296, R311): quanta 0 are sent, and E097 raised. -/
def doHoldRelease (p prio : Nat) (s : State) : State :=
  let pools := ((List.range 5).filter fun c => s.classPrio c == prio).map fun c => [0, 1, 1, 2, 3].getD c 3
  let pools := if (List.range 5).any (fun c => c == 1 && s.classPrio c == prio) then 2 :: pools else pools
  let free := pools.all fun q => tget 0 s.oas.hdrm (p * 4 + q) == 0 &&
    decide (s.inUse q + s.reg .SWC_ADMIT_XON_GAP ≤ s.reg .OAS_POOL_LIMIT_LIMIT q)
  let blocked := ((s.swc.frames.find? fun x => x.2.owner == p && x.2.stage == 0).any fun x => !x.2.slot) ||
    s.swc.caravanWait.any fun x => x.2.any fun c => (s.frame c.frame).port == p
  if s.held p prio ∧ free ∧ !blocked ∧ p < 256 then
    let k := pkey p prio
    let ticks := s.clk.tickCount + 1 - tget 0 s.swc.holdSince k
    let s := s.setReg .SWC_HOLD_HELD p (s.reg .SWC_HOLD_HELD p - 2 ^ prio)
    let s := { s with
      swc := { s.swc with holdSince := tdel k s.swc.holdSince }
      prt := { s.prt with holdTold := tset 0 k (tget 0 s.prt.holdTold k / 2 * 2) s.prt.holdTold } }
    let s := if s.reg .SWC_HOLD_HELD p = 0 then s.setReg .SWC_HOLD_TICKS p 0 else s
    (s.sendXoff p prio 0).evT 97 [(2, p, .low), (1, 2 ^ prio, .or), (4, ticks, .high)]
  else s

def execHoldRelease (p prio : Nat) (s : State) : Res := run (doHoldRelease p prio) s

/-- TICKS of every port in hold, at a boundary (R321), and the ticks in HOLD of R323. -/
def State.holdTick (s : State) : State :=
  let ports := (s.swc.holdSince.map fun x => x.1 / 8).eraseDups
  ports.foldl (fun (s : State) p =>
    let t := (s.swc.holdSince.filter fun x => x.1 / 8 == p).foldl (fun n x => max n (s.clk.tickCount + 1 - x.2)) 0
    (s.setReg .SWC_HOLD_TICKS p (min (2 ^ 24 - 1) t)).tally 16 4 1 0 0 p 1) s

/-! ### Management ports (R291) -/

/-- A management frame waits at the host port for its first cell. -/
def Frame.mpWaits (f : Frame) : Bool :=
  (f.owner == 256 || f.owner == 257) && f.stage != 5 && f.want != 0 && f.cells.isEmpty

/-- Bytes of a management port that wait ahead of the host port. -/
def State.mpBuffered (s : State) (p : Nat) : Nat :=
  s.swc.frames.foldl (fun n x => if x.2.owner = p ∧ (x.2.mpWaits ∨ x.2.stage = 0) then n + x.2.len else n) 0

/-- PAUSE above 16 KiB, release below 8 KiB (R291). -/
def State.mpPause (s : State) (p : Nat) : State :=
  let n := s.mpBuffered p
  let on := tget 0 s.swc.mpPaused p = 1
  if !on ∧ 16384 < n then
    let s := { s with swc := { s.swc with mpPaused := tset 0 p 1 s.swc.mpPaused } }
    let s := { s with swc := { s.swc with
      holdSince := (List.range 8).foldl (fun t k => tset 0 (pkey p k) (s.clk.tickCount + 1) t) s.swc.holdSince } }
    (s.setReg .SWC_HOLD_HELD p 0xFF).sendXoff p 0 (s.reg .PRT_PFC_QUANTA p)
  else if on ∧ n < 8192 then
    let s := { s with swc := { s.swc with
      mpPaused := tdel p s.swc.mpPaused
      holdSince := s.swc.holdSince.filter fun x => x.1 / 8 != p } }
    let s : State := { s with prt := { s.prt with
      holdTold := (List.range 8).foldl (fun t k => tset 0 (pkey p k) (tget 0 t (pkey p k) / 2 * 2) t) s.prt.holdTold } }
    (s.setRegs [(.SWC_HOLD_HELD, p, 0), (.SWC_HOLD_TICKS, p, 0)]).sendXoff p 0 0
  else s

/-- The receive buffer of a management port after frame `id` has grown or gone: a frame that overruns the 32 KiB is lost and
reported by E038, and PAUSE follows what is left (R291). -/
def State.mpCheck (s : State) (id : Nat) : State :=
  let f := s.frame id
  if f.owner = 256 ∨ f.owner = 257 then
    let s := if (f.mpWaits ∨ f.stage = 0) ∧ 32768 < s.mpBuffered f.owner then s.overrun id else s
    s.mpPause f.owner
  else s

end Machine
end Sys2Proof
end

