-- ==== Sys2Proof/Machine/Egress.lean ====
section
/-!
DEFINITION. The egress manager (ch. 10), but for the start and end of a copy: queues and the express policer, gate lists and
their swap, pacers, and EGR_TLOAD.
-/
namespace Sys2Proof
namespace Machine

/-! ### Queues (R324, R325) -/

def qkey (p q : Nat) : Nat := p * 16 + q
def State.queue (s : State) (p q : Nat) : List Copy := tget [] s.egr.queues (qkey p q)
/-- A queue that empties loses its deficit (R327). -/
def State.setQueue (s : State) (p q : Nat) (l : List Copy) : State :=
  { s with egr := { s.egr with
      queues := tset [] (qkey p q) l s.egr.queues
      deficit := if l.isEmpty then tdel (qkey p q) s.egr.deficit else s.egr.deficit } }

/-- 15 is taken as 14. -/
def notExpress (q : Nat) : Nat := if q = 15 then 14 else q

/-- Queue of a frame's copies (R324). -/
def State.queueOf (s : State) (f : Frame) : Nat :=
  match f.inject with
  | some x => if x.classify then byClass else x.queue
  | none => byClass
where
  byClass : Nat :=
    if f.cls ≤ 1 then 15
    else match f.verdict.entry with
      | some e => notExpress (flowQueue e)
      | none => notExpress (match f.cls with
        | 2 => s.reg .EGR_CLASSQ_MEDIA | 3 => s.reg .EGR_CLASSQ_CONTROL | _ => s.reg .EGR_CLASSQ_BEST)

/-- Copy descriptors in use by an egress slice: its queues and its pacers (R325). -/
def State.descriptors (s : State) (sl : Nat) : Nat :=
  let q := (s.egr.queues.filter fun x => sliceOf (x.1 / 16) == sl).foldl (fun n x => n + x.2.length) 0
  (s.egr.pacers.flatMap fun x => x.2.held).foldl (fun n c => if sliceOf c.port = sl then n + 1 else n) q

/-- A frame enters queue 15: it is charged, or demoted (R329, R330). The queue it enters is answered. -/
def State.police (s : State) (p : Nat) (f : Frame) : State × Nat :=
  let len := s.lenOf f
  let b := s.bucketNow p
  if ((len * bucketUnit : Nat) : Int) ≤ b then (s.charge p len, 15)
  -- a frame injected into queue 15 counts as express (R324)
  else if f.cls = 0 ∧ f.inject.all Inject.classify then
    let s := s.charge p len
    let lvl := unsgn 32 (s.bucketNow p / bucketUnit)
    ((s.evTally 113 p [(4, 1, .sum), (4, lvl, .slow)]).tally 17 7 1 0 0 (qkey p 15) 1, 15)
  else
    let q := notExpress (s.reg .EGR_SCHED_DEMOTE p)
    ((s.evTally 112 p [(4, 1, .sum)]).tally 17 6 1 0 0 (qkey p 15) 1, q)

/-- Put a copy into its queue. -/
def State.pushQueue (s : State) (c : Copy) : State :=
  let f := s.frame c.frame
  let (s, q) := if c.queue = 15 then s.police c.port f else (s, c.queue)
  s.setQueue c.port q (s.queue c.port q ++ [{ c with queue := q }])

/-! ### Pacing entries (R339-R345) -/

def paceValid (e : Line) : Bool := bit (e.getD 0 0) 7
def paceAnchored (e : Line) : Bool := bit (e.getD 0 0) 0
def paceCmax (e : Line) : Nat := e.getD 1 0 % 32
def pacePort (e : Line) : Nat := field e 2 2 8 0
/-- T in grains. -/
def paceT (e : Line) : Nat := ofLE (slice e 4 4) * 256
def paceNum (e : Line) : Nat := ofLE (slice e 8 4)
def paceDen (e : Line) : Nat := ofLE (slice e 12 2)
def paceOffset (e : Line) : Nat := ofLE (slice e 16 4)

/-- A pacing entry breaks a range of R339. -/
def paceBad (e : Line) : Bool :=
  paceCmax e == 0 || decide (16 < paceCmax e) || ofLE (slice e 4 4) == 0 ||
    (paceAnchored e && (paceDen e == 0 || paceNum e == 0 || decide (paceNum e ≤ paceOffset e * paceDen e)))

/-- The anchor of R342 for an ingress stamp, in grains: the raster instant at or before it, plus OFFSET. -/
def paceAnchor (e : Line) (full : Nat) : Nat :=
  let ns := full / 65536
  let n := paceNum e
  let d := paceDen e
  if n = 0 ∨ d = 0 then 0
  else
    let k := (ns * d + d - 1) / n
    let r (k : Nat) := k * n / d
    let at_ := if r (k + 1) ≤ ns then r (k + 1) else if r k ≤ ns then r k else r (k - 1)
    (at_ + paceOffset e) * 65536

def State.pacer (s : State) (k : Nat) : Pacer := tget Pacer.idle s.egr.pacers k
def State.setPacer (s : State) (k : Nat) (x : Pacer) : State :=
  { s with egr := { s.egr with pacers := tset Pacer.idle k x s.egr.pacers } }

/-- The pacing entry that paces a copy, in the version of its frame's generation (R340); `guard` says that it is invalid or
being refetched (R40, the case of R345). -/
inductive PaceUse where
  | free | guard | by (k : Nat) (e : Line)
deriving DecidableEq, Repr

def State.paceOf (s : State) (c : Copy) : PaceUse :=
  let f := s.frame c.frame
  match f.verdict.entry with
  | none => .free
  | some e =>
    let k := flowPace e
    if k = 0xFFFF then .free
    else match s.lookup tPace k f.gen with
      | none => .free
      | some v =>
        if v.state = 1 then .guard
        else match v.val with
          | some x => if v.state = 0 ∧ paceValid x ∧ pacePort x = c.port then .by k x else .free
          | none => .free

/-- A copy reaches its egress manager: it is discarded by a vent or under R40, held by its pacer, or queued; without a
descriptor it waits in the caravan queue (R209, R311, R325, R340). -/
def State.enqueue (s : State) (c : Copy) : State :=
  let f := s.frame c.frame
  let sl := sliceOf c.port
  let prio := s.classPrio f.cls
  match s.ventOf c.port f.cls with
  | some k =>
    let s := { s with prt := { s.prt with vent := tupd 0 k (· + 1) s.prt.vent } }
    let s := (s.portCount c.port 35 1).tally 12 7 1 0 0 c.port 1
    let s := match f.counted with | some i => s.flowDiscard i | none => s
    s.releaseCopies [c]
  | none =>
  if 262144 ≤ s.descriptors sl then
    let l := tget [] s.swc.caravan sl
    if l.length < 1024 ∧ (tget [] s.swc.caravanWait sl).isEmpty then
      { s with swc := { s.swc with caravan := tset [] sl (l ++ [c]) s.swc.caravan } }
    else
      let s := { s with swc := { s.swc with
        caravanWait := tset [] sl (tget [] s.swc.caravanWait sl ++ [c]) s.swc.caravanWait } }
      (s.ev 104 [(2, sl), (2, f.owner)]).holdEnter f.owner prio 6
  else match s.paceOf c with
    | .guard =>
      let s := match f.counted with | some i => s.flowDiscard i | none => s
      (s.guard 0x11 1).releaseCopies [c]
    | .free => s.pushQueue c
    | .by k e =>
      let x := s.pacer k
      let a := if paceAnchored e ∧ x.marker then paceAnchor e f.full + 1 else 0
      let held := x.held ++ [{ c with pace := k + 1, anchor := a }]
      let s := s.setPacer k { x with held := held, marker := match (parse f.head).rtp with | some r => r.2 | none => x.marker }
      let s := s.peak 17 9 (qkey c.port c.queue) held.length
      s.evIf (decide (s.reg .EGR_PACE_WARN < held.length)) 119 [(4, f.flow.getD 0x7FFFFF), (4, held.length)]

/-- The instant, in grains, from which pacer `k` may release its oldest frame, and TAT by then (R341, R342). -/
def State.paceDue (s : State) (k : Nat) (c : Copy) (e : Line) : Nat × Nat :=
  let τ := (paceCmax e - 1) * paceT e
  let tat := (s.pacer k).tat
  let tat := if c.anchor = 0 then tat else max tat (c.anchor - 1 + τ)
  (tat - τ, tat)

/-- A pacer releases its oldest frame into its queue (R341, R343). -/
def doPacerRelease (k : Nat) (s : State) : State :=
  let x := s.pacer k
  match x.held with
  | [] => s
  | c :: rest =>
    let f := s.frame c.frame
    match s.paceOf c with
    | .by _ e =>
      let d := s.paceDue k c e
      if s.grains < d.1 ∨ s.stopped c.port (s.classPrio f.cls) ∨ x.last = s.coreCycle + 1 then s
      else
        let s := s.setPacer k { x with held := rest, tat := max d.2 s.grains + paceT e, last := s.coreCycle + 1 }
        (s.pushQueue { c with released := s.grains + 1 }).tally 17 8 1 0 0 (qkey c.port c.queue) 1
    | .guard => ((s.setPacer k { x with held := rest }).guard 0x11 1).releaseCopies [c]
    | .free => (s.setPacer k { x with held := rest }).pushQueue { c with released := s.grains + 1 }

def execPacerRelease (k : Nat) (s : State) : Res := run (doPacerRelease k) s

/-- Room returns in an egress slice's caravan queue: its references go on to the egress manager while descriptors last,
and those that waited at the ingress enter the queue (R311). -/
def doCaravanQueueRoom (sl : Nat) (s : State) : State :=
  let n := 262144 - s.descriptors sl
  let l := tget [] s.swc.caravan sl
  let s := { s with swc := { s.swc with caravan := tset [] sl (l.drop n) s.swc.caravan } }
  let s := (l.take n).foldl (fun (s : State) c => s.enqueue c) s
  let q := tget [] s.swc.caravan sl
  let w := tget [] s.swc.caravanWait sl
  let m := 1024 - q.length
  { s with swc := { s.swc with
    caravan := tset [] sl (q ++ w.take m) s.swc.caravan, caravanWait := tset [] sl (w.drop m) s.swc.caravanWait } }

def execCaravanQueueRoom (sl : Nat) (s : State) : Res := run (doCaravanQueueRoom sl) s

/-! ### Gate lists (R332-R338) -/

def gateValid (e : Line) : Bool := bit (e.getD 0 0) 7
def gatePhold (e : Line) : Bool := bit (e.getD 0 0) 0
def gateGates (e : Line) : Nat := ofLE (slice e 2 2)
def gateInterval (e : Line) : Nat := ofLE (slice e 4 4)
def gateEn (e : Line) : Bool := bit (e.getD 8 0) 7
def gateExpress (e : Line) : Bool := bit (e.getD 9 0) 0
def gateLen (e : Line) : Nat := field e 10 2 10 0
def gateNum (e : Line) : Nat := ofLE (slice e 12 4)
def gateDen (e : Line) : Nat := ofLE (slice e 16 2)
def gateBase (e : Line) : Nat := ofLE (slice e 20 6) * 10 ^ 9 + field e 28 4 29 0

/-- An entry of a gate list breaks a range of R332; `first` says that it is entry 0. -/
def gateBad (first : Bool) (e : Line) : Bool :=
  decide (gateInterval e < 8) ||
    (first && (gateLen e == 0 || decide (1024 < gateLen e) || gateDen e == 0 || decide (gateNum e < 1000 * gateDen e) ||
      decide (10 ^ 9 ≤ field e 28 4 29 0)))

/-- c(k) of a header, in ns (R333). -/
def gateCycle (h : Line) (k : Int) : Int := gateBase h + k * gateNum h / gateDen h

/-- The cycle in force at `t` ns. -/
def gateCycleAt (h : Line) (t : Int) : Int :=
  if gateNum h = 0 ∨ gateDen h = 0 then 0
  else
    let d := t - gateBase h
    let k := d * gateDen h / gateNum h
    if gateCycle h (k + 1) ≤ t then k + 1 else k

/-- First cycle whose start lies at or after `t` ns. -/
def gateNextCycle (h : Line) (t : Int) : Int :=
  let k := gateCycleAt h t
  if gateCycle h k = t then k else k + 1

/-- Entries of a cycle as (entry, start, end) in ns from its start, for a cycle of `len` ns: cut, or the last one held. -/
def gateSpans (len : Nat) : List Line → Nat → Nat → List (Nat × Nat × Nat)
  | [], _, _ => []
  | [_], n, at_ => if at_ < len then [(n, at_, len)] else []
  | e :: t, n, at_ =>
    if len ≤ at_ then []
    else (n, at_, min len (at_ + gateInterval e)) :: gateSpans len t (n + 1) (at_ + gateInterval e)

/-- The entries the header counts. -/
def gateList (l : List Line) : List Line := match l with | [] => [] | h :: _ => l.take (gateLen h)

/-- Where a list stands at `t` ns: cycle, entry, and how many entries of a cycle that long are not reached. -/
def gateAt (l : List Line) (t : Int) : Int × Nat :=
  match l with
  | [] => (0, 0)
  | h :: _ =>
    let k := gateCycleAt h t
    let o := (t - gateCycle h k).toNat
    let len := (gateCycle h (k + 1) - gateCycle h k).toNat
    let sp := gateSpans len (gateList l) 0 0
    (k, ((sp.find? fun x => decide (x.2.1 ≤ o ∧ o < x.2.2)).map Prod.fst).getD 0)

def State.gate (s : State) (p : Nat) : Gate := tget Gate.open_ s.egr.gates p
def State.setGate (s : State) (p : Nat) (g : Gate) : State :=
  { s with egr := { s.egr with gates := tset Gate.open_ p g s.egr.gates } }

/-- The list that governs a port: none when EN is 0 or the port has no list. -/
def Gate.active (g : Gate) : Option (List Line) :=
  match g.list with
  | [] => none
  | h :: _ => if gateEn h ∧ gateValid h then some (gateList g.list) else none

/-- A queue is open in an entry of a list: queue 15 always, unless GATE_EXPRESS. -/
def gateOpen (h e : Line) (q : Nat) : Bool := (q == 15 && !gateExpress h) || bit (gateGates e) q

/-- The gate state the registers show: FALLBACK leaves queue 15 alone open. -/
def State.showGate (s : State) (p : Nat) : State :=
  let g := s.gate p
  match g.active with
  | none => s.setRegs [(.EGR_GATE_ACTIVE, p, 0), (.EGR_GATE_ENTRY, p, 0),
      (.EGR_GATE_GATES, p, if s.flag .EGR_GATE_FALLBACK p then 0x8000 else 0xFFFF)]
  | some l =>
    let h := l.headD []
    let e := l.getD g.entry []
    let w := (List.range 16).foldl (fun a q => if gateOpen h e q then a + 2 ^ q else a) 0
    s.setRegs [(.EGR_GATE_ACTIVE, p, 1), (.EGR_GATE_ENTRY, p, g.entry),
      (.EGR_GATE_GATES, p, if s.flag .EGR_GATE_FALLBACK p then 0x8000 else w)]

/-- Grains for which a queue stays open from now, within the cycle (R334); none: it is closed. -/
def State.openFor (s : State) (p q : Nat) : Option Nat :=
  let g := s.gate p
  if s.flag .EGR_GATE_FALLBACK p then (if q = 15 then some (2 ^ 80) else none)
  else match g.active with
    | none => some (2 ^ 80)
    | some l =>
      let h := l.headD []
      let t : Int := s.taiNs
      let k := gateCycleAt h t
      let c := gateCycle h k
      let o := (t - c).toNat
      let len := (gateCycle h (k + 1) - c).toNat
      let sp := gateSpans len l 0 0
      let open_ (x : Nat × Nat × Nat) := gateOpen h (l.getD x.1 []) q
      let rest := sp.filter fun x => decide (o < x.2.2)
      let run := rest.takeWhile open_
      match run.getLast? with
      | none => none
      | some x => some ((c + x.2.2).toNat * 65536 - s.grains)

/-- The longest open run of any cycle for a queue, in grains (R336). -/
def Gate.longest (g : Gate) (q : Nat) : Nat :=
  match g.active with
  | none => 2 ^ 80
  | some l =>
    let h := l.headD []
    let len := cdiv (gateNum h) (gateDen h)
    let sp := gateSpans len l 0 0
    let r := sp.foldl (fun (a : Nat × Nat) x =>
      let n := if gateOpen h (l.getD x.1 []) q then a.2 + (x.2.2 - x.2.1) else 0
      (max a.1 n, n)) (0, 0)
    r.1 * 65536

/-- Grains a frame of `len` bytes and its gap take on the wire. -/
def wireGrains (gbps len : Nat) : Nat := if gbps = 0 then 2 ^ 79 else cdiv ((len + 20) * 8 * 65536) gbps

/-- MAC of a queue: 0 express, 1 preemptable (R328). -/
def State.macOf (s : State) (p q : Nat) : Nat :=
  if q ≠ 15 ∧ s.preemptActive p ∧ bit (s.reg .EGR_SCHED_PMAC p) q then 1 else 0

/-- The length R334 asks the gate to stay open for: the minimum fragment on the preemptable MAC. -/
def State.gateLength (s : State) (p q len : Nat) : Nat :=
  if s.macOf p q = 1 then s.minFragment p else len

/-- PHOLD is in force: no preemptable frame starts (R335). -/
def State.phold (s : State) (p : Nat) : Bool :=
  match (s.gate p).active with
  | none => false
  | some l => gatePhold (l.getD (gateAt l s.taiNs).2 [])

/-- The gate of a queue admits a frame of `len` bytes now (R334, R335). -/
def State.gateAdmits (s : State) (p q len : Nat) : Bool :=
  match s.openFor p q with
  | none => false
  | some n => decide (wireGrains (s.portGbps p) (s.gateLength p q len) ≤ n) && !(s.macOf p q == 1 && s.phold p)

/-- At the close of a preemptable queue's run the fragment in progress ends, and the rest of its frame waits (R334). -/
def State.gateCut (s : State) (p : Nat) : State :=
  match s.onWire p 1 with
  | l :: _ => if s.macOf p l.copy.queue = 1 ∧ (s.openFor p l.copy.queue).isNone then s.cutFrame p true else s
  | [] => s

/-- A gate change falls due: the port runs the entry its schedule gives now; a cycle cut short counts TRUNC and raises E115
once per list version (R333). A refetched list leaves FALLBACK at a cycle start (the case of R338). -/
def doGateChange (p : Nat) (s : State) : State :=
  let g := s.gate p
  match g.active with
  | none =>
    let leave := g.fallEnds && s.flag .EGR_GATE_FALLBACK p
    let s := if leave then ((s.setGate p { g with fallEnds := false }).setReg .EGR_GATE_FALLBACK p 0).evLow 116 p [(4, 0), (1, 0)] else s
    s.showGate p
  | some l =>
    let h := l.headD []
    let r := gateAt l s.taiNs
    let len := (gateCycle h r.1 - gateCycle h (r.1 - 1)).toNat
    let sum := l.foldl (fun n e => n + gateInterval e) 0
    let newCycle := r.1 != g.cycle
    let skipped := l.length - (gateSpans len l 0 0).length
    let cut := newCycle && decide (len < sum)
    let s := if cut then s.tally 17 3 1 0 0 (qkey p 0) 1 else s
    let s := if cut ∧ !g.cutTold then s.evLow 115 p [(1, 1), (4, skipped)] else s
    let leave := newCycle && g.fallEnds && s.flag .EGR_GATE_FALLBACK p
    let s := if leave then (s.setReg .EGR_GATE_FALLBACK p 0).evLow 116 p [(4, 0), (1, 0)] else s
    let s := s.setGate p { g with
      cycle := r.1, entry := r.2, cutTold := g.cutTold || cut, fallEnds := g.fallEnds && !leave }
    (s.showGate p).gateCut p

def execGateChange (p : Nat) (s : State) : Res := run (doGateChange p) s

/-- Entries of a port's gate list in the current generation. -/
def State.gateEntries (s : State) (p : Nat) : List Line :=
  match s.entryAt tGate (p * 1024) s.sys.genSeq with
  | none => []
  | some h => (List.range (gateLen h)).map fun n => (s.entryAt tGate (p * 1024 + n) s.sys.genSeq).getD []

/-- An entry of a port's list in the current generation is damaged, and no reload has replaced it. -/
def State.gateDamaged (s : State) (p : Nat) : Bool :=
  (List.range 1024).any fun n => (s.lookup tGate (p * 1024 + n) s.sys.genSeq).any fun v => v.state != 0

/-- The new list of a port is taken, when its instant has come (R337): at the first c(k) of the new header at or after the
boundary of the switch, or at that boundary when EN is 0. A list with a damaged entry runs in FALLBACK, and a reloaded one
leaves it (the cases of R338). -/
def doGateListSwap (p : Nat) (s : State) : State :=
  let g := s.gate p
  match g.swap with
  | none => s
  | some l =>
    let h := l.headD []
    let due : Int := if gateEn h ∧ gateValid h then gateCycle h (gateNextCycle h g.swapFrom) else g.swapFrom
    if (s.taiNs : Int) < due then s
    else
      let bad := s.gateDamaged p
      let was := s.flag .EGR_GATE_FALLBACK p
      let s := (s.setGate p { g with
        list := l, swap := none, cycle := gateCycleAt h s.taiNs, entry := 0, cutTold := false, fallEnds := false }).setRegs
        [(.EGR_GATE_SWAP_TICK, p, s.clk.tick), (.EGR_GATE_FALLBACK, p, b2n bad)]
      let s := if was = bad then s else s.evLow 116 p [(4, 0), (1, b2n bad)]
      ((s.evLow 114 p [(4, gateLen h), (8, g.swapTick)]).showGate p).gateCut p

def execGateListSwap (p : Nat) (s : State) : Res := run (doGateListSwap p) s

/-- A generation switch has changed entries of these ports' lists: each takes them at its instant, one with EN 0 at this
boundary (R337). -/
def State.gatesSwitched (s : State) : State :=
  let ports := ((s.store.filter fun x => x.1 / 2 ^ 23 == tGate && x.2.any fun v => v.gen == s.sys.genSeq).map
    fun x => x.1 % 2 ^ 23 / 1024).eraseDups
  ports.foldl (fun (s : State) p =>
    let l := s.gateEntries p
    let h := l.headD []
    let s := s.setGate p { s.gate p with swap := some l, swapTick := s.clk.tick, swapFrom := s.clk.tick * 1000 }
    if gateEn h ∧ gateValid h then s else doGateListSwap p s) s

/-- Time has stepped: every list runs the entry its schedule gives at the new time, and a swap still waiting is recomputed
against it (the case of R338). -/
def State.gatesStepped (s : State) : State :=
  (s.egr.gates.map Prod.fst).foldl (fun (s : State) p =>
    let g := { s.gate p with swapFrom := s.taiNs }
    match g.active with
    | none => s.setGate p g
    | some l =>
      let r := gateAt l s.taiNs
      ((s.setGate p { g with cycle := r.1, entry := r.2 }).evLow 115 p [(1, 2), (4, 0)]).showGate p) s

/-- FALLBACK ticks (R349). -/
def State.gateTick (s : State) : State :=
  (s.egr.gates.map Prod.fst).foldl (fun (s : State) p =>
    if s.flag .EGR_GATE_FALLBACK p then s.tally 17 5 1 0 0 (qkey p 0) 1 else s) s

/-! ### EGR_TLOAD (R346) -/

/-- EGR_TLOAD with GO: `entries` is what the device reads from the shadow. It is judged at the next boundary. -/
def doTload (table hold : Bool) (count first : Nat) (entries : List Line) (s : State) : State :=
  let s' := s.setRegs [(.EGR_TLOAD_TABLE, 0, b2n table), (.EGR_TLOAD_HOLD, 0, b2n hold), (.EGR_TLOAD_COUNT, 0, count),
    (.EGR_TLOAD_FIRST, 0, first)]
  if s.flag .EGR_TLOAD_STATUS_PENDING then
    (s.setReg .EGR_TLOAD_STATUS_RESULT 0 6).ev 120 [(1, 6), (1, b2n table), (4, first)]
  else
    ({ s' with egr := { s'.egr with tload := some ⟨if table then tPace else tGate, hold, count % 2048, first % 2 ^ 18, entries⟩ } } : State).setRegs
      [(.EGR_TLOAD_STATUS_PENDING, 0, 1), (.EGR_TLOAD_STATUS_RESULT, 0, 0)]

def execTload (table hold : Bool) (count first : Nat) (entries : List Line) (s : State) : Res :=
  run (doTload table hold count first entries) s

/-- A load reports its result. -/
def State.tloadResult (s : State) (r : Nat) : State :=
  (s.setRegs [(.EGR_TLOAD_STATUS_PENDING, 0, 0), (.EGR_TLOAD_STATUS_RESULT, 0, r),
    (.EGR_TLOAD_STATUS_TICK, 0, s.clk.tick)])

/-- Why a load is refused (R346); 1: it is not. -/
def State.tloadJudge (s : State) (x : TLoad) : Nat :=
  let size := tableSize x.table
  if !s.registered x.table 0 ∨ s.shadowEntries x.table 0 < x.first + x.count then 3
  else if x.count = 0 ∨ 1024 < x.count ∨ size < x.first + x.count ∨
      (x.table = tGate ∧ 1024 < x.first % 1024 + x.count) ∨
      (List.range x.count).any (fun k =>
        let e := x.entries.getD k []
        if x.table = tGate then gateBad ((x.first + k) % 1024 == 0) e else paceBad e) then 4
  else if !s.versionRoom x.hold ((List.range x.count).filter fun k => !s.heldAt x.table (x.first + k)).length then 5
  else if s.sys.budget < x.count then 2
  else 1

/-- The load that waits is accepted or refused at the boundary (R346). -/
def State.tloadTick (s : State) : State :=
  match s.egr.tload with
  | none => s
  | some x =>
    let s := { s with egr := { s.egr with tload := none } }
    let r := s.tloadJudge x
    if r ≠ 1 then (s.tloadResult r).ev 120 [(1, r), (1, b2n (x.table == tPace)), (4, x.first)]
    else
      let s := { s with sys := { s.sys with budget := s.sys.budget - x.count } }
      let s := (List.range x.count).foldl (fun (s : State) k =>
        s.update x.table (x.first + k) (some (padTo 64 (x.entries.getD k []))) x.hold) s
      if x.hold then s.tloadResult 1
      else ({ s with egr := { s.egr with tloadGen := some s.pendSeq } } : State).awaitSwitch none

/-- A switch has made a load's updates current (R97). -/
def State.tloadSwitched (s : State) : State :=
  match s.egr.tloadGen with
  | some g => if g ≤ s.sys.genSeq then ({ s with egr := { s.egr with tloadGen := none } } : State).tloadResult 1 else s
  | none => s

/-- EGR_PACED.FLOWS: pacing entries with VALID 1. -/
def State.pacedFlows (s : State) : Nat :=
  (s.store.filter fun x => x.1 / 2 ^ 23 == tPace &&
    match verAt x.2 s.sys.genSeq with | some v => (v.val.map paceValid).getD false | none => false).length

end Machine
end Sys2Proof
end

