-- ==== Sys2Proof/Machine/Obs.lean ====
section
/-!
DEFINITION. Performance counters, dumps and the sampler's switch (R544-R568).
-/
namespace Sys2Proof
namespace Machine

/-! ### What the counters can select (R546, R547) -/

/-- Items of unit `u` in the order of its chapter's counter rule, as (quantities, entries of the breakdown). -/
def unitItems (u : Nat) : List (Nat × Nat) :=
  match u with
  | 0 => List.replicate 8 (1, 0)
  | 1 => List.replicate 9 (1, 0)
  | 2 => [(2, 0), (3, 0), (1, 0), (2, 0), (1, 0), (1, 0)]
  | 4 => List.replicate 9 (1, 0)
  | 5 => [(2, 0), (2, 0), (2, 0), (1, 0), (1, 3), (2, 0), (1, 0), (1, 0), (1, 0), (2, 0)]
  | 6 => [(1, 0), (1, 0), (1, 0), (1, 0), (1, 0), (1, 4), (1, 3), (1, 0)]
  | 7 => [(1, 0), (1, 7), (1, 0), (1, 0), (1, 5), (1, 0), (2, 0), (1, 0)]
  | 8 => [(1, 0), (2, 0), (1, 0), (1, 0), (1, 0), (1, 0)]
  | 9 => [(3, 0), (3, 0), (1, 6), (1, 0), (4, 0), (1, 4), (1, 0), (1, 0)]
  | 10 => List.replicate 7 (1, 0)
  | 12 => [(4, 0), (1, 4), (1, 0), (2, 0), (2, 8), (1, 8), (1, 0), (1, 0)]
  | 13 => [(1, 0), (1, 0), (1, 0), (1, 0), (1, 0), (2, 0), (1, 5), (1, 0), (1, 0)]
  | 14 => List.replicate 5 (1, 0)
  | 15 => [(2, 0), (1, 5), (1, 0), (1, 0), (1, 0), (2, 0), (1, 0), (3, 0), (2, 0)]
  | 16 => [(1, 0), (1, 8), (1, 0), (1, 0), (1, 6), (1, 6), (1, 0), (1, 0), (1, 0), (1, 0)]
  | 17 => [(2, 0), (1, 0), (1, 0), (1, 0), (1, 0), (1, 0), (1, 0), (2, 0), (1, 0)]
  | 18 => [(1, 8), (2, 0), (1, 0), (1, 0), (2, 0), (2, 0), (1, 0), (2, 3)]
  | _ => []

/-- The objects of unit `u`, by KIND: how many there are of each. -/
def unitKinds (u : Nat) : List Nat :=
  match u with
  | 1 => [16]
  | 2 => [32, 64, 32]
  | 4 => [16, 6]
  | 5 => [258, 4]
  | 6 => [258]
  | 7 => [2, 13]
  | 8 => [16]
  | 9 => [2, 2]
  | 10 => [260]
  | 12 => [258]
  | 13 => [5]
  | 14 => [8]
  | 15 => [4]
  | 16 => [258]
  | 17 => [258 * 16]
  | 18 => [2 ^ 20]
  | _ => [1]

/-- The unit exists (R544): BAR0 index 0x0B is reserved. -/
def unitExists (u : Nat) : Bool := decide (u ≤ 18) && u != 11

/-- A selection word names something that exists. -/
def selectionOk (u w : Nat) : Bool :=
  let item := bits w 28 24
  let q := bits w 23 20
  let b := bits w 19 16
  item == 0 || decide (bits w 30 29 < (unitKinds u).length) && match (unitItems u)[item - 1]? with
    | some x => decide (q ≤ max 1 x.1) && decide (b ≤ x.2)
    | none => false

/-- Clear counter `k` of unit `u`. -/
def State.counterZero (s : State) (u k : Nat) : State := s.setReg .OBS_U_CNT_VALUE (u * 8 + k) 0

/-- COUNTER_SELECT: a write of SELk, or of IDXk when `idx` says so (R547). -/
def doCounterSelect (u k : Nat) (idx : Bool) (w : Nat) (s : State) : State :=
  let i := u * 8 + k
  let off := 0x1000 + 0x100 * u + (if idx then 0x68 else 0x48) + 4 * k
  let ok := if idx then decide (w % 2 ^ 20 < (unitKinds u).getD (s.reg .OBS_U_SEL_KIND i) 0) else selectionOk u w
  if !unitExists u ∨ 8 ≤ k then s
  else if !ok then s.ev 236 [(4, off), (1, 1)]
  else
    let ovf := s.reg .OBS_U_OVF_OVF u
    let s := (s.counterZero u k).setReg .OBS_U_OVF_OVF u (setBits ovf k k 0)
    let s := { s with obs := { s.obs with
      selChanged := tupd 0 u (· ||| 2 ^ k) s.obs.selChanged, selAt := tset 0 i (s.coreCycle + 1) s.obs.selAt } }
    if idx then s.setReg .OBS_U_IDX_IDX i w
    else s.setRegs [(.OBS_U_SEL_ALL, i, bits w 31 31), (.OBS_U_SEL_KIND, i, bits w 30 29), (.OBS_U_SEL_ITEM, i, bits w 28 24),
      (.OBS_U_SEL_SUB, i, bits w 23 16)]

def execCounterSelect (u k : Nat) (idx : Bool) (w : Nat) (s : State) : Res := run (doCounterSelect u k idx w) s

/-- COUNTER_CLEAR: a write of OBS_Uu_CLEAR; it acts before what the counter adds in the same CORE cycle (R549). -/
def doCounterClear (u mask : Nat) (s : State) : State :=
  if !unitExists u then s else ((List.range 8).filter fun k => bit mask k).foldl (fun (s : State) k =>
    s.setReg .OBS_U_CNT_VALUE (u * 8 + k) (s.hwBits .OBS_U_CNT_VALUE (u * 8 + k))) s

def execCounterClear (u mask : Nat) (s : State) : Res := run (doCounterClear u mask) s

/-- The cycle counters gain the CORE cycles of a tick, from where a unit left its reset in it (R545); a wrap sets OVF bit 8. -/
def State.countCycles (s : State) (n : Nat) : State :=
  let from_ (u : Nat) : Nat := tget 0 s.obs.cycFrom u
  let s := { s with obs := { s.obs with cycFrom := [] } }
  ((List.range 19).filter unitExists).foldl (fun (s : State) u =>
    let v := s.reg .OBS_U_CYC_CYCLES u + (n - from_ u)
    let s := s.setReg .OBS_U_CYC_CYCLES u v
    if v < 2 ^ 64 then s else s.overflow u 8) s

/-! ### Dumps (R551-R559) -/

/-- The word of SELk. -/
def State.selWord (s : State) (i : Nat) : Nat :=
  s.reg .OBS_U_SEL_ALL i * 2 ^ 31 + s.reg .OBS_U_SEL_KIND i * 2 ^ 29 + s.reg .OBS_U_SEL_ITEM i * 2 ^ 24 + s.reg .OBS_U_SEL_SUB i * 2 ^ 16

/-- The section of one unit (R553). -/
def State.unitSection (s : State) (u : Nat) : List Nat :=
  padTo 128 (le 8 (s.reg .OBS_U_CYC_CYCLES u) ++
    (List.range 8).flatMap (fun k => le 8 (s.reg .OBS_U_CNT_VALUE (u * 8 + k) + (if bit (s.reg .OBS_U_OVF_OVF u) k then 2 ^ 63 else 0))) ++
    (List.range 8).flatMap (fun k => le 4 (s.selWord (u * 8 + k))) ++ [tget 0 s.obs.selChanged u])

/-- The section of one port (R554): zeros where no counter is listed, as for an absorbed port. -/
def State.portSection (s : State) (p : Nat) : List Nat := (List.range 40).flatMap fun c => le 8 (tget 0 s.prt.cnt (p * 40 + c))

/-- A flow's counter record (R557). -/
def flowRecord (c : FlowCnt) : List Nat := le 5 c.frames ++ le 7 c.bytes ++ le 3 c.discards ++ [128 * b2n c.invalid]

/-- Every COUNT flow of the current generation, with its record (R558). -/
def State.flowRecords (s : State) : List (Nat × List Nat) :=
  (s.store.filter fun x => x.1 / 2 ^ 23 == tFlow).filterMap fun x =>
    let i := x.1 % 2 ^ 23
    match (verAt x.2 s.sys.genSeq).bind Ver.val with
    | some e => if flowCount e then some (i, flowRecord (tget FlowCnt.zero s.cls.cnt i)) else none
    | none => none

/-- A counter dump reads the counter lines, and the counters of cached COUNT flows are written to them first (R249). -/
def State.dumpAsks (s : State) : State :=
  let l := s.flowRecords.map Prod.fst
  let s := l.foldl (fun (s : State) i =>
    let p := (s.placement i).spot
    if p.cacheOut then s else s.ask 1 (cisLine 2 p.slot) 1) s
  ((l.map fun i => cisLine 2 (s.placement i).spot.slot).eraseDups).foldl (fun (s : State) k => s.ask 6 k 1) s

/-- The header of a record (R552) with STATE `st`. -/
def dumpHeader (d : DumpRec) (st : Nat) : List Nat := padTo 64 (le 4 d.seq ++ [st, 0, 0, 0] ++ d.head)

/-- DUMP_DUE: every PERIOD ticks of tick count the selected counters are captured, or the dump is skipped (R551, R556). -/
def doDumpDue (s : State) : State :=
  let at_ := s.clk.tickCount + 1
  if s.clk.cycle ≠ 0 ∨ !s.flag .OBS_DUMP_CFG_EN ∨ s.obs.dumpDone = at_ ∨ s.clk.tickCount % max 1 (s.reg .OBS_DUMP_CFG_PERIOD) ≠ 0 then s
  else
    let seq := s.reg .OBS_DUMP_SEQ_SEQ
    let s := ({ s with obs := { s.obs with dumpDone := at_ } } : State).setReg .OBS_DUMP_SEQ_SEQ 0 (seq + 1)
    if s.obs.dump.isSome ∨ s.obs.flows.isSome then
      ({ s with obs := { s.obs with skipped := s.obs.skipped + 1 } } : State).ev 233 [(4, seq), (1, if s.obs.dump.isSome then 1 else 2)]
    else
      let units := s.reg .OBS_DUMP_UNITS_UNITS
      let ports := s.flag .OBS_DUMP_CFG_PORTS
      let body := ((List.range 19).filter fun u => bit units u).flatMap s.unitSection ++
        (if ports then (List.range 258).flatMap s.portSection else [])
      let slot := seq % max 1 (s.reg .OBS_DUMP_SLOTS_SLOTS)
      let d : DumpRec := ⟨s.reg .OBS_DUMP_BASE_ADDR * 4096 + 131072 * slot, seq,
        le 8 s.clk.tick ++ le 8 s.clk.tickCount ++ le 4 units ++ le 4 (64 + body.length) ++ le 4 s.obs.skipped, body⟩
      let flows := s.flag .OBS_DUMP_CFG_FLOWS
      let s := { s with obs := { s.obs with
        dump := some d, skipped := 0, selChanged := []
        flows := if flows then some (s.reg .OBS_FLOW_BASE_ADDR * 4096, s.flowRecords) else none } }
      let s := if flows then s.dumpAsks else s
      (s.setRegs [(.OBS_DUMP_STATUS_BUSY, 0, 1), (.OBS_DUMP_STATUS_FLOW_BUSY, 0, b2n flows)]).emit (.hostWrite d.addr (dumpHeader d 1))

def execDumpDue (s : State) : Res := run doDumpDue s

/-- DUMP_WRITE_DONE: the sections are written, and the header again with STATE DONE (R555). -/
def doDumpWriteDone (s : State) : State :=
  match s.obs.dump with
  | none => s
  | some d =>
    let s := (({ s with obs := { s.obs with dump := none } } : State).setReg .OBS_DUMP_STATUS_BUSY 0 0).emit (.hostWrite (d.addr + 64) d.body)
    s.emit (.hostWrite d.addr (dumpHeader d 2))

def execDumpWriteDone (s : State) : Res := run doDumpWriteDone s

/-- FLOW_PASS_DONE: the records are written; those of the counter lines found damaged, `bad`, with counts of 0 and INVALID
(R558, R559). -/
def doFlowPassDone (bad : List Nat) (s : State) : State :=
  match s.obs.flows with
  | none => s
  | some (base, l) =>
    let s := { s with obs := { s.obs with flows := none } }
    let s := s.setReg .OBS_DUMP_STATUS_FLOW_BUSY 0 0
    l.foldl (fun (s : State) (x : Nat × List Nat) =>
      if bad.contains x.1 then
        let s := { s with cls := { s.cls with cnt := tdel x.1 s.cls.cnt } }
        ((s.evT 234 [(4, x.1, .keep), (4, 1, .sum)]).guard 3 1).emit (.hostWrite (base + 16 * x.1) (flowRecord { FlowCnt.zero with invalid := true }))
      else
        let s := { s with cls := { s.cls with cnt := tupd FlowCnt.zero x.1 (fun c => { c with invalid := false }) s.cls.cnt } }
        s.emit (.hostWrite (base + 16 * x.1) x.2)) s

def execFlowPassDone (bad : List Nat) (s : State) : Res := run (doFlowPassDone bad) s

/-! ### The samplers' switch (R562) -/

/-- SAMPLER_ENABLE: setting EN empties the ring and clears the counts. -/
def doSamplerEnable (k : Nat) (en : Bool) (s : State) : State :=
  if 1 < k ∨ s.flag .OBS_SAMP_CFG_EN k = en then s
  else if !en then s.setReg .OBS_SAMP_CFG_EN k 0
  else
    let s := s.setRegs [(.OBS_SAMP_CFG_EN, k, 1), (.OBS_SAMP_TAIL_TAIL, k, 0), (.OBS_SAMP_TAKEN_COUNT, k, 0), (.OBS_SAMP_LOST_FULL_COUNT, k, 0),
      (.OBS_SAMP_LOST_RATE_COUNT, k, 0), (.OBS_SAMP_SKIP_BUSY_COUNT, k, 0)]
    ({ s with obs := { s.obs with
      sampLeft := tset 0 k (sampGap s k) s.obs.sampLeft, sampPhase := tdel k s.obs.sampPhase } } : State).fresh

def execSamplerEnable (k : Nat) (en : Bool) (s : State) : Res := run (doSamplerEnable k en) s

/-- OBS's work at a boundary: the samplers' rate budget (R566), and what the check units count by ticks (R521, R548). -/
def State.obsTick (s : State) : State :=
  let s := { s with obs := { s.obs with sampTick := [] } }
  (List.range 16).foldl (fun (s : State) n =>
    let s := match tget none s.chk.running n with
      | none => s
      | some j => (s.tally 4 3 1 0 0 n 1).tally 4 3 1 0 1 j.cls 1
    match tget [] s.chk.queue n with
    | [] => s
    | l => (s.tally 4 4 1 0 0 n 1).tallyAny 4 4 1 (l.map Job.cls)) s

end Machine
end Sys2Proof
end

