-- ==== Sys2Proof/Machine/Package.lean ====
section
/-!
DEFINITION. What the balls and the package fix for a program: the ball of a lane (R630, R633), its package delays
(R634) and the boundary-scan port (R647).
-/
namespace Sys2Proof
namespace Machine

/-- The letters of a row (R630). -/
def rowLetters : List Char :=
  ['A', 'B', 'C', 'D', 'E', 'F', 'G', 'H', 'J', 'K', 'L', 'M', 'N', 'P', 'R', 'T', 'U', 'V', 'W', 'Y']

/-- The name of row i = 1 to 80: a prefix for each twenty, and a letter (R630). -/
def rowName (i : Nat) : List Char :=
  (match (i - 1) / 20 with
    | 0 => []
    | 1 => ['A']
    | 2 => ['B']
    | _ => ['C']) ++ [rowLetters.getD ((i - 1) % 20) 'Y']

/-- The position of a ball: row and column, 1 to 80. -/
structure Ball where
  row : Nat
  col : Nat
deriving DecidableEq, Repr

/-- A rotation by 90 degrees about the package centre carries (row r, column c) to (c, 81 - r) (R633). -/
def Ball.turned (b : Ball) : Ball := ⟨b.col, 81 - b.row⟩

/-- The balls of a lane. -/
inductive LaneBall where
  | txp | txn | rxp | rxn
deriving DecidableEq, Repr

/-- The position on the north edge of lane `k` of a slice whose columns begin at `c` (R633). -/
def northBall (k c : Nat) (x : LaneBall) : Ball :=
  let b := 4 * (k / 16)
  let j := c + 2 * (k % 16)
  match x with
  | .txp => ⟨1 + b, j⟩
  | .txn => ⟨1 + b, j + 1⟩
  | .rxp => ⟨3 + b, j⟩
  | .rxn => ⟨3 + b, j + 1⟩

/-- The ball of line lane `l`: the north position of its slice's pattern, turned once for each edge (R633). -/
def laneBall (l : Nat) (x : LaneBall) : Ball :=
  let sl := l / 32
  let n := northBall (l % 32) (if sl % 2 = 0 then 9 else 41) x
  match sl / 2 with
  | 0 => n
  | 1 => n.turned
  | 2 => n.turned.turned
  | _ => n.turned.turned.turned

/-- The receive package delay of lane `k` of a slice, ps (R634). -/
def pkgRx (k : Nat) : Nat :=
  let j := 2 * (k % 16)
  392 + 4 * ((j - 15) + (15 - j)) + 22 * (k / 16)

/-- The transmit package delay (R634). -/
def pkgTx (k : Nat) : Nat := pkgRx k - 7

/-- The groups of balls (R631), as far as the boundary scan parts them. -/
inductive BallGroup where
  | lvcmos | refin | claim | clkout | lane | mgmtLane | mywynLane | pcie | xtal | supply | hbm
deriving DecidableEq, Repr

/-- The standard whose boundary-scan cells a group has, none for the groups outside the chain (R647). -/
def scanStandard : BallGroup → Option Nat
  | .lvcmos | .refin | .claim | .clkout => some 1491
  | .lane | .mgmtLane | .mywynLane | .pcie => some 1496
  | .xtal | .supply | .hbm => none

/-- IDCODE: the version, which follows SYS_REV.MAJOR, the part and the manufacturer code with its closing 1 (R647). -/
def State.idcode (s : State) : Nat := s.reg .SYS_REV_MAJOR % 16 * 2 ^ 28 + 0x5120 * 2 ^ 12 + 0xA73

end Machine
end Sys2Proof
end

