-- ==== Sys2Proof/Machine/Mbx.lean ====
section
/-!
DEFINITION. Mailboxes, doorbells and locks (R522-R543), and the sending of Mywyn messages (R487-R489).
-/
namespace Sys2Proof
namespace Machine

/-! ### Sending on the Mywyn link (R487-R489) -/

/-- The Mywyn path is up while a lane is ALIGNED (R487). -/
def State.mywynUp (s : State) : Bool := s.flag .PAIR_PATHS_MY0 || s.flag .PAIR_PATHS_MY1

/-- A message takes its SEQ and waits for the transmit check unit, class 1, in its TYPE's context (R489, R512). -/
def State.mywynSend (s : State) (ty epoch : Nat) (payload : List Nat) (inband : Bool) : State :=
  let q := (tget 0 s.pair.seqs ty + 1) % 65536
  let m : MyMsg := ⟨ty, q, epoch, s.clk.tick, payload⟩
  ({ s with pair := { s.pair with seqs := tset 0 ty q s.pair.seqs } } : State).queueJob (s.reg .PAIR_CFG_CHK_TX) 1 ty (.send m inband)

/-! ### Identities (R522) -/

/-- The identity has a channel path. -/
def chanPath (w : Nat) : Bool := w == 0 || decide (16 ≤ w ∧ w ≤ 22)
/-- The identity rings doorbells. -/
def ringPath (w : Nat) : Bool := chanPath w
/-- Lock ports in the order of R537: C0 to C3, PF, BMC, JTAG. -/
def lockPorts : List Nat := [16, 17, 18, 19, 0, 21, 22]
/-- Doorbell receivers 0 to 6 (R541). -/
def bellIds : List Nat := [0, 16, 17, 18, 19, 20, 21]

/-- E224: identity; channel or register offset; reason 1 FULL, 2 not bound in that role, 3 FLUSH, 4 another receiver. -/
def State.mbxAccess (s : State) (who n reason : Nat) : State := s.ev 224 [(2, who), (2, n), (1, reason)]
def State.mbxRegister (s : State) (who off reason : Nat) : State := s.ev 224 [(2, who), (4, off), (1, reason)]
/-- E225: identity; channel; reason 1 no path, 2 equal, 3 both the partner, 4 locked, 5 identity, 6 not idle. -/
def State.bindBad (s : State) (who n reason : Nat) : State := s.ev 225 [(2, who), (2, n), (1, reason)]

/-! ### Doorbells (R532-R534) -/

/-- Bits of a receiver that are pending and not masked. -/
def State.bellBits (s : State) (r : Nat) : Nat := s.reg .MBX_DB_PEND_BITS r &&& (2 ^ 32 - 1 - s.reg .MBX_DB_MASK_BITS r)

/-- A core is notified at once by an interrupt (R533). -/
def State.bellNotify (s : State) (r : Nat) : State :=
  if 1 ≤ r ∧ r ≤ 4 ∧ s.bellBits r ≠ 0 then s.emit (.interrupt (r - 1) (s.bellBits r)) else s

/-- Ring bits as identity `who`: pending for every receiver but the one that rang (R532). -/
def State.ringBell (s : State) (who bits : Nat) : State :=
  if bits % 2 ^ 32 = 0 then s
  else
    let s := s.tally 2 3 1 0 2 who 1
    (List.range 7).foldl (fun (s : State) r =>
      if bellIds.getD r 0 = who then s
      else (s.hwSet .MBX_DB_PEND_BITS r (bits % 2 ^ 32)).bellNotify r) s

/-- E226: the PF's pending bits, once in a tick (R533). -/
def State.bellEvent (s : State) : State := if s.bellBits 0 = 0 then s else s.evT 226 [(4, s.bellBits 0, .or)]

def doDoorbellRing (who bits : Nat) (s : State) : State := if ringPath who then s.ringBell who bits else s
def execDoorbellRing (who bits : Nat) (s : State) : Res := run (doDoorbellRing who bits) s

/-- DOORBELL_MASK_WRITE: only the receiver writes its mask; bits it unmasks notify at once (R532, R533). -/
def doDoorbellMaskWrite (who r mask : Nat) (s : State) : State :=
  if 7 ≤ r then s
  else if bellIds.getD r 0 ≠ who then s.mbxRegister who (0x24 + 8 * r) 4
  else
    let s := (s.setReg .MBX_DB_MASK_BITS r mask).bellNotify r
    if r = 0 then s.bellEvent else s

def execDoorbellMaskWrite (who r mask : Nat) (s : State) : Res := run (doDoorbellMaskWrite who r mask) s

/-- A receiver clears its own pending bits (R532). -/
def State.bellClear (s : State) (who r bits : Nat) : State :=
  if bellIds.getD r 0 ≠ who then s.mbxRegister who (0x20 + 8 * r) 4
  else s.clearBits .MBX_DB_PEND_BITS r (bits % 2 ^ 32)

/-! ### Bindings (R523-R525) -/

def State.bound (s : State) (n : Nat) : Bool := s.flag .MBX_CH_BIND_VALID n
def State.sender (s : State) (n : Nat) : Nat := s.reg .MBX_CH_BIND_SENDER n
def State.receiver (s : State) (n : Nat) : Nat := s.reg .MBX_CH_BIND_RECEIVER n
def State.full (s : State) (n : Nat) : Bool := s.flag .MBX_CH_STATUS_FULL n

/-- CHANNEL_BIND: identity `who` writes MBX_CHn_BIND. -/
def doChannelBind (who n : Nat) (valid : Bool) (sender receiver remote : Nat) (s : State) : State :=
  let a := sender % 32
  let b := receiver % 32
  if 32 ≤ n then s
  else if s.flag .MBX_CTRL_LOCKED then s.bindBad who n 4
  else if who ≠ 0 ∧ who ≠ 16 then s.bindBad who n 5
  else if s.full n then s.bindBad who n 6
  else if valid ∧ !(chanPath a && chanPath b) then s.bindBad who n 1
  else if valid ∧ a = b then s.bindBad who n (if a = 20 then 3 else 2)
  else s.setRegs [(.MBX_CH_BIND_VALID, n, b2n valid), (.MBX_CH_BIND_SENDER, n, a), (.MBX_CH_BIND_RECEIVER, n, b), (.MBX_CH_BIND_REMOTE, n, remote % 32)]

def execChannelBind (who n : Nat) (valid : Bool) (sender receiver remote : Nat) (s : State) : Res :=
  run (doChannelBind who n valid sender receiver remote) s

/-- BIND_LOCK: identity 0 or 16 locks every binding until the next cold reset (R524). -/
def doBindLock (who : Nat) (s : State) : State := if who = 0 ∨ who = 16 then s.setReg .MBX_CTRL_LOCKED 0 1 else s
def execBindLock (who : Nat) (s : State) : Res := run (doBindLock who) s

/-! ### Cross-wait (R535) -/

/-- The channels form a pair. -/
def State.mbxPair (s : State) (a b : Nat) : Bool :=
  s.bound a && s.bound b && s.sender a == s.receiver b && s.receiver a == s.sender b

def State.bothOf (s : State) (a b : Nat) : Nat := tget 0 s.mbx.both (min a b * 32 + max a b)
/-- XWAIT_DETECT: at a boundary the count of a pair has passed MBX_XWAIT.TICKS. -/
def doXwaitDetect (a b : Nat) (s : State) : State :=
  let n := s.bothOf a b
  let k := min a b * 32 + max a b
  if 32 ≤ a ∨ 32 ≤ b ∨ a = b ∨ !s.mbxPair a b ∨ s.clk.cycle ≠ 0 ∨ n ≤ max 1 (s.reg .MBX_XWAIT_TICKS) ∨ k ∈ s.mbx.xwaits then s
  else
    let s := { s with mbx := { s.mbx with xwaits := k :: s.mbx.xwaits } }
    let s := s.setRegs [(.MBX_CH_STATUS_XWAIT, a, 1), (.MBX_CH_STATUS_XWAIT, b, 1)]
    (s.ev 227 [(2, min a b), (2, max a b), (1, 1), (4, n)]).tallyAny 2 6 0 [a, b]

def execXwaitDetect (a b : Nat) (s : State) : Res := run (doXwaitDetect a b) s

/-- Channel `n` has become empty: its counts begin again, and the cross-waits it stood in end. A channel keeps XWAIT while it
stands in another. -/
def State.xwaitEnd (s : State) (n : Nat) : State :=
  let has (c k : Nat) : Bool := k / 32 == c || k % 32 == c
  let gone := s.mbx.xwaits.filter (has n)
  let left := s.mbx.xwaits.filter fun k => !has n k
  let s := gone.foldl (fun (s : State) k => s.ev 227 [(2, k / 32), (2, k % 32), (1, 2), (4, tget 0 s.mbx.both k)]) s
  let s := { s with mbx := { s.mbx with xwaits := left, both := s.mbx.both.filter fun x => !has n x.1 } }
  (gone.flatMap fun k => [k / 32 % 32, k % 32]).foldl (fun (s : State) c => s.setReg .MBX_CH_STATUS_XWAIT c (b2n (left.any (has c)))) s

/-- FULL of channel `n` clears. -/
def State.emptied (s : State) (n : Nat) : State := (s.setReg .MBX_CH_STATUS_FULL n 0).xwaitEnd n

/-! ### Messages (R526-R528) -/

/-- FULL is set: the doorbell of R534, and a message to the partner that waits to be sent. -/
def State.filled (s : State) (n : Nat) : State :=
  let s := (s.setReg .MBX_CH_STATUS_FULL n 1).tally 2 1 1 0 0 n 1
  let s := if s.receiver n = 20 then
      { s with mbx := { s.mbx with sending := tset 0 n 1 s.mbx.sending, nakTold := tdel n s.mbx.nakTold } }
    else s
  if s.flag .MBX_CH_CTRL_DB_EN n then s.ringBell (s.sender n) (2 ^ s.reg .MBX_CH_CTRL_DB_BIT n) else s

/-- MESSAGE_WORD_WRITE: identity `who` writes word `w` of channel `n`. A write in the cycle of the read that empties the
channel sees FULL at 1 (the case under R527). -/
def doMessageWordWrite (who n w v : Nat) (s : State) : State :=
  if 32 ≤ n ∨ 16 ≤ w then s
  else if !s.bound n ∨ s.sender n ≠ who then s.mbxAccess who n 2
  else if s.full n ∨ tget 0 s.mbx.emptied n = s.coreCycle + 1 then
    let s := { s with mbx := { s.mbx with refused := tupd 0 n (· + 1) s.mbx.refused } }
    s.mbxAccess who n 1
  else
    let s := s.setReg .MBX_CH_DATA_WORD (n * 16 + w) v
    if w = 15 then s.filled n else s

def execMessageWordWrite (who n w v : Nat) (s : State) : Res := run (doMessageWordWrite who n w v) s

/-- The payload of a TYPE 6 message (R529). -/
def mbxWord (op ch src tog bits : Nat) : Nat :=
  op * 2 ^ 124 + ch % 32 * 2 ^ 119 + src % 32 * 2 ^ 114 + tog % 2 * 2 ^ 113 + bits % 2 ^ 32

/-- ACK (1) or NAK (2) of a message from the partner's channel `src`; its CH names that channel. -/
def State.mbxAnswer (s : State) (op ch src : Nat) : State :=
  (s.mywynSend 6 0 [mbxWord op src ch 0 0] false).tally 2 2 (op + 1) 0 0 ch 1

/-- The receiver's read empties channel `n`, in the cycle of the read (R527). -/
def State.noteEmptied (s : State) (n : Nat) : State :=
  let t := s.emptied n
  { t with mbx := { t.mbx with emptied := tset 0 n (s.coreCycle + 1) t.mbx.emptied } }

/-- MESSAGE_READ: identity `who` reads word `w` of channel `n`; the receiver's read of DATA15 clears FULL (R527). -/
def doMessageRead (who n w : Nat) (s : State) : State :=
  let addr := 0x200100 + 0x80 * n + 0x40 + 4 * w
  if 32 ≤ n ∨ 16 ≤ w then s
  else if !s.bound n ∨ s.receiver n ≠ who then (s.mbxAccess who n 2).emit (.readValue who addr 0)
  else
    let s := s.emit (.readValue who addr (s.reg .MBX_CH_DATA_WORD (n * 16 + w)))
    if w = 15 ∧ s.full n then
      let s := (s.noteEmptied n).tally 2 1 2 0 0 n 1
      if s.sender n = 20 then s.mbxAnswer 1 n (tget 0 s.mbx.inSrc n) else s
    else s

def execMessageRead (who n w : Nat) (s : State) : Res := run (doMessageRead who n w) s

/-- FLUSH: the sender drops a message that waits for the partner (R531). -/
def doFlush (who n : Nat) (s : State) : State :=
  if 32 ≤ n then s
  else if !s.bound n ∨ s.sender n ≠ who then s.mbxAccess who n 2
  else if s.receiver n ≠ 20 then s.mbxAccess who n 3
  else
    let s := { s with mbx := { s.mbx with sending := tdel n s.mbx.sending } }
    (s.setReg .MBX_CH_STATUS_REMOTE_WAIT n 0).emptied n

def execFlush (who n : Nat) (s : State) : Res := run (doFlush who n) s

/-! ### Channels to the partner (R529-R531) -/

/-- The DATA message of a channel. -/
def State.mbxData (s : State) (n tog : Nat) : List Nat :=
  let w (i : Nat) := s.reg .MBX_CH_DATA_WORD (n * 16 + i)
  mbxWord 0 (s.reg .MBX_CH_BIND_REMOTE n) n tog 0 ::
    (List.range 4).map fun j => w (4 * j) + w (4 * j + 1) * 2 ^ 32 + w (4 * j + 2) * 2 ^ 64 + w (4 * j + 3) * 2 ^ 96

/-- Send a channel's DATA; a new message inverts TOGGLE. -/
def State.mbxSend (s : State) (n : Nat) (new : Bool) : State :=
  let t := tget 0 s.mbx.toggle n
  let t := if new then 1 - t else t
  let s := { s with mbx := { s.mbx with toggle := tset 0 n t s.mbx.toggle, sending := tset 0 n 4 s.mbx.sending } }
  ((s.setReg .MBX_CH_STATUS_REMOTE_WAIT n 1).mywynSend 6 0 (s.mbxData n t) false).tally 2 2 1 0 0 n 1

/-- MBX_DATA_SEND: a full channel to the partner sends its message, or waits for the path (R530, R531). -/
def doMbxDataSend (n : Nat) (s : State) : State :=
  if 32 ≤ n ∨ !s.full n ∨ tget 0 s.mbx.sending n ≠ 1 then s
  else if s.mywynUp then s.mbxSend n true
  else ({ s with mbx := { s.mbx with sending := tset 0 n 3 s.mbx.sending } }).ev 228 [(2, n), (1, 2)]

def execMbxDataSend (n : Nat) (s : State) : Res := run (doMbxDataSend n) s

/-- MBX_RESEND: a message answered NAK, at each heartbeat boundary until its ACK, or one the path held up (R530, R531). -/
def doMbxResend (n : Nat) (s : State) : State :=
  let k := tget 0 s.mbx.sending n
  if 32 ≤ n ∨ !s.full n ∨ !s.mywynUp then s
  else if k = 2 then
    let at_ := s.clk.tickCount + 1
    if s.clk.cycle ≠ 0 ∨ s.clk.tick % 64 ≠ 0 ∨ tget 0 s.mbx.resent n = at_ then s
    else
      let s := s.mbxSend n false
      { s with mbx := { s.mbx with sending := tset 0 n 2 s.mbx.sending, resent := tset 0 n at_ s.mbx.resent } }
  else if k = 3 then s.mbxSend n (!s.flag .MBX_CH_STATUS_REMOTE_WAIT n)
  else s

def execMbxResend (n : Nat) (s : State) : Res := run (doMbxResend n) s

/-- The path goes down: a message sent and not yet read waits for it, and is sent again when it returns (R531). -/
def State.mbxPathDown (s : State) : State :=
  (List.range 32).foldl (fun (s : State) n =>
    let k := tget 0 s.mbx.sending n
    if s.full n ∧ (k = 2 ∨ k = 4) then
      ({ s with mbx := { s.mbx with sending := tset 0 n 3 s.mbx.sending } } : State).ev 228 [(2, n), (1, 2)]
    else s) s

/-- MBX_DATA_RECEIVE: DATA for channel `ch` from the partner's channel `src`, 16 words (R530). -/
def doMbxDataReceive (ch src tog : Nat) (words : List Nat) (s : State) : State :=
  let ch := ch % 32
  let tog := tog % 2
  let s := s.tally 2 2 1 0 0 ch 1
  if !s.bound ch ∨ s.sender ch ≠ 20 then s.mbxAnswer 2 ch src
  else if tget 0 s.mbx.inTog ch = tog + 1 then (if s.full ch then s else s.mbxAnswer 1 ch src)
  else if s.full ch then s.mbxAnswer 2 ch src
  else
    let s := (List.range 16).foldl (fun (s : State) i => s.setReg .MBX_CH_DATA_WORD (ch * 16 + i) (words.getD i 0)) s
    let s := { s with mbx := { s.mbx with inTog := tset 0 ch (tog + 1) s.mbx.inTog, inSrc := tset 0 ch (src % 32) s.mbx.inSrc } }
    s.filled ch

def execMbxDataReceive (ch src tog : Nat) (words : List Nat) (s : State) : Res := run (doMbxDataReceive ch src tog words) s

/-- MBX_ACK_RECEIVE: FULL and REMOTE_WAIT clear (R530). -/
def doMbxAckReceive (ch : Nat) (s : State) : State :=
  let ch := ch % 32
  let s := s.tally 2 2 2 0 0 ch 1
  if s.receiver ch = 20 ∧ s.flag .MBX_CH_STATUS_REMOTE_WAIT ch then
    ((({ s with mbx := { s.mbx with sending := tdel ch s.mbx.sending } } : State).setReg .MBX_CH_STATUS_REMOTE_WAIT ch 0)).emptied ch
  else s

def execMbxAckReceive (ch : Nat) (s : State) : Res := run (doMbxAckReceive ch) s

/-- MBX_NAK_RECEIVE: the DATA is sent again at heartbeat boundaries; E228 once a message (R530). -/
def doMbxNakReceive (ch : Nat) (s : State) : State :=
  let ch := ch % 32
  let s := s.tally 2 2 3 0 0 ch 1
  if s.receiver ch = 20 ∧ s.flag .MBX_CH_STATUS_REMOTE_WAIT ch then
    let told := tget 0 s.mbx.nakTold ch == 1
    let s := { s with mbx := { s.mbx with sending := tset 0 ch 2 s.mbx.sending, nakTold := tset 0 ch 1 s.mbx.nakTold } }
    s.evIf (!told) 228 [(2, ch), (1, 1)]
  else s

def execMbxNakReceive (ch : Nat) (s : State) : Res := run (doMbxNakReceive ch) s

/-- MBX_DOORBELL_RECEIVE: the partner's bits ring as identity 20 (R533). -/
def doMbxDoorbellReceive (bits : Nat) (s : State) : State := s.ringBell 20 bits
def execMbxDoorbellReceive (bits : Nat) (s : State) : Res := run (doMbxDoorbellReceive bits) s

/-! ### Locks (R536-R540) -/

/-- Who holds lock `k`, as a read sees it: a release and a reset of the owner take effect at the end of their CORE cycle
(R538, R539). -/
def State.lockHolder (s : State) (k : Nat) : Option Nat :=
  let x := tget (0, 0) s.mbx.freed k
  if s.flag .MBX_LOCK_HELD k then some (s.reg .MBX_LOCK_OWNER k) else if x.1 = s.coreCycle + 1 then some x.2 else none

def lockAddr (k : Nat) : Nat := 0x202000 + 4 * k

/-- One read of a lock that `owner` holds. -/
def State.lockRefused (s : State) (owner who k : Nat) (lost : Bool) : State :=
  let s := s.emit (.readValue who (lockAddr k) (2 ^ 29 + owner * 2 ^ 24))
  if lost then s.tally 2 4 2 0 1 k 1 else s

/-- LOCK_ACQUIRE: the reads of lock `k` that arrive in one CORE cycle; the lowest lock port wins a free lock (R536, R537). -/
def doLockAcquire (who : List Nat) (k : Nat) (s : State) : State :=
  let l := lockPorts.filter fun w => who.contains w
  if 64 ≤ k then s
  else match s.lockHolder k, l with
    | some o, l => l.foldl (fun (s : State) w => s.lockRefused o w k false) s
    | none, [] => s
    | none, w :: t =>
      let s := s.emit (.readValue w (lockAddr k) (2 ^ 31 + s.reg .MBX_LOCK_ABANDONED k * 2 ^ 30 + 2 ^ 29 + w * 2 ^ 24))
      let s := s.setRegs [(.MBX_LOCK_HELD, k, 1), (.MBX_LOCK_OWNER, k, w), (.MBX_LOCK_ABANDONED, k, 0)]
      let s := { s with mbx := { s.mbx with lockAt := tset 0 k (s.clk.tickCount + 1) s.mbx.lockAt, lockTold := tdel k s.mbx.lockTold } }
      let s := (s.tally 2 4 1 0 1 k 1).tally 2 4 1 0 2 w 1
      t.foldl (fun (s : State) r => s.lockRefused w r k true) s

def execLockAcquire (who : List Nat) (k : Nat) (s : State) : Res := run (doLockAcquire who k) s

/-- A lock becomes free, at the end of the CORE cycle. -/
def State.lockFree (s : State) (k : Nat) (abandoned : Bool) : State :=
  let s := { s with mbx := { s.mbx with freed := tset (0, 0) k (s.coreCycle + 1, s.reg .MBX_LOCK_OWNER k) s.mbx.freed } }
  let s := s.setRegs [(.MBX_LOCK_HELD, k, 0), (.MBX_LOCK_OWNER, k, 0), (.MBX_LOCK_ABANDONED, k, b2n abandoned)]
  { s with mbx := { s.mbx with lockAt := tdel k s.mbx.lockAt, lockTold := tdel k s.mbx.lockTold } }

/-- LOCK_RELEASE: only the owner releases (R538). -/
def doLockRelease (who k : Nat) (s : State) : State :=
  if 64 ≤ k then s
  else if s.flag .MBX_LOCK_HELD k ∧ s.reg .MBX_LOCK_OWNER k = who then s.lockFree k false
  else if s.lockHolder k = some who then s
  else s.ev 229 [(2, k), (2, who), (2, (s.lockHolder k).getD 0)]

def execLockRelease (who k : Nat) (s : State) : Res := run (doLockRelease who k) s

/-- The owner is reset: its locks are released abandoned (R539, E231). -/
def State.abandon (s : State) (who : Nat) : State :=
  let l := (List.range 64).filter fun k => s.flag .MBX_LOCK_HELD k && s.reg .MBX_LOCK_OWNER k == who
  if l = [] then s
  else
    let s := l.foldl (fun (s : State) k => (s.lockFree k true).tally 2 5 1 0 1 k 1) s
    s.ev 231 [(2, who), (8, l.foldl (fun m k => m + 2 ^ k) 0)]

/-- JTAG_TAP_RESET: the locks of the JTAG identity are released (R539), and the identification register is selected (R647;
log entry 163). -/
def doJtagTapReset (s : State) : State := (s.abandon 22).emit (.idcode s.idcode)
def execJtagTapReset (s : State) : Res := run doJtagTapReset s

/-- LOCK_HOLD_EXPIRY: a lock has been held for MBX_LOCK_HOLD.TICKS (R540). -/
def doLockHoldExpiry (k : Nat) (s : State) : State :=
  let t := s.reg .MBX_LOCK_HOLD_TICKS
  let n := s.clk.tickCount + 1 - tget 0 s.mbx.lockAt k
  if 64 ≤ k ∨ t = 0 ∨ !s.flag .MBX_LOCK_HELD k ∨ tget 0 s.mbx.lockTold k = 1 ∨ n < t then s
  else ({ s with mbx := { s.mbx with lockTold := tset 0 k 1 s.mbx.lockTold } }).ev 230 [(2, k), (2, s.reg .MBX_LOCK_OWNER k), (4, n)]

def execLockHoldExpiry (k : Nat) (s : State) : Res := run (doLockHoldExpiry k) s

/-! ### The boundary (R533, R535) -/

/-- The PF's notification of the tick, the doorbells for the partner, a DATA that has waited since its channel filled (R530),
and the counts of full pairs. -/
def State.mbxTick (s : State) : State :=
  let s := s.bellEvent
  let b := s.reg .MBX_DB_PEND_BITS 5
  let s := if b = 0 ∨ !s.mywynUp then s else (s.mywynSend 6 0 [mbxWord 3 0 0 0 b] false).setReg .MBX_DB_PEND_BITS 5 0
  let s := (List.range 32).foldl (fun (s : State) n => doMbxDataSend n s) s
  let full := (List.range 32).filter fun n => s.bound n && s.full n
  let pairs := full.flatMap fun a => (full.filter fun b => decide (a < b) && s.mbxPair a b).map fun b => a * 32 + b
  { s with mbx := { s.mbx with both := pairs.map fun k => (k, tget 0 s.mbx.both k + 1) } }

end Machine
end Sys2Proof
end

