-- ==== Sys2Proof/Machine/Host.lean ====
section
/-!
DEFINITION. The host engine (ch. 03): rings and their enabling, doorbells and kicks, function control, function resets, the
link, the posting of completions, and host reads that come back.
-/
namespace Sys2Proof
namespace Machine

/-! ### Ring errors (R84, R88, R120) -/

/-- E244: function, ring (completion ring n as 0x100 + n, the event ring as 0x200), ERR code. -/
def State.ringErr (s : State) (fn ringNo err : Nat) : State := s.evFn 244 fn [(2, fn), (2, ringNo), (1, err)]

/-- Stop a completion ring or the event ring with ERR (R88). -/
def State.stopCq (s : State) (fn n err : Nat) : State :=
  (s.setReg .HST_CQ_STATUS_ERR (ring fn n) err).ringErr fn (0x100 + n) err
def State.stopEvq (s : State) (fn err : Nat) : State := (s.setReg .HST_EVQ_STATUS_ERR fn err).ringErr fn 0x200 err

/-- The function exists: the PF, or an enabled VF. -/
def State.fnOk (s : State) (fn : Nat) : Bool := decide (fn ≤ s.hst.numVf)

/-! ### Enabling and disabling (R84, R99-R101) -/

/-- Enable submission ring `n`: head and tail 0. -/
def State.enableSq (s : State) (fn n : Nat) : State :=
  let k := ring fn n
  let size := s.reg .HST_SQ_CTRL_LOG2_SIZE k
  if size < 6 ∨ 16 < size then (s.setReg .HST_SQ_STATUS_ERR k 4).ringErr fn n 4
  else
    let s := s.setRegs [(.HST_SQ_CTRL_EN, k, 1), (.HST_SQ_STATUS_ERR, k, 0), (.HST_SQ_STATUS_INDEX, k, 0)]
    { s with hst := { s.hst with sqTail := tdel k s.hst.sqTail } }

/-- Enable completion ring `n`: head and tail 0, PHASE 1. Of a bad size and a bad vector the size is told (DESIGN CHOICE, log
entry 149). -/
def State.enableCq (s : State) (fn n : Nat) : State :=
  let k := ring fn n
  let s : State := { s with hst := { s.hst with lostVec := tdel k s.hst.lostVec } }
  let size := s.reg .HST_CQ_CTRL_LOG2_SIZE k
  if size < 6 ∨ 16 < size ∨ (s.flag .HST_CQ_CTRL_PUNT k ∧ s.reg .HST_CQ_CTRL_SLOT k = 3) then
    (s.setReg .HST_CQ_STATUS_ERR k 4).ringErr fn (0x100 + n) 4
  else if !s.vectorOk fn (s.reg .HST_CQ_CTRL_VECTOR k) then (s.setReg .HST_CQ_STATUS_ERR k 5).ringErr fn (0x100 + n) 5
  else
    let s := s.setRegs [(.HST_CQ_CTRL_EN, k, 1), (.HST_CQ_STATUS_ERR, k, 0), (.HST_CQ_STATUS_INDEX, k, 0),
      (.HST_CQ_STATUS_FULL, k, 0)]
    { s with hst := { s.hst with
        cqHead := tdel k s.hst.cqHead, cqPhase := tdel k s.hst.cqPhase, cqUns := tdel k s.hst.cqUns
        cqAge := tdel k s.hst.cqAge } }

/-- Enable the event ring: head, tail, SEQ and LOST 0, PHASE 1. The E253 of a start that reached READY, kept until now,
occurs (R608). -/
def State.enableEvq (s : State) (fn : Nat) : State :=
  let s : State := { s with hst := { s.hst with lostVec := tdel (65536 + fn) s.hst.lostVec } }
  let size := s.reg .HST_EVQ_CTRL_LOG2_SIZE fn
  if size < 6 ∨ 16 < size then (s.setReg .HST_EVQ_STATUS_ERR fn 4).ringErr fn 0x200 4
  else if !s.vectorOk fn (s.reg .HST_EVQ_CTRL_VECTOR fn) then (s.setReg .HST_EVQ_STATUS_ERR fn 5).ringErr fn 0x200 5
  else
    let s := s.setRegs [(.HST_EVQ_CTRL_EN, fn, 1), (.HST_EVQ_STATUS_ERR, fn, 0), (.HST_EVQ_STATUS_INDEX, fn, 0),
      (.HST_EVQ_STATUS_FULL, fn, 0), (.HST_EVQ_STATUS_LOST, fn, 0)]
    let s := { s with hst := { s.hst with
      evqHead := tdel fn s.hst.evqHead, evqPhase := tdel fn s.hst.evqPhase, evqSeq := tdel fn s.hst.evqSeq
      evqOwed := tdel fn s.hst.evqOwed } }
    match fn, s.hst.bootEvent with
    | 0, some d => ({ s with hst := { s.hst with bootEvent := none } } : State).raiseBy 253 (defaultSev 253) d (fun a _ => a) none
    | _, _ => s

/-- A write of EN 0 to 1 on a ring: kind 0 submission ring `n`, 1 completion ring `n`, 2 the event ring. -/
def doRingEnable (fn kind n : Nat) (s : State) : State :=
  let k := ring fn n
  if !s.fnOk fn ∨ 256 ≤ n then s
  else match kind with
    | 0 => if s.flag .HST_SQ_CTRL_EN k then s else s.enableSq fn n
    | 1 => if s.flag .HST_CQ_CTRL_EN k then s else s.enableCq fn n
    | _ => if s.flag .HST_EVQ_CTRL_EN fn then s else s.enableEvq fn

def execRingEnable (fn kind n : Nat) (s : State) : Res := run (doRingEnable fn kind n) s

/-- Completions that wait for a completion ring are discarded; their commands keep their effects (R100). -/
def State.discardCq (s : State) (fn cq : Nat) : State :=
  let gone (c : Cmd) : Bool := c.fn == fn && c.cq == cq && c.res.isSome
  ({ s with hst := { s.hst with
      cmds := s.hst.cmds.filter fun c => !gone c, finals := s.hst.finals.filter fun c => !gone c
      cqUns := tdel (ring fn cq) s.hst.cqUns, cqAge := tdel (ring fn cq) s.hst.cqAge } } : State).settle fn

/-- A write of EN 0 on a ring: it stops, and a completion ring drops what waits for it (R100). -/
def doRingDisable (fn kind n : Nat) (s : State) : State :=
  let k := ring fn n
  if !s.fnOk fn ∨ 256 ≤ n then s
  else match kind with
    | 0 => s.setReg .HST_SQ_CTRL_EN k 0
    | 1 => (s.setRegs [(.HST_CQ_CTRL_EN, k, 0), (.HST_CQ_STATUS_FULL, k, 0)]).discardCq fn n
    | _ => s.setRegs [(.HST_EVQ_CTRL_EN, fn, 0), (.HST_EVQ_STATUS_FULL, fn, 0)]

def execRingDisable (fn kind n : Nat) (s : State) : Res := run (doRingDisable fn kind n) s

/-! ### Doorbells (R85-R89) -/

/-- The part acts on one tail word (R86, R88): a ring that is disabled or stopped is not looked at. -/
def State.tailWord (s : State) (fn : Nat) (w : TailWord) : State :=
  let k := ring fn w.ring
  let s :=
    if s.flag .HST_SQ_CTRL_EN k ∧ s.reg .HST_SQ_STATUS_ERR k = 0 then
      if 2 ^ s.reg .HST_SQ_CTRL_LOG2_SIZE k ≤ w.sqTail then s.stopSq fn w.ring 1
      else { s with hst := { s.hst with sqTail := tset 0 k w.sqTail s.hst.sqTail } }
    else s
  if s.flag .HST_CQ_CTRL_EN k ∧ s.reg .HST_CQ_STATUS_ERR k = 0 then
    let size := s.cqEntries k
    let old := tget 0 s.hst.cqHead k
    let used := (s.reg .HST_CQ_STATUS_INDEX k + size - old) % size
    if size ≤ w.cqHead ∨ used < (w.cqHead + size - old) % size then s.stopCq fn w.ring 1
    else ({ s with hst := { s.hst with cqHead := tset 0 k w.cqHead s.hst.cqHead } } : State).showCqFull k
  else s

/-- The part acts on EVQ_HEAD; when room has returned, what was lost is told first (R88, R102). -/
def State.evqHeadWord (s : State) (fn h : Nat) : State :=
  if s.flag .HST_EVQ_CTRL_EN fn ∧ s.reg .HST_EVQ_STATUS_ERR fn = 0 then
    let size := s.evqEntries fn
    let old := tget 0 s.hst.evqHead fn
    let used := (s.reg .HST_EVQ_STATUS_INDEX fn + size - old) % size
    if size ≤ h ∨ used < (h + size - old) % size then s.stopEvq fn 1
    else
      let s := { s with hst := { s.hst with evqHead := tset 0 fn h s.hst.evqHead } }
      (s.setReg .HST_EVQ_STATUS_FULL fn (b2n (s.evqFull fn))).evqOwe fn
  else s

/-- Act on a doorbell block: the tail lines of `mask`, and EVQ_HEAD; DB_GEN is recorded (R86, R89). -/
def State.doorbell (s : State) (fn : Nat) (d : Doorbell) (mask : Nat) : State :=
  let s := (d.words.filter fun w => decide (w.ring < 256) && bit mask (w.ring / 16)).foldl (fun (s : State) w => s.tailWord fn w) s
  let s := s.evqHeadWord fn d.evqHead
  { s with hst := { s.hst with dbGen := tset 0 fn (d.gen + 1) s.hst.dbGen } }

/-- DOORBELL_POLL of function `fn`, with the doorbell block as it stands in host memory, none when the read fails (R86). -/
def doDoorbellPoll (fn : Nat) (db : Option Doorbell) (s : State) : State :=
  if !s.fnOk fn ∨ !s.flag .HST_FN_CTRL_RUN fn then s
  else match db with
    | none => s.dmaError fn (s.reg .HST_DB_BASE_ADDR fn * 4096) 1
    | some d => if tget 0 s.hst.dbGen fn = d.gen + 1 then s else s.doorbell fn d d.lineMask

def execDoorbellPoll (fn : Nat) (db : Option Doorbell) (s : State) : Res := run (doDoorbellPoll fn db) s

/-- KICK (R89): the summary line and all tail lines are read at once; a kick of a function that does not run does nothing,
and one that arrives while a kicked read is in flight is merged into it. -/
def doKick (fn : Nat) (s : State) : State :=
  if !s.fnOk fn ∨ !s.flag .HST_FN_CTRL_RUN fn then s
  else
    let s := s.tally 1 2 1 0 0 fn 1
    if tget 0 s.hst.kicked fn = 1 then s
    else
      ({ s with hst := { s.hst with kicked := tset 0 fn 1 s.hst.kicked } } : State).emit
        (.hostRead fn 1 (s.reg .HST_DB_BASE_ADDR fn * 4096))

def execKick (fn : Nat) (s : State) : Res := run (doKick fn) s

/-! ### Function control (R83, R86) -/

/-- A write of HST_FN_CTRL.RUN; 0 to 1 forgets the DB_GEN acted on (R86). -/
def doFnRunWrite (fn : Nat) (v : Bool) (s : State) : State :=
  if !s.fnOk fn then s
  else
    let was := s.flag .HST_FN_CTRL_RUN fn
    let s := s.setReg .HST_FN_CTRL_RUN fn (b2n v)
    if v ∧ !was then { s with hst := { s.hst with dbGen := tdel fn s.hst.dbGen } } else s

def execFnRunWrite (fn : Nat) (v : Bool) (s : State) : Res := run (doFnRunWrite fn v) s

/-- QUIESCE is set; it clears when no command of the function is executing (R83). -/
def doQuiesce (fn : Nat) (s : State) : State :=
  if !s.fnOk fn then s else (s.setReg .HST_FN_CTRL_QUIESCE fn 1).settle fn

def execQuiesce (fn : Nat) (s : State) : Res := run (doQuiesce fn) s

/-! ### Function reset (R118, R119) -/

/-- The long operations of `fn` are to be cancelled at the next boundary, without a final completion. -/
def State.cancelOpsOf (s : State) (fn : Nat) : State :=
  { s with hst := { s.hst with
      nextId := s.hst.nextId + 1
      ops := s.hst.ops.map fun (x : Nat × LongOp) =>
        if x.2.live ∧ x.2.fn = fn then (x.1, { x.2 with silent := true, reqs := x.2.reqs ++ [(3, s.hst.nextId)] }) else x } }

/-- An FLR disables the function and its rings, and gives up its registrations (R118). -/
def State.fnRegsOff (s : State) (fn : Nat) : State :=
  let off (f : Fld) : List (Fld × Nat × Nat) := (List.range 256).map fun n => (f, ring fn n, 0)
  s.setRegs ([(.HST_FN_CTRL_RUN, fn, 0), (.HST_EVQ_CTRL_EN, fn, 0), (.HST_EVQ_STATUS_FULL, fn, 0)] ++
    off .HST_SQ_CTRL_EN ++ off .HST_CQ_CTRL_EN ++ off .HST_CQ_STATUS_FULL ++
    (List.range 7).flatMap fun t => [(Fld.HST_SHADOW_CTRL_EN, fn * 7 + t, 0), (Fld.HST_SHADOW_STATUS_ACTIVE, fn * 7 + t, 0)])

/-- An FLR drops what the function has staged or due; commands already accepted still take effect (R118). -/
def State.fnDrop (s : State) (fn : Nat) : State :=
  let mine (k : Nat) : Bool := k / 256 == fn
  { s with
    pend := s.pend.filter fun x => !((List.range 7).any fun t => x.1 == Fld.key .HST_SHADOW_CTRL_EN (fn * 7 + t))
    sys := { s.sys with captured := s.sys.captured.filter fun x =>
      !((List.range 7).any fun t => x.1 == Fld.key .HST_SHADOW_CTRL_EN (fn * 7 + t)) }
    evAcc := s.evAcc.map fun (x : Nat × EvAcc) => (x.1, { x.2 with byFn := x.2.byFn.filter fun y => y.1 != fn })
    swc := { s.swc with inject := s.swc.inject.filter fun f => (f.inject.map Inject.fn) != some fn }
    hst := { s.hst with
      cmds := s.hst.cmds.filter fun c => c.fn != fn, finals := s.hst.finals.filter fun c => c.fn != fn
      cqUns := s.hst.cqUns.filter fun x => !mine x.1, cqAge := s.hst.cqAge.filter fun x => !mine x.1
      evqOwed := tdel fn s.hst.evqOwed, evGot := tdel fn s.hst.evGot
      dbGen := tdel fn s.hst.dbGen, kicked := tdel fn s.hst.kicked, turn := tdel fn s.hst.turn
      unmasked := s.hst.unmasked.filter fun x => x.1 / 64 != fn, vecPend := s.hst.vecPend.filter fun x => x.1 / 64 != fn
      shadowOwner := s.hst.shadowOwner.filter fun x => x.2 != fn + 1 } }

/-- Injected frames of `fn` that wait for their first cell have not entered the host port: they are dropped (R113, R118). -/
def State.injectDrop (s : State) (fn : Nat) : State :=
  let mine (f : Frame) : Bool := (f.inject.map Inject.fn) == some fn && f.stage != 5 && f.cells.isEmpty
  let l := s.swc.frames.filter fun x => mine x.2
  let s := l.foldl (fun (s : State) x => if x.2.stamped then s.drainSub x.2.gen else s) s
  { s with
    swc := { s.swc with frames := s.swc.frames.filter fun x => !mine x.2 }
    obs := { s.obs with following := s.obs.following - (l.filter fun x => x.2.samp.isSome).length } }

/-- The effects of an FLR of function `fn` (R118); E247 carries the cause: 1 FLR, 2 PF FLR, 3 link. -/
def State.fnReset (s : State) (fn cause : Nat) : State :=
  ((((((s.fnRegsOff fn).fnDrop fn).injectDrop fn).cancelOpsOf fn).abandon fn).settle fn).evFn 247 fn [(2, fn), (1, cause)]

/-- An FLR of the PF clears VF Enable, and so resets every enabled VF first (R119); so does a link down or a hot reset. -/
def State.pfReset (s : State) (vfCause cause : Nat) : State :=
  let n := s.hst.numVf
  -- events of the tick not yet written are discarded (R118)
  let s := (List.range n).foldl (fun (s : State) i => s.fnReset (i + 1) vfCause) { s with evAcc := [] }
  ({ s with hst := { s.hst with numVf := 0 } } : State).fnReset 0 cause

/-- FLR of a function. -/
def doFlr (fn : Nat) (s : State) : State :=
  if fn = 0 then s.pfReset 2 1 else if s.fnOk fn then s.fnReset fn 1 else s

def execFlr (fn : Nat) (s : State) : Res := run (doFlr fn) s

/-- E240: old and new rate, old and new width, LTSSM state (R120). -/
def State.linkEvent (s : State) (rate width ltssm : Nat) : State :=
  let s0 := s
  let s := (s.ev 240 [(1, s0.hst.linkRate), (1, rate), (1, s0.hst.linkWidth), (1, width), (1, ltssm)])
  { s with hst := { s.hst with linkRate := rate, linkWidth := width } }

/-- PCIE_LINK_DOWN (R119): kind 0 the link goes down, 1 hot reset, 2 secondary bus reset. -/
def doPcieLinkDown (kind ltssm : Nat) (s : State) : State :=
  (if kind = 0 then s.linkEvent 0 0 ltssm else s).pfReset 3 3

def execPcieLinkDown (kind ltssm : Nat) (s : State) : Res := run (doPcieLinkDown kind ltssm) s

/-- HST_LINK: the link comes up or changes rate or width (R120). Rates: 1 64, 2 32, 3 16, 4 8 GT/s; widths: 1 x8, 2 x4, 3 x1;
the endpoint trains to no other (R77). -/
def doHstLink (rate width ltssm : Nat) (s : State) : State :=
  if rate = 0 ∨ 4 < rate ∨ width = 0 ∨ 3 < width then s
  else if s.hst.linkRate = rate ∧ s.hst.linkWidth = width then s else s.linkEvent rate width ltssm

def execHstLink (rate width ltssm : Nat) (s : State) : Res := run (doHstLink rate width ltssm) s

/-- A ring of the PF, completion ring n or 65536 for its event ring, loses its vector: it signals no more, and E244 tells it once. -/
def State.vectorLost (s : State) (k ringNo : Nat) (lost : Bool) : State :=
  if lost ∧ tget 0 s.hst.lostVec k = 0 then
    ({ s with hst := { s.hst with lostVec := tset 0 k 1 s.hst.lostVec } } : State).ringErr 0 ringNo 5
  else s

/-- Rings of the PF that are enabled with a vector the VFs have taken signal no more until they are enabled again (R103). -/
def State.vectorsLost (s : State) : State :=
  let s := (List.range 256).foldl (fun (s : State) n =>
    s.vectorLost n (0x100 + n) (s.flag .HST_CQ_CTRL_EN n && !s.vectorOk 0 (s.reg .HST_CQ_CTRL_VECTOR n))) s
  s.vectorLost 65536 0x200 (s.flag .HST_EVQ_CTRL_EN 0 && !s.vectorOk 0 (s.reg .HST_EVQ_CTRL_VECTOR 0))

/-- TotalVFs reads 15 (R77). -/
def totalVfs : Nat := 15

/-- VF_ENABLE with NumVFs (R103, R119); 0 clears VF Enable. VFs that go are reset, and their E247
says FLR as its cause (DESIGN CHOICE, log entry 171); VFs that come start as after an FLR. In playa mode VFs cannot be enabled
(R596). -/
def doVfEnable (n : Nat) (s : State) : State :=
  let n := if s.flag .SYS_STATUS_PLAYA then 0 else min totalVfs n
  let old := s.hst.numVf
  let s := ((List.range 15).filter fun i => decide (n ≤ i ∧ i < old)).foldl (fun (s : State) i => s.fnReset (i + 1) 1) s
  ({ s with hst := { s.hst with numVf := n } } : State).vectorsLost

def execVfEnable (n : Nat) (s : State) : Res := run (doVfEnable n) s

/-! ### Posting completions (R95, R98-R100, R117) -/

/-- A final completion may be posted when the LONG_ACCEPTED of its operation has been. -/
def State.finalReady (s : State) (c : Cmd) : Bool :=
  !s.hst.cmds.any fun d => match d.res, c.res with
    | some x, some y => x.status == stLONG && x.handle == y.handle
    | _, _ => false

/-- A command's completion may be posted in its turn: it is the first of its submission ring (R95), and a completion of
OP_CANCEL goes behind the final completion of its operation (R117). -/
def State.cmdReady (s : State) (c : Cmd) : Bool :=
  (s.hst.cmds.find? fun d => d.fn == c.fn && d.sq == c.sq) == some c &&
    match c.res with
    | none => false
    | some r => !(opControl c.opcode && r.handle != 0 &&
        s.hst.finals.any fun f => (f.res.map Cpl.handle) == some r.handle)

/-- What completion ring `cq` of `fn` is to receive next. -/
def State.nextCompletion (s : State) (fn cq : Nat) : Option Cmd :=
  match s.hst.finals.find? fun c => c.fn == fn && c.cq == cq && s.finalReady c with
  | some c => some c
  | none => s.hst.cmds.find? fun c => c.fn == fn && c.cq == cq && s.cmdReady c

/-- The outcome as its entry reports it: a placement is the one in force at the posting (R135). -/
def State.atPosting (s : State) (r : Cpl) : Cpl :=
  match r.place with
  | some f => { r with result := s.flowResult f (r.result.getD 5 0) }
  | none => r

/-- Write the entry of `c` with outcome `r`; its sampler record and the HST counter follow (R98, R565, R121). -/
def State.postEntry (s : State) (c : Cmd) (r : Cpl) : State :=
  let k := ring c.fn c.cq
  let r := s.atPosting r
  let s := s.emit (.completion c.fn c.cq (s.reg .HST_CQ_STATUS_INDEX k) (s.completionEntry c r (s.cqPhase k)))
  let s := { s with hst := { s.hst with
    cmds := s.hst.cmds.filter fun d => d.id != c.id, finals := s.hst.finals.filter fun d => d.id != c.id } }
  ((((s.cqWritten c.fn c.cq).sampCommand c r.status).tally 1 3 1 0 0 c.fn 1)).settle c.fn

/-- Completions of a function that are due for completion ring `cq`. -/
def State.duePosts (s : State) (fn cq : Nat) : Nat :=
  ((s.hst.cmds ++ s.hst.finals).filter fun c => c.fn == fn && c.cq == cq && c.res.isSome).length

/-- E241 at a boundary: a completion waits for a ring that is full or stopped (R100). -/
def State.cqHeldTick (s : State) : State :=
  (List.range 16).foldl (fun (s : State) fn =>
    let full (q : Nat) : Bool := s.flag .HST_CQ_CTRL_EN (ring fn q) && !s.cqRoom (ring fn q)
    let due := ((s.hst.cmds ++ s.hst.finals).filter fun c => c.fn == fn && c.res.isSome && full c.cq).map Cmd.cq
    match due with
    | [] => s
    | q :: t =>
      let q := t.foldl min q
      s.evFn 241 fn [(2, fn), (2, q), (4, s.duePosts fn q)]) s

end Machine
end Sys2Proof
end

