-- ==== Sys2Proof/Machine/Switch.lean ====
section
/-!
DEFINITION. The switch core (ch. 09), from a frame's head to its end: classification, the merge decision, replication, the
slipface decision, and the waits of R227, R229, R359 and R360.
-/
namespace Sys2Proof
namespace Machine

/-! ### Members of a group (R306, R307, R309, R313) -/

def memberPort (m : Nat) : Nat := m % 512
def memberVlan (m : Nat) : Option Nat := if bit m 30 then some (bits m 23 12) else none

/-- The member words a frame of generation `g` sees: inline ones, and those of the list lines unless the frame is timing
class; whether lines were fetched, and whether some were withheld. None: an entry or line is invalid (R40). -/
def State.members (s : State) (grp g : Nat) (timing : Bool) : Option (List Nat × Bool × Bool) :=
  match s.lookup tGroup grp g with
  | none => some ([], false, false)
  | some v =>
    if v.state = 1 then none
    else match v.val, v.state with
      | some e, 0 =>
        if !groupValid e then some ([], false, false)
        else
          let inl := (groupMembers e).filter fun m => bit m 31
          let n := groupLines e
          if n = 0 then some (inl, false, false)
          else if timing then some (inl, false, true)
          else
            let lines := (List.range n).map fun k => s.lookup tList (groupList e + k) g
            if lines.any fun v => match v with | some v => v.state == 1 | none => false then none
            else
              let words := lines.flatMap fun v => match v with
                | some v => match v.val, v.state with | some l, 0 => listMembers l | _, _ => []
                | none => []
              some (inl ++ words.filter fun m => bit m 31, true, false)
      | _, _ => some ([], false, false)

/-- The copies a verdict asks for, as (port, VLAN rewrite); whether lines were fetched or withheld. -/
def State.copiesOf (s : State) (f : Frame) : Option (List (Nat × Option Nat) × Bool × Bool) :=
  match f.verdict.kind with
  | 1 => some ([(f.verdict.target, none)], false, false)
  | 2 => (s.members f.verdict.target f.gen (f.cls == 0)).map fun r =>
      ((r.1.filter fun m => bit m 29 || memberPort m != f.port).map fun m => (memberPort m, memberVlan m), r.2.1, r.2.2)
  | _ => some ([], false, false)

/-! ### The slipface decision (R299) -/

/-- Head of a queue, if the scheduler may send it now (R327): gate and pause allow it. -/
def State.candidate (s : State) (p q : Nat) : Option Copy :=
  match s.queue p q with
  | [] => none
  | c :: _ =>
    let f := s.frame c.frame
    if s.stopped p (s.classPrio f.cls) ∨ !s.gateAdmits p q (s.lenOf f) then none else some c

/-- The port holds a queued frame that goes before a new one of queue `q`: one of the same queue, one of a higher strict
queue, or, for a queue below STRICT_MIN, any candidate (log entry 16). -/
def State.aheadOf (s : State) (p q : Nat) : Bool :=
  let strict (k : Nat) := decide (s.reg .EGR_SCHED_STRICT_MIN p ≤ k) || k == 15
  !(s.queue p q).isEmpty || (List.range 16).any fun k =>
    (if strict q then decide (q < k) && strict k else true) && s.macOf p k ≤ s.macOf p q && (s.candidate p k).isSome

/-- The port's MAC is not sending and not reserved (R299 condition 6, R300). -/
def State.macIdle (s : State) (p m : Nat) : Bool :=
  (tget [] s.egr.wire (2 * p + m)).isEmpty && (tget [] s.egr.slip (2 * p + m)).isEmpty

/-- An IPv6 one-step event message without the trailing bytes that repair its checksum (R316). -/
def needsStore (x : Parsed) (head : List Nat) : Bool :=
  match x.ptp, x.udp with
  | some h, some o => x.ip == 6 && decide (h.msg ≤ 3) && !h.twoStep && decide (ofBE (slice head (o + 4) 2) < 8 + h.len + 2)
  | _, _ => false

/-- The reason code of a copy of frame `f` for port `p`, queue `q`: 0 slipface (R299). `listed` says that a list line was
fetched; `due` that its pacer may release it now. -/
def State.pathOf (s : State) (f : Frame) (p q : Nat) (listed due : Bool) : Nat :=
  let m := s.macOf p q
  let x := parse f.head
  if !s.flag .SWC_CT_EN ∨ !bit (s.reg .SWC_CT_CLASS) (4 - f.cls) then 1
  else if 256 ≤ f.owner then 2
  else if f.cistern ∨ listed then 3
  else if s.portGbps f.port < s.portGbps p then 4
  else if !(f.express || !s.preemptActive f.port || m == 1) then 5
  else if !s.macIdle p m ∨ s.aheadOf p q then 6
  else if !due ∨ s.stopped p (s.classPrio f.cls) ∨ !s.gateAdmits p q (s.lenOf f) then 7
  else if f.bad ≠ 0 ∨ (f.cls = 0 ∧ s.flag .SWC_PTP_TC_EN ∧ needsStore x f.head) then 8
  else 0

/-- One copy of a frame whose decision stands: it is released at once for a port that is down, reserves the output on the
slipface path, or waits for its frame's end (R299-R301, R309). -/
def State.makeCopy (s : State) (id : Nat) (listed : Bool) (t : Nat × Option Nat) : State :=
  let f := s.frame id
  let p := t.1
  let s := s.tally 16 7 1 0 0 p 1
  if !s.flag .PRT_MODE_UP p then (s.releaseRefs id 1 (sliceOf p)).tally 16 5 1 4 0 p 1
  else
    let q := s.queueOf f
    let c : Copy := ⟨id, p, t.2, q, 0, 0, 0, 0, false⟩
    let use := s.paceOf c
    let due := match use with
      | .by k e =>
        let a := if paceAnchored e ∧ (s.pacer k).marker then paceAnchor e f.full + 1 else 0
        (s.pacer k).held.isEmpty && decide ((s.paceDue k { c with anchor := a } e).1 ≤ s.grains)
      | .guard => false
      | .free => true
    let r := if (s.ventOf p f.cls).isSome then 7 else s.pathOf f p q listed due
    let slow (s : State) (r q : Nat) : State :=
      let s := s.setFrame id { s.frame id with waiting := (s.frame id).waiting ++ [{ c with path := r, queue := q }] }
      s.tally 16 2 1 r 0 p 1
    if r ≠ 0 then slow s r q
    else
      let pol := if q = 15 then s.police p f else (s, q)
      let s := pol.1
      if pol.2 ≠ q then slow s 7 pol.2
      else
        let s := match use with
          | .by k e =>
            let x := s.pacer k
            let a := if paceAnchored e ∧ x.marker then paceAnchor e f.full + 1 else 0
            let d := s.paceDue k { c with anchor := a } e
            s.setPacer k { x with
              tat := max d.2 s.grains + paceT e
              marker := match (parse f.head).rtp with | some r => r.2 | none => x.marker }
          | _ => s
        let key := 2 * p + s.macOf p q
        let s := { s with egr := { s.egr with slip := tset [] key (tget [] s.egr.slip key ++ [c]) s.egr.slip } }
        s.tally 16 1 1 0 0 p 1

/-! ### The frame's end (R195, R301) -/

/-- The whole frame as received, with FCS. -/
def Frame.bytes (f : Frame) : List Nat := f.head ++ f.rest

/-- What a punt record says of a frame. -/
def Frame.puntInfo (f : Frame) : PuntInfo :=
  let x := parse f.head
  ⟨f.port, f.cls, f.gen, f.flow, f.full % 2 ^ 48, match x.tag with | some t => t.1 * 65536 + t.2 | none => 0⟩

/-- Cause of R195 of a frame received on port `p`, in the order of its list, plus one; 0: good. -/
def State.endCause (s : State) (p : Nat) (b : List Nat) (uncorr : Bool) : Nat :=
  let n := b.length - 4
  if le 4 (crc32 (b.take n)) ≠ b.drop n then 1
  else if uncorr then 2
  else if b.length < 64 then 3
  else if s.reg .PRT_MAXLEN_MAXLEN p ≤ b.length then 4
  else 0

/-- An addressed PTP message has arrived whole (R388, R389): it is answered by hardware, handed to the agent, or discarded
and counted. -/
def State.clockMessage (s : State) (f : Frame) : State :=
  match (parse f.head).ptp with
  | none => s
  | some h =>
    let p := f.port
    let due (n : Nat) : PtpDue := ⟨p, f.head, f.full, n, 0⟩
    match s.clockAction p h with
    | 0 => { s with tme := { s.tme with delayResps := s.tme.delayResps ++ [due h.seq] } }
    | 1 => { s with tme := { s.tme with pdelayResps := s.tme.pdelayResps ++ [due h.seq] } }
    | 2 =>
      if s.flag .TME_INST_CFG_AGENT (s.portInst p) then (s.punt 2 f.puntInfo f.bytes).tally 5 4 1 0 0 p 1
      else s.toC1 p
    | _ => s.ptpBad (if h.version ≠ 2 ∨ h.len < 34 then 1 else 2) p h.msg

/-- A forwarded frame that has ended good: its store-and-forward copies are enqueued, its punts written (R110, R301). -/
def State.frameWhole (s : State) (id : Nat) : State :=
  let f := s.frame id
  if f.stage ≠ 4 ∨ !f.ended ∨ f.bad ≠ 0 ∨ f.want ≠ 0 then s
  else
    let s := s.setFrame id { f with waiting := [], punts := [] }
    let s := if f.verdict.kind = 5 then s.clockMessage f else s
    let s := f.punts.foldl (fun (s : State) r => (s.punt r f.puntInfo f.bytes).tally 13 7 1 r 0 f.cls 1) s
    let s := f.waiting.foldl (fun (s : State) c => s.enqueue c) s
    s.releaseRefs id (f.punts.length + if f.verdict.kind = 5 then 1 else 0) (sliceOf f.owner)

/-! ### Forwarding (R286, R309, R310) -/

/-- The owner of the entry that a frame's members could not be taken from (R40): the group table, or the lists. -/
def State.memberGuard (s : State) (f : Frame) : Nat :=
  match s.lookup tGroup f.verdict.target f.gen with
  | some v => if v.state = 1 then 0xD else 0x10
  | none => 0xD

/-- The list lines of a frame's group are fetched (R249). -/
def State.listAsks (s : State) (f : Frame) : State :=
  match (s.lookup tGroup f.verdict.target f.gen).bind Ver.val with
  | some e => s.ask 4 (cisLine 5 (groupList e)) (groupLines e)
  | none => s

/-- Cycles 9 to 19: the copy count is fixed, REF written, and every copy decided. -/
def State.forward (s : State) (id : Nat) : State :=
  let f := s.frame id
  if f.stage ≠ 3 ∨ f.cells = [] then s
  else match s.copiesOf f with
    | none => (s.guard (s.memberGuard f) 1).discardFrame id true
    | some (l, listed, withheld) =>
      let s := if listed then s.listAsks f else s
      let s := if withheld then (s.evT 106 [(1, 3, .keep), (2, f.port, .low), (4, 1, .sum)]).tally 16 5 1 6 0 f.port 1 else s
      let drop := decide (1023 < l.length + f.punts.length)
      let s := if drop then f.punts.foldl (fun (s : State) r => s.puntDrop (s.reg .HST_PUNT_MAP_FUNC r) none) s else s
      let punts := if drop then [] else f.punts
      let own := if f.verdict.kind = 5 then 1 else 0
      let n := l.length + punts.length + own
      if n = 0 then s.discardFrame id true
      else
        let s := s.setFrame id { f with stage := 4, punts := punts, copies := l.length, left := n }
        let s := s.setRefs f.cells n
        let caravan := f.verdict.kind == 2 && f.cls != 0 && match f.flow with
          | some i => replChoice (s.spotAt i f.gen) listed == 2
          | none => listed
        let slices := (l.map fun t => sliceOf t.1).eraseDups
        let s := if caravan then slices.foldl (fun (s : State) k => s.tally 16 8 1 0 0 (32 * k) 1) s else s
        let s := l.foldl (fun (s : State) t => s.makeCopy id listed t) s
        s.frameWhole id

/-- A frame's decision stands: it asks for its first cell and goes on when it has one. -/
def State.decided (s : State) (id : Nat) : State :=
  let f := s.frame id
  let v := f.verdict
  let quiet := v.kind == 0 || (v.kind == 3 && f.punts.isEmpty)
  if quiet ∧ f.punts.isEmpty then s.discardFrame id true
  else (s.setFrame id { f with stage := 3 }).forward id

/-! ### Merge legs (R350-R360, R654) -/

/-- Merge-leg frames of a slice that await a decision, and frames of it that wait for a flow read. -/
def State.waitingIn (s : State) (sl stage : Nat) : Nat :=
  (s.swc.frames.filter fun x => x.2.stage == stage && sliceOf x.2.owner == sl).length

/-- The pair, the leg and the sequence number of a merge-leg frame (R350). -/
def Frame.pair (f : Frame) : Nat := (f.verdict.entry.map flowPair).getD 0
def Frame.leg (f : Frame) : Nat := f.flow.getD 0 % 2
def Frame.seqNo (f : Frame) : Nat := ((parse f.head).rtp.map Prod.fst).getD 0

/-- Two frames meet the same line of a window. -/
def Frame.sameLine (f g : Frame) : Bool := f.pair == g.pair && seqLine f.seqNo == seqLine g.seqNo

/-- The frames that await a merge decision. -/
def State.awaiting (s : State) : List (Nat × Frame) := s.swc.frames.filter fun x => x.2.stage == 2

/-- `x` reaches the engine before `y`: in an earlier CORE cycle, or by ingress stamp, or, at equal stamps, as leg A (R358). -/
def reachesFirst (x y : Nat × Frame) : Bool :=
  let lt (a b : Nat) (e : Bool) := decide (a < b) || (a == b && e)
  lt x.2.reach y.2.reach (lt x.2.full y.2.full (lt x.2.leg y.2.leg (decide (x.1 < y.1))))

/-- The first of a list of frames in that order. -/
def firstReached : List (Nat × Frame) → Option (Nat × Frame)
  | [] => none
  | x :: t => some (t.foldl (fun a y => if reachesFirst y a then y else a) x)

/-- The merge queue of a frame's slice is full (R360). -/
def State.mergeFull (s : State) (f : Frame) (v : Verdict) : Bool :=
  match v.entry, (parse f.head).rtp with
  | some e, some _ => flowKind e == 3 && s.flag .SPE_CFG_EN && decide (512 ≤ s.waitingIn (sliceOf f.owner) 2)
  | _, _ => false

/-- The frame stops at the slice input, its port is held, and E133 says since how many ticks the queue is full (R360). -/
def State.mergeStop (s : State) (id : Nat) : State :=
  let f := s.frame id
  let sl := sliceOf f.owner
  let since := match tget 0 s.spe.full sl with | 0 => s.clk.tickCount + 1 | n => n
  let s : State := { s with spe := { s.spe with full := tset 0 sl since s.spe.full } }
  ((s.setFrame id { f with stage := 0 }).evT 133 [(1, 2 ^ sl, .or), (4, s.clk.tickCount + 2 - since, .high)]).holdEnter
    f.owner (s.classPrio f.cls) 8

/-- A merge-leg frame reaches the engine: it joins the read and the write of its line, or asks for them (R249, R358). -/
def State.awaitMerge (s : State) (id w : Nat) : State :=
  let f := s.frame id
  let f := { f with stage := 2, cistern := true, reach := s.coreCycle + 1 }
  match s.awaiting.find? fun x => x.2.sameLine f with
  | some x => s.setFrame id { f with read := x.2.read }
  | none =>
    let r := s.pairRec w
    let line := cisLine 3 (r.slot w) + seqLine f.seqNo
    let s : State := { s with spe := { s.spe with groupLoad := tupd 0 r.bgrp (· + 2) s.spe.groupLoad } }
    ((s.ask 2 line 1).ask 2 line 1).setFrame id f

/-- What the engine makes of a frame whose entry is at hand: it is decided at once, or waits for its window read. -/
def State.seamless (s : State) (id : Nat) : State :=
  let f := s.frame id
  match f.verdict.entry with
  | none => s.decided id
  | some e =>
    let w := flowPair e
    let rtp := (parse f.head).rtp
    if flowKind e = 3 then
      if !s.flag .SPE_CFG_EN then (s.tally 18 5 2 0 0 w 1).decided id
      else match rtp with
        | none => ((s.tally 18 5 1 0 0 w 1).evT 135 [(4, 1, .sum), (4, f.flow.getD 0, .low)]).discardFrame id true
        | some _ => s.awaitMerge id w
    else if flowKind e = 4 then
      match rtp with
      | some r => (s.duplicated w r.1).decided id
      | none => s.decided id
    else s.decided id

/-- The merge decision is taken for a frame, and acted on (R355-R363). -/
def State.decideFrame (s : State) (id : Nat) : State :=
  let f := s.frame id
  let w := f.pair
  let s := s.probeArrival w f.leg f.seqNo f.full
  let (s, m) := s.merge w f.leg f.seqNo f.faults
  let s := if m = .guard then s else s.tally 18 1 1 m.code 0 w 1
  if m.forward then (s.tally 18 2 (1 + f.leg) 0 0 w 1).decided id
  else
    let s := if m = .guard then s.guard 0x12 1 else s
    s.discardFrame id (!(m == .duplicate || m == .behind))

/-- The frame for which the engine decides next: its line has been read, no frame of its pair reached the engine before it,
and in this CORE cycle no decision has been taken for its pair, and fewer than 8 in all (R358). -/
def State.decidesNext (s : State) : Option (Nat × Frame) :=
  if 8 ≤ s.spe.decidedOf.length then none
  else firstReached (s.awaiting.filter fun x => x.2.read && !s.spe.decidedOf.contains x.2.pair &&
    s.awaiting.all fun y => y.2.pair != x.2.pair || y.1 == x.1 || reachesFirst x y)

/-- The decisions of a CORE cycle, at most `n`. -/
def State.decideAll : Nat → State → State
  | 0, s => s
  | n + 1, s => match s.decidesNext with
    | none => s
    | some (id, f) =>
      State.decideAll n (State.decideFrame { s with spe := { s.spe with decidedOf := f.pair :: s.spe.decidedOf } } id)

/-- The engine takes what decisions it may in this CORE cycle (R358), and merge queues that have room again are full no more. -/
def State.engineGo (s : State) : State :=
  let s : State := if s.spe.decidedAt = s.coreCycle + 1 then s
    else { s with spe := { s.spe with decidedAt := s.coreCycle + 1, decidedOf := [] } }
  let s := State.decideAll 8 s
  { s with spe := { s.spe with full := s.spe.full.filter fun x => decide (512 ≤ s.waitingIn x.1 2) } }

/-! ### Classification (R217-R229, R243, R388) -/

/-- The frame's generation is stamped, once (R63). -/
def State.stampGen (s : State) (id : Nat) : State :=
  let f := s.frame id
  if f.stamped then s
  else (s.drainAdd (s.genStamp f.full)).setFrame id { f with stamped := true, gen := s.genStamp f.full }

/-- Counters and events of a classification (R222, R224, R253). -/
def State.klassCounts (s : State) (p : Parsed) (f : Frame) (k : Klass) : State :=
  let s := s.tally 13 1 1 0 0 k.cls 1
  let s := if p.short then s.evT 54 [(4, 1, .sum), (2, f.port, .low)] else s
  let s := if k.missed then s.tally 13 6 (if 2 ≤ s.lookupKind p then 2 else 1) 0 0 k.cls 1 else s
  let s := if k.mismatch then (s.tally 13 5 1 0 0 k.cls 1).evT 50 [(4, 1, .sum), (4, k.flow.getD 0, .low)] else s
  match k.flow with
  | none => s
  | some i =>
    -- a miss is counted where its read is asked for
    if s.versioned i f.gen then s.tally 13 4 1 0 0 k.cls 1
    else if (s.spotAt i f.gen).cacheOut then s else s.tally 13 2 1 0 0 k.cls 1

/-- IGMP and MLD are punted, at most RATE a tick (R243): the frame after it; none: the message is discarded. -/
def State.snoop (s : State) (v : Verdict) : State × Option (Verdict × List Nat) :=
  if s.reg .CLS_SNOOP_RATE ≤ s.cls.snoops then (s.evT 55 [(4, 1, .sum)], none)
  else
    let s := { s with cls := { s.cls with snoops := s.cls.snoops + 1 } }
    (s, some (if s.flag .CLS_SNOOP_ACTION then (v, v.punt.toList ++ [3]) else (⟨3, 0, none, none⟩, [3])))

/-- A heartbeat frame of the in-band port: the pair unit takes it (R491). Port 256 is MP0. -/
def State.pairFrame (s : State) (port : Nat) (p : Parsed) : Bool :=
  p.etype == 0x88B5 && p.dmac == be 6 (s.reg .CLS_ROUTER_MAC_MAC) &&
    port == (if s.flag .PAIR_CFG_INBAND then s.reg .PAIR_INBAND_PORT else 256)

/-- The result of classification is final for a frame: what it is, its flow's counts and audit, and where it goes. -/
def State.klassFinal (s : State) (id : Nat) (p : Parsed) (k : Klass) : State :=
  if s.mergeFull (s.frame id) k.verdict then s.mergeStop id else
  let s := s.klassCounts p (s.frame id) k
  if k.guard then (s.guard 0xD 1).discardFrame id true
  else
    let r : State × Option (Verdict × List Nat) :=
      if p.snoop then s.snoop k.verdict else (s, some (k.verdict, k.verdict.punt.toList))
    let s := r.1
    match r.2 with
    | none => s.discardFrame id true
    | some (v, punts) =>
      let f := s.frame id
      let mgmt := 256 ≤ f.port ∧ f.inject.isNone ∧ !s.pairFrame f.port p ∧ p.dmac = be 6 (s.reg .CLS_ROUTER_MAC_MAC)
      let v := if mgmt then ⟨3, 0, none, none⟩ else v
      let punts := if mgmt then [5] else punts
      let s := s.setFrame id { f with verdict := v, punts := punts, flow := k.flow }
      let s := match k.flow, v.entry with
        | some i, some e =>
          let pl := s.placement i
          let s := s.setPlacement i { pl with frames := pl.frames + 1 }
          let sp := s.spotAt i f.gen
          let s := if sp.cacheOut then { s with cls := { s.cls with bankLoad := tupd 0 sp.bank (· + 1) s.cls.bankLoad } } else s
          let s := if !flowCount e then s
            else
              let s := if sp.cacheOut then s.ask 1 (cisLine 2 sp.slot) 1 |>.ask 1 (cisLine 2 sp.slot) 1 else s
              s.flowCounted i 1 (if f.ended then f.len else 0)
          let a := s.auditSample i id e
          if a.2 = 0 then a.1 else a.1.setFrame id { a.1.frame id with unit := a.2 }
        | _, _ => s
      s.seamless id

/-- An ESMC PDU: REF consumes it (R453). -/
def esmc (p : Parsed) (b : List Nat) : Bool := p.etype == 0x8809 && slice b p.l2End 4 == [0x0A, 0x00, 0x19, 0xA7]

/-- A frame is classified; `got` says that its flow's line has been read. -/
def State.classifyFrame (s : State) (id : Nat) (got : Bool) (damage : List (Nat × Nat)) : State :=
  let s := s.stampGen id
  let f := s.frame id
  let p := parse f.head
  -- table 7 stands for the metadata of a cell (R276)
  let s := damage.foldl (fun (s : State) x => if x.1 = 7 then s.metaUpset x.2 else s.damage x.1 x.2 f.gen) s
  let first := f.stage == 0 && f.want == 0 && f.cells.isEmpty
  let k := s.classify p f.gen got
  -- frames of one flow leave in arrival order: behind earlier ones that wait for the flow's read (R228)
  let behind := !got && !k.guard && match k.flow with
    | some i => s.swc.frames.any fun x => x.2.stage == 1 && x.2.flow == some i
    | none => false
  let k : Klass := if behind then { k with read := true } else k
  -- a PTP message for a clock port, and a frame injected into a queue, need no lookup
  let k : Klass := match f.inject with
    | some x => if x.classify then k
      else ⟨if p.timing then 0 else 3, if p.timing then 0 else 2, none, false, false, false, false, ⟨1, x.port, none, none⟩⟩
    | none => if f.port < 256 ∧ s.addressed f.port p then
        ⟨0, 0, none, false, false, false, false, ⟨5, 0, none, none⟩⟩
      else if (f.port < 256 ∧ esmc p f.head) ∨ s.pairFrame f.port p then ⟨k.cls, k.pool, none, false, false, false, false, ⟨0, 0, none, none⟩⟩
      else k
  let s := if first then
      let r := s.sampCandidate 0 (s.sampFramePass f.port k.cls)
      r.1.setFrame id { r.1.frame id with samp := r.2 }
    else s
  let f := s.frame id
  let f := { f with cls := k.cls, pool := k.pool, cistern := f.cistern || got || k.read, flow := k.flow }
  let dropped := k.guard || (!k.read && k.verdict.kind == 0 && !p.snoop)
  let s := s.setFrame id { f with stage := if f.stage = 0 then 3 else f.stage, want := if first ∧ !dropped then (if f.ended then cdiv f.len 256 else 1 + f.len / 256) else f.want }
  if k.read then
    let i := k.flow.getD 0
    let sl := sliceOf f.owner
    let joined := s.cls.reads.contains i
    if 256 ≤ s.waitingIn sl 1 then
      let s := s.setFrame id { f with stage := 0, want := 0 }
      let since := match tget 0 s.cls.missFull sl with | 0 => s.clk.tickCount + 1 | n => n
      let s : State := { s with cls := { s.cls with missFull := tset 0 sl since s.cls.missFull } }
      (s.evT 51 [(1, 2 ^ sl, .or), (4, s.clk.tickCount + 2 - since, .high)]).holdEnter f.owner (s.classPrio k.cls) 7
    else
      let s := { s with cls := { s.cls with reads := if joined then s.cls.reads else s.cls.reads ++ [i] } }
      let s := (s.tally 13 3 1 0 0 k.cls 1).ask 0 (cisLine 0 (s.spotAt i f.gen).slot) 1
      let s := s.setFrame id { s.frame id with stage := 1 }
      if first then s.askCell id else s
  else
    let s := if first ∧ !dropped then s.askCell id else s
    if (s.frame id).stage = 5 then s else s.klassFinal id p k

/-! ### Head slots and the host port (R26, R27, R113, R288, R291) -/

/-- The first frame of a port that is held at the slice input competes for a head slot, or for its turn at the host port. -/
def State.nextHead (s : State) (p : Nat) : State :=
  if s.swc.frames.any fun x => x.2.owner == p && x.2.mpWaits then s
  else match s.swc.frames.find? fun x => x.2.owner == p && x.2.stage == 0 && !(s.pairFrame p (parse x.2.head)) with
    | some x => s.setFrame x.1 { x.2 with slot := true }
    | none => s

/-- A head has its slot: its frame is classified and admitted, and the next one of its port competes, unless the frame is held. -/
def State.startHead (s : State) (id : Nat) : State :=
  let f := s.frame id
  let s := (s.setFrame id { f with slot := false, damage := [] }).classifyFrame id false f.damage
  let s := (List.range (if f.ended then (s.frame id).want else 0)).foldl (fun (s : State) _ => s.askCell id) s
  let s := (s.forward id).frameWhole id
  if (s.frame id).stage = 0 ∨ (s.frame id).mpWaits then s else s.nextHead f.owner

/-- The head slots as they stand in this CORE cycle: each cycle that has passed frees two a slice. -/
def State.slotBook (s : State) : State :=
  let n := s.coreCycle + 1 - s.swc.slotAt
  if n = 0 then s
  else { s with swc := { s.swc with
      slotAt := s.coreCycle + 1
      slots := (s.swc.slots.map fun x => (x.1, x.2.drop (2 * n))).filter fun x => !x.2.isEmpty } }

/-- Rank of a head in the order of R288: timing, then express, then the other classes from a port that moves on. -/
def State.headRank (s : State) (f : Frame) : Nat :=
  let k := s.classify (parse f.head) (if f.stamped then f.gen else s.genStamp f.full) false
  let timing := f.port < 256 ∧ s.addressed f.port (parse f.head)
  if timing ∨ k.cls = 0 then 0
  else if k.cls = 1 then 1
  else 2 + (f.port + 32 - tget 0 s.swc.slotTurn (sliceOf f.port)) % 32

/-- Put a head into a list in order of rank, behind those of its own. -/
def insHead (x : Nat × Nat) : List (Nat × Nat) → List (Nat × Nat)
  | [] => [x]
  | y :: t => if y.2 ≤ x.2 then y :: insHead x t else x :: y :: t

/-- The heads of a slice that compete, each with its rank, the first in order of R288 in front. -/
def State.headsOf (s : State) (sl : Nat) : List (Nat × Nat) :=
  (s.swc.frames.filter fun x => x.2.slot && decide (x.2.owner < 256) && sliceOf x.2.owner == sl).foldl
    (fun l x => insHead (x.1, s.headRank x.2) l) []

/-- Heads take the slots of their slice in order (R288). A head that comes before one which has started in this cycle takes its
slot, and that one stands for a slot of the next cycle. -/
def State.slotsGo (sl : Nat) : Nat → State → State
  | 0, s => s
  | n + 1, s =>
    match s.headsOf sl with
    | [] => s
    | (id, r) :: _ =>
      let held := tget [] s.swc.slots sl
      let ahead := held.filter fun x => decide (x ≤ r)
      if 2 ≤ ahead.length then s
      else
        let s : State := { s with swc := { s.swc with
          slots := tset [] sl (ahead ++ r :: held.filter fun x => decide (r < x)) s.swc.slots
          slotTurn := if r < 2 then s.swc.slotTurn else tset 0 sl (((s.frame id).port + 1) % 32) s.swc.slotTurn } }
        State.slotsGo sl n (s.startHead id)

/-- The frame that the host port serves next: a heartbeat, then MP0 and MP1 in turn (R27). -/
def State.hostNextMp (s : State) : Option Nat :=
  let l := s.swc.frames.filter fun x => x.2.slot && (x.2.owner == 256 || x.2.owner == 257)
  let at_ (p : Nat) := (l.find? fun x => x.2.owner == p).map Prod.fst
  match l.find? fun x => s.pairFrame x.2.port (parse x.2.head) with
  | some x => some x.1
  | none => (at_ (256 + s.swc.hostTurn % 2)).or (at_ (257 - s.swc.hostTurn % 2))

/-- The oldest injected frame enters the host port, unless it waits for its launch instant or the one ahead for a cell (R113). -/
def State.injectNext (s : State) : Option (Frame × Inject × List Frame) :=
  if s.swc.frames.any fun x => x.2.inject.isSome && x.2.stage != 5 && x.2.cells.isEmpty then none
  else match s.swc.inject with
    | [] => none
    | f :: t => match f.inject with
      | some x => if s.grains < x.launch then none else some (f, x, t)
      | none => none

/-- The host port of S0 starts a frame, at most one every 8 CORE cycles (R26), in the order of R27. -/
def State.hostGo (s : State) : State :=
  if s.clk.cycle < s.swc.hostNext then s
  else
    let took (s : State) : State := { s with swc := { s.swc with hostNext := s.clk.cycle + 8 } }
    match s.hostNextMp with
    | some id =>
      let p := (s.frame id).owner
      let beat := s.pairFrame p (parse (s.frame id).head)
      let s := took s
      ({ s with swc := { s.swc with hostTurn := if beat then s.swc.hostTurn else 257 - p } } : State).startHead id
    | none => match s.injectNext with
      | some (f, x, t) =>
        let s := took { s with swc := { s.swc with inject := t } }
        let id := s.swc.nextFrame
        let f := { f with full := s.grains, steps := s.tme.steps }
        (({ s with swc := { s.swc with nextFrame := id + 1, frames := tins id f s.swc.frames } } : State).tally 1 8 1 0 0 x.fn 1).startHead id
      | none => s

/-- The heads that compete at a port go where slots allow. -/
def State.headsGo (s : State) (p : Nat) : State :=
  if p < 256 then State.slotsGo (sliceOf p) (s.swc.frames.length + 1) s.slotBook else s.hostGo

/-- The frames held behind an earlier one at port `p` go on. -/
def State.heldOf (s : State) (p : Nat) : State := (s.nextHead p).headsGo p

/-- A frame asks again for the cells it wants, until one is refused, and goes on when it has them. -/
def State.retryFrame (s : State) (id : Nat) : State :=
  let f := s.frame id
  let rec ask : Nat → State → State
    | 0, s => s
    | n + 1, s =>
      let w := (s.frame id).want
      let t := s.askCell id
      if (t.frame id).want < w then ask n t else t
  let s := ((ask f.want s).forward id).frameWhole id
  let s := if f.mpWaits ∧ !(s.frame id).mpWaits then s.heldOf f.owner else s
  s.mpCheck id

/-- A CORE cycle has begun: the requests deferred, failed with CONTENTION, to be made in headroom, or waiting at the host port
are presented ahead of its own, slice by slice in the order of R264 (R262, R264, R291, R293); then the heads that found no slot
compete again (R288), and the host port serves the next one (R26, R27). -/
def State.coreWork (s : State) : State :=
  if s.swc.coreAt = s.coreCycle + 1 then s
  else
    let s : State := { s with swc := { s.swc with coreAt := s.coreCycle + 1 } }
    let ids := (List.range 8).flatMap fun r => (s.swc.frames.filter fun x =>
      x.2.want != 0 && x.2.stage != 0 && x.2.stage != 5 && s.rot (sliceOf x.2.owner) == r).map Prod.fst
    let s := ids.foldl State.retryFrame s.engineGo
    let slices := ((s.swc.frames.filter fun x => x.2.slot && decide (x.2.owner < 256)).map fun x => sliceOf x.2.owner).eraseDups
    (slices.foldl (fun (s : State) k => s.headsGo (32 * k)) s).hostGo

/-- A seamless window read returns, for the frame named and those that have joined it: the engine takes the decisions it may
(R355-R363). The damage found is met by the first of them. -/
def doWindowReadDone (id : Nat) (x : SpeFaults) (s : State) : State :=
  let s := s.coreWork
  let f := s.frame id
  let l := s.awaiting.filter fun y => !y.2.read && y.2.sameLine f
  if f.stage ≠ 2 ∨ f.read then s
  else
    let s := l.foldl (fun (s : State) y => s.setFrame y.1 { y.2 with read := true }) s
    let s := match firstReached l with
      | some y => s.setFrame y.1 { s.frame y.1 with faults := x }
      | none => s
    s.engineGo

def execWindowReadDone (id : Nat) (line : Bool) (record : Bool) (unread : Nat) (s : State) : Res :=
  run (doWindowReadDone id ⟨line, record, unread⟩) s

/-- Room returns in a slice's miss queue: the frames held at port `p` go on. -/
def doMissQueueRoom (p : Nat) (s : State) : State := s.heldOf p

def execMissQueueRoom (p : Nat) (s : State) : Res := run (doMissQueueRoom p) s

/-- Room returns in a slice's merge queue (R360). -/
def doMergeQueueRoom (p : Nat) (s : State) : State := s.heldOf p

def execMergeQueueRoom (p : Nat) (s : State) : Res := run (doMergeQueueRoom p) s

/-- Slices whose miss queue has room again (R229, R252). -/
def State.missRoom (s : State) : State :=
  { s with cls := { s.cls with missFull := s.cls.missFull.filter fun x => decide (256 ≤ s.waitingIn x.1 1) } }

/-- A flow read returns from the Cistern: the frames that wait for it receive their result in arrival order (R227, R228); a
line with a parity error is refetched, and they are discarded under R40. -/
def doFlowMissDone (i : Nat) (lineBad : Bool) (s : State) : State :=
  if !s.cls.reads.contains i then s
  else
    let s := { s with cls := { s.cls with reads := s.cls.reads.erase i } }
    let s := if lineBad then s.entryDamage 3 i s.oldestGen else s
    let ids := (s.swc.frames.filter fun x => x.2.stage == 1 && x.2.flow == some i).map Prod.fst
    ids.foldl (fun (s : State) id =>
      if lineBad then (s.guard 0xD 1).discardFrame id true
      else
        let s := s.setFrame id { s.frame id with stage := 3 }
        s.classifyFrame id true []) s |>.missRoom

def execFlowMissDone (i : Nat) (lineBad : Bool) (s : State) : Res := run (doFlowMissDone i lineBad) s

/-! ### Heads, cells and ends -/

/-- A frame comes in at the slice input: it is held behind an earlier frame of its port that is held there, or competes for a
head slot, or at the host port. -/
def State.admitHead (s : State) (f : Frame) : State :=
  let id := s.swc.nextFrame
  -- a heartbeat waits behind no frame of its management port (R291)
  let blocked := !(256 ≤ f.port && s.pairFrame f.port (parse f.head)) &&
    s.swc.frames.any fun x => x.2.owner == f.owner && (x.2.stage == 0 || x.2.mpWaits)
  let s := { s with swc := { s.swc with nextFrame := id + 1, frames := tins id { f with slot := !blocked } s.swc.frames } }
  let s := if blocked then s else s.headsGo f.owner
  s.mpCheck id

/-- A frame's first bytes reach the slice input of its port (R286, R406). -/
def doFrameHead (x : HeadIn) (s : State) : State :=
  let s := s.coreWork
  let up := if x.port < 256 then s.flag .PRT_MODE_UP x.port else decide (x.port < 258) && s.flag .PRT_MODE_UP x.port
  if !up then s
  else
    let r := s.stampOf x.port 0 x.stamp
    let f : Frame := { Frame.none_ with
      port := x.port, express := x.express, head := x.bytes.take 128, len := x.bytes.length, full := r.2
      steps := r.1.tme.steps, stage := 0, damage := x.damage }
    r.1.admitHead f

def execFrameHead (x : HeadIn) (s : State) : Res := run (doFrameHead x) s

/-- A further 256 B of a frame have been received: another cell is asked for (R289). -/
def doFurtherCellRequest (id : Nat) (s : State) : State :=
  let s := s.coreWork
  let f := s.frame id
  if f.stage = 5 ∨ f.ended then s
  else if f.stage = 0 then (s.setFrame id { f with len := f.len + 256 }).mpCheck id
  else
    let s := s.setFrame id { f with len := f.len + 256, want := f.want + 1 }
    (s.askCell id).mpCheck id

def execFurtherCellRequest (id : Nat) (s : State) : Res := run (doFurtherCellRequest id) s

/-- CELL_RETRY: frame `id` has a request or a head that waits. The cycle has come in which it is presented again, with all
others that wait, in their order, if nothing has done so in this cycle (R262, R264, R288, R291, R293). -/
def doCellRetry (id : Nat) (s : State) : State :=
  let f := s.frame id
  if f.want = 0 ∧ !f.slot then s else s.coreWork

def execCellRetry (id : Nat) (s : State) : Res := run (doCellRetry id) s

/-- A launch instant has come, the frame ahead has its cell, or the host port is free again (R26, R27, R113). -/
def doInjectLaunch (s : State) : State := s.coreWork.hostGo

def execInjectLaunch (s : State) : Res := run doInjectLaunch s

/-- A frame's end passes the ingress engine (R195, R203): it is judged and counted; a good one's copies are enqueued, a bad
one is discarded or stomped. -/
def doFrameEnd (id : Nat) (x : TailIn) (s : State) : State :=
  let f := s.frame id
  if f.ended ∨ !(s.swc.frames.any fun y => y.1 == id) then s
  else
    let all := f.head ++ x.bytes
    let p := f.port
    let cause := s.endCause p all x.uncorr
    let b := all.take (s.reg .PRT_MAXLEN_MAXLEN p)
    let s := s.countFrame p false b.length
    let s := if x.frags = 0 then s else (s.portCount p 9 x.frags).tally 12 4 1 0 0 p x.frags
    -- a fragment error without another cause counts as a failed FCS (log entry 161)
    let s := if cause = 0 ∧ !x.fragBad then s else s.countBad p (cause - 1)
    if f.stage = 5 then s.setFrame id Frame.none_
    else
      let s := s.setFrame id { f with ended := true, len := b.length, rest := b.drop 128 }
      let s := match f.counted with | some i => s.flowCounted i 0 b.length | none => s
      let s := if f.unit = 0 then s else s.auditIngress (f.unit - 1) (b.drop (parse f.head).region)
      if cause ≠ 0 ∨ x.fragBad then s.frameBad id (if x.fragBad then 2 else 1) else s.frameWhole id

def execFrameEnd (id : Nat) (x : TailIn) (s : State) : Res := run (doFrameEnd id x) s

end Machine
end Sys2Proof
end

