-- ==== Sys2Proof/Machine/Send.lean ====
section
/-!
DEFINITION. A copy leaves: the scheduler (R327, R328), the edit stage (R312-R318, R393, R396-R398), its start and its end
(R303-R305, R344), and vents (R209).
-/
namespace Sys2Proof
namespace Machine

/-! ### Edits (R312, R315, R316) -/

/-- Write bytes at an offset. -/
def putBytes (b : List Nat) (o : Nat) (v : List Nat) : List Nat := b.take o ++ v ++ b.drop (o + v.length)

/-- One's complement sum of the 16-bit words of a string. -/
def onesSum (l : List Nat) : Nat :=
  let rec go : List Nat → Nat
    | a :: b :: t => a * 256 + b + go t
    | [a] => a * 256
    | [] => 0
  let n := go l
  let n := n % 65536 + n / 65536
  n % 65536 + n / 65536

/-- A word that keeps a one's complement sum after words of it went from `old` to `new`: the checksum field itself, or a data
word that makes up for the change. -/
def fixSum (c : Nat) (old new : List Nat) : Nat :=
  let n := (65535 - c % 65536) + (65535 - onesSum old) + onesSum new
  let n := n % 65536 + n / 65536
  65535 - (n % 65536 + n / 65536)

/-- Change bytes of a PTP message at `o` and repair the frame as R316 says: UDP checksum 0 over IPv4; over IPv6 the last two
bytes of the payload, or without them the checksum itself. Bytes at an odd place of the sum are taken as low bytes. -/
def ptpEdit (x : Parsed) (b : List Nat) (o : Nat) (v : List Nat) : List Nat :=
  let old := slice b o v.length
  let b := putBytes b o v
  match x.udp, x.ptp with
  | some u, some h =>
    let pad (l : List Nat) := if (o + u) % 2 = 1 then 0 :: l else l
    if x.ip = 4 then putBytes b (u + 6) [0, 0]
    else if 8 + h.len + 2 ≤ ofBE (slice b (u + 4) 2) then
      let e := u + ofBE (slice b (u + 4) 2) - 2
      let w := slice b e 2
      if (e + u) % 2 = 0 then putBytes b e (be 2 (fixSum (ofBE w) (pad old) (pad v)))
      else putBytes b e (be 2 (fixSum (ofBE w.reverse) (pad old) (pad v))).reverse
    else putBytes b (u + 6) (be 2 (fixSum (ofBE (slice b (u + 6) 2)) (pad old) (pad v)))
  | _, _ => b

/-- Add to the signed correction field; an overflow writes its largest value (R315). -/
def addCorrection (x : Parsed) (b : List Nat) (v : Int) : List Nat :=
  match x.ptp with
  | none => b
  | some h =>
    let c := sgn 64 (ofBE (slice b (h.off + 8) 8)) + v
    let w := if c < -(2 ^ 63) ∨ 2 ^ 63 ≤ c then 2 ^ 63 - 1 else unsgn 64 c
    ptpEdit x b (h.off + 8) (be 8 w)

/-- The flow entry's rewrites, then the member's VLAN (R312): DMAC, the outer VLAN ID of a tagged frame, TTL with the IPv4
header checksum. -/
def rewrite (x : Parsed) (e : Option Line) (vlan : Option Nat) (b : List Nat) : List Nat :=
  let setVid (b : List Nat) (v : Nat) : List Nat :=
    match x.tag with
    | none => b
    | some t => putBytes b x.tagOff (be 2 (t.2 / 4096 * 4096 + v % 4096))
  let b := match e with
    | none => b
    | some e =>
      let b := if ofLE (flowDmac e) = 0 then b else putBytes b 0 (flowDmac e)
      let b := if flowVlanEn e then setVid b (flowVlan e) else b
      if !flowTtlDec e ∨ x.ip = 0 then b
      else if x.ip = 4 then
        let o := x.l3Off + 8
        let old := slice b o 2
        let new := [x.ttl - 1, b.getD (o + 1) 0]
        let b := putBytes b o new
        putBytes b (x.l3Off + 10) (be 2 (fixSum (ofBE (slice b (x.l3Off + 10) 2)) old new))
      else putBytes b (x.l3Off + 7) [x.ttl - 1]
  match vlan with
  | some v => setVid b v
  | none => b

/-! ### PTP at the edit stage (R314-R318, R381, R396-R398) -/

/-- An entry of the match table for a two-step copy. -/
def twoStepEntry (s : State) (f : Frame) (h : PtpHead) (p : Nat) (value : Int) : TwoStep :=
  ⟨h.msg == 1, h.domain, h.seq, slice f.head (h.off + 20) 10, if h.msg = 1 then f.port else p, value, s.clk.tickCount⟩

/-- A transit PTP message leaves port `p`: its bytes after the edit. `res` is its residence in grains. -/
def State.ptpTransit (s : State) (f : Frame) (x : Parsed) (h : PtpHead) (p : Nat) (res : Int) (b : List Nat) : State × List Nat :=
  let v := res + s.ptpAddend h.msg f.port p
  if h.msg ≤ 3 ∧ !h.twoStep then
    if s.flag .SWC_PTP_TC_EN ∧ bit (s.reg .SWC_PTP_MSG) h.msg then (s.tally 16 9 1 0 0 p 1, addCorrection x b v) else (s, b)
  else if h.msg ≤ 1 then ((s.twoStepKeep (twoStepEntry s f h p v)).tally 16 10 1 0 0 p 1, b)
  else if h.msg ≤ 3 then (s.tally 16 10 1 0 0 p 1, b)
  else if h.msg = 8 ∨ h.msg = 9 then
    let spi := if h.msg = 8 then slice f.head (h.off + 20) 10 else slice f.head (h.off + 44) 10
    let r := s.twoStepMatch (h.msg == 9) h.domain h.seq p spi
    (r.1, match r.2 with | some w => addCorrection x b w | none => b)
  else (s, b)

/-- An Announce of the device's own grandmaster leaves a clock port while time is not traceable (R396). -/
def State.announce (s : State) (x : Parsed) (p : Nat) (b : List Nat) : List Nat :=
  match x.ptp with
  | none => b
  | some h =>
    let i := s.portInst p
    if h.msg = 11 ∧ s.portState p ≠ 0 ∧ !s.traceable ∧ ofBE (slice b (h.off + 53) 8) = s.reg .TME_INST_ID_IDENTITY i then
      let fl := b.getD (h.off + 7) 0
      let b := ptpEdit x b (h.off + 7) [setBits fl 5 4 0]
      ptpEdit x b (h.off + 48) [max (b.getD (h.off + 48) 0) (s.reg .TME_INST_UNTRACE_CLASS i), s.reg .TME_INST_UNTRACE_ACCURACY i]
    else b

/-- A Timestamp's ten bytes: SEC and NS of a stamp (R393). -/
def stampBytes (g : Nat) : List Nat := be 6 (g / 65536 / 10 ^ 9) ++ be 4 (g / 65536 % 10 ^ 9)

/-- A message the device originates leaves with egress stamp `g` (R390-R393): what it carries, and what it leaves owed. -/
def State.ptpDevice (s : State) (m : DevMsg) (x : Parsed) (p g : Nat) (b : List Nat) : State × List Nat :=
  let o := (x.ptp.map PtpHead.off).getD 0
  let due : PtpDue := ⟨p, b, g, m.seq, m.corr⟩
  match m.msg, m.oneStep with
  | 0, one =>
    let late := g - m.stamp
    let s := s.evIf (decide (m.stamp + 1000 * 65536 < g)) 158 [(2, p), (4, late / 65536)]
    if one then (s, addCorrection x (ptpEdit x b (o + 34) (stampBytes g)) (g % 65536 : Nat))
    else ({ s with tme := { s.tme with followUps := s.tme.followUps ++ [due] } }, b)
  | 3, true => (s, addCorrection x b ((g : Int) - m.stamp))
  | 3, false => ({ s with tme := { s.tme with followUps := s.tme.followUps ++ [due] } }, b)
  | 1, _ => (s.stampToAgent p 1 m.seq g, b)
  | 2, _ => (s.stampToAgent p 2 m.seq g, b)
  | _, _ => (s, b)

/-! ### The scheduler (R327, R328, R336) -/

/-- Copies for a port are let go: it is down. -/
def State.portGone (s : State) (p : Nat) : State :=
  let r := s.takeCopies fun c => c.port == p && (s.frame c.frame).ended
  let s := r.1.tally 16 5 1 4 0 p r.2.length
  s.releaseCopies r.2

/-- Heads that fit no open run are discarded (R336). -/
def State.dropOversize (s : State) (p q : Nat) : Nat → State
  | 0 => s
  | n + 1 =>
    match s.queue p q with
    | [] => s
    | c :: t =>
      let f := s.frame c.frame
      let len := s.lenOf f
      if wireGrains (s.portGbps p) (s.gateLength p q len) ≤ (s.gate p).longest q then s
      else
        let s := (s.setQueue p q t).tally 17 4 1 0 0 (qkey p q) 1
        let s := s.evLow 117 p [(2, q), (4, len)]
        let s := match f.counted with | some i => s.flowDiscard i | none => s
        State.dropOversize (s.releaseCopies [c]) p q n

/-- Heads whose gate is closed are delayed (R349). -/
def State.markGated (s : State) (p q : Nat) : State :=
  match s.queue p q with
  | [] => s
  | c :: t =>
    if c.gated ∨ s.gateAdmits p q (s.lenOf (s.frame c.frame)) then s
    else (s.setQueue p q ({ c with gated := true } :: t)).tally 17 2 1 0 0 (qkey p q) 1

/-- Deficit round robin among queues (R327): from queue `q` on, the first candidate whose deficit covers its head; a queue
gains WEIGHT × 256 B when its turn comes. Answers the deficits, and the queue. -/
def drr (cand : Nat → Option Nat) (empty : Nat → Bool) (w : Nat → Nat) : Nat → Nat → Tab Nat → Tab Nat × Option Nat
  | 0, _, d => (d, none)
  | n + 1, q, d =>
    match cand q with
    | some len =>
      if len ≤ tget 0 d q then (tset 0 q (tget 0 d q - len) d, some q)
      else
        let k := (q + 1) % 16
        drr cand empty w n k (if (cand k).isSome then tset 0 k (tget 0 d k + 256 * w k) d else d)
    | none =>
      let d := if empty q then tdel q d else d
      let k := (q + 1) % 16
      drr cand empty w n k (if (cand k).isSome then tset 0 k (tget 0 d k + 256 * w k) d else d)

/-- WEIGHT of a queue. -/
def State.weight (s : State) (p q : Nat) : Nat := max 1 (s.reg .EGR_WGT_WEIGHT (4 * p + q / 4) / 256 ^ (q % 4) % 256)

/-- The scheduler's choice among the queues of one MAC of a port (R327). -/
def State.choose (s : State) (p m : Nat) : State × Option Copy :=
  let min_ := s.reg .EGR_SCHED_STRICT_MIN p
  let cand (q : Nat) := if s.macOf p q = m then s.candidate p q else none
  let strict := ((List.range 16).reverse.filter fun q => decide (min_ ≤ q) || q == 15).findSome? fun q => (cand q).map fun c => (q, c)
  let take (s : State) (q : Nat) (c : Copy) : State × Option Copy := (s.setQueue p q ((s.queue p q).drop 1), some c)
  match strict with
  | some (q, c) => take s q c
  | none =>
    let low (q : Nat) : Option Copy := if q < min_ ∧ q ≠ 15 then cand q else none
    if (List.range 15).all fun q => (low q).isNone then (s, none)
    else
      let d0 : Tab Nat := (List.range 16).foldl (fun t q => tset 0 q (tget 0 s.egr.deficit (qkey p q)) t) []
      let r := drr (fun q => (low q).map fun c => s.lenOf (s.frame c.frame)) (fun q => (s.queue p q).isEmpty)
        (fun q => s.weight p q) 2048 (tget 0 s.egr.turn p) d0
      let s := { s with egr := { s.egr with
        deficit := (List.range 16).foldl (fun t q => tset 0 (qkey p q) (tget 0 r.1 q) t) s.egr.deficit
        turn := match r.2 with | some q => tset 0 p q s.egr.turn | none => s.egr.turn } }
      match r.2 with
      | none => (s, none)
      | some q => match s.queue p q with
        | c :: _ => take s q c
        | [] => (s, none)

/-- The next copy of one MAC: a slipface copy that holds it reserved (R300), else the scheduler's choice. -/
def State.nextCopy (s : State) (p m : Nat) : State × Option Copy :=
  match tget [] s.egr.slip (2 * p + m) with
  | c :: t => ({ s with egr := { s.egr with slip := tset [] (2 * p + m) t s.egr.slip } }, some c)
  | [] => s.choose p m

/-! ### Start (R286, R303, R318, R319, R344) -/

/-- A timing copy is dropped at the edit stage: its reference goes. -/
def State.dropCopy (s : State) (c : Copy) : State :=
  let f := s.frame c.frame
  let s := match f.counted with | some i => s.flowDiscard i | none => s
  s.releaseCopies [c]

/-- A copy is presented to its egress port engine. -/
def State.presentCopy (s : State) (c : Copy) (x : StartIn) : State :=
  let f := s.frame c.frame
  let p := c.port
  let g := s.predictStamp p
  let pr := parse f.head
  let stepped := s.tme.steps - f.steps
  let res : Int := (g : Int) - f.full - (if stepped = 1 then s.tme.lastStep else 0)
  let res : Int := res % (2 ^ 48 : Nat)
  let timing := f.cls = 0 ∧ f.dev.isNone
  let max_ := s.reg .SWC_PTP_MAX_RES
  if timing ∧ 2 ≤ stepped then (s.tally 5 7 1 0 0 p 1).dropCopy c
  else if timing ∧ max_ ≠ 0 ∧ (max_ * 1000 * 65536 : Nat) < res then
    ((s.evT 106 [(1, 2, .keep), (2, p, .low), (4, 1, .sum)]).tally 16 5 1 5 0 p 1).dropCopy c
  else
    let b := rewrite pr f.verdict.entry c.vlan f.head
    let r : State × List Nat := match f.dev, pr.ptp with
      | some m, _ => s.ptpDevice m pr p g b
      | none, some h => if f.cls = 0 then s.ptpTransit f pr h p res b else (s, b)
      | none, none => (s, b)
    let s := r.1
    let b := s.announce pr p r.2
    -- the port engine's own coarse stamp (R197, R319)
    let s := match x.taken with
      | some y =>
        let t := s.stampOf p 1 y
        t.1.evIf (timing && t.2 != g) 101 [(2, p), (4, g / 65536 % 2 ^ 32), (4, t.2 / 65536 % 2 ^ 32)]
      | none => s
    let late := if c.released = 0 then 0 else s.grains - (c.released - 1)
    let s := if s.reg .EGR_PACE_LATE_NS * 65536 < late then
        (s.evT 118 [(4, 1, .sum), (4, f.flow.getD 0x7FFFFF, .low), (4, late / 65536, .high)]).tally 17 8 2 0 0 (qkey p c.queue) 1
      else s
    let s := if timing then s.figRes res.toNat else s
    let f := s.frame c.frame
    let s := if f.unit ≠ 0 ∧ f.presented = 0 ∧ f.bad = 0 then s.auditSent (f.unit - 1) c.frame true else s
    let s := s.setFrame c.frame { f with presented := f.presented + 1, firstEgr := some (f.firstEgr.getD g) }
    let s := s.setWire p (s.macOf p c.queue) (s.onWire p (s.macOf p c.queue) ++ [⟨c, if x.underrun ∧ c.path = 0 then 6 else 0, false, b, 0, s.grains⟩])
    let bad := f.badCell x.flips
    let s := match bad with
      | some k =>
        (((s.evT 89 [(4, 1, .sum), (4, f.cells.getD k 0, .low)]).tally 15 9 1 0 0 f.pool 1).guard 0xF 1).frameBad c.frame 3
      | none => s
    -- a broken link: its cell and those behind it stay allocated (R276)
    let broken := x.linkBad.filter fun k => decide (k < f.cells.length)
    let s := match broken with
      | some k =>
        ((s.parityFound (f.cells.getD k 0) 3).setFrame c.frame { s.frame c.frame with cells := f.cells.take k }).frameBad c.frame 4
      | none => s
    s.frameSample c.frame p (unsgn 48 res) c.path (b2n (bad.isSome || broken.isSome || x.underrun))

/-- COPY_START: the port may start a frame (R327, R328). Copies for a port that is down are let go; an express copy
preempts a preemptable frame on the wire where that frame may be cut, else it waits for its end (R202); the frame resumes
when no express candidate remains. -/
def doCopyStart (p : Nat) (x : StartIn) (s : State) : State :=
  if !s.flag .PRT_MODE_UP p then s.portGone p
  else
    let s := (List.range 16).foldl (fun (s : State) q => (s.dropOversize p q (s.queue p q).length).markGated p q) s
    if !(s.onWire p 0).isEmpty then s
    else
      let r := s.nextCopy p 0
      match r.2 with
      | some c =>
        let u := r.1.cutFrame p true
        if (u.onWire p 1).any fun l => !l.paused then s else u.presentCopy c x
      | none =>
        let s := r.1
        match s.onWire p 1 with
        | l :: t => if l.paused ∧ s.gateAdmits p l.copy.queue (s.lenOf (s.frame l.copy.frame)) then s.setWire p 1 ({ l with paused := false, since := s.grains } :: t) else s
        | [] =>
          let r := s.nextCopy p 1
          match r.2 with
          | some c => r.1.presentCopy c x
          | none => r.1

def execCopyStart (p : Nat) (x : StartIn) (s : State) : Res := run (doCopyStart p x) s

/-! ### End (R196, R272, R303-R305) -/

/-- A copy leaves stomped: counted by cause, and E100 (R304, R305). -/
def State.stomped (s : State) (p cause : Nat) : State :=
  let s := ((s.portCount p 8 1).tally 12 3 1 0 0 p 1).wrapReg .SWC_STOMP_FRAMES 0 1
  (s.evT 100 ((List.range 6).map (fun k => (2, b2n (k + 1 == cause), Mg.sum)) ++ [(2, p, .low)])).tally 16 6 1 cause 0 p 1

/-- A copy's last byte leaves its MAC, or the port has gone down under it; its reference is released. One that ends while its
frame still arrives has found no further cell: UNDERRUN (R305). `upset` are cells whose metadata have been damaged (R276). -/
def doCopyEnd (p m : Nat) (upset : List Nat) (s : State) : State :=
  match s.onWire p m with
  | [] => s
  | l :: t =>
    let f := s.frame l.copy.frame
    let l := if !f.ended ∧ l.stomp = 0 then { l with stomp := 6 } else l
    let s := upset.foldl State.metaUpset (s.setWire p m t)
    let s := if !s.flag .PRT_MODE_UP p then s.tally 16 5 1 4 0 p 1
      else
        let body := (l.bytes ++ f.rest).take (s.lenOf f - 4)
        let fcs := le 4 (crc32 body)
        let out := body ++ if l.stomp = 0 then fcs else fcs.map fun v => 255 - v
        let s := s.emit (.frame p (l.stomp != 0) out.length out)
        let s := s.countFrame p true out.length
        let s := (s.tally 17 1 1 0 0 (qkey p l.copy.queue) 1).tally 17 1 2 0 0 (qkey p l.copy.queue) out.length
        if l.stomp = 0 then s else s.stomped p l.stomp
    s.releaseCopies [l.copy]

def execCopyEnd (p : Nat) (x : EndIn) (s : State) : Res := run (doCopyEnd p x.mac x.upset) s

/-! ### Vents (R209) -/

/-- The partner has paused a priority for PRT_VENT.TICKS ticks: the frames of its vented classes queued for the port are
discarded, as those that arrive for it will be. -/
def doVentStart (p prio : Nat) (s : State) : State :=
  let k := pkey p prio
  let since := tget 0 s.prt.pausedSince k
  let cl := (s.ventClasses p prio).filter fun c => (s.ventOf p c).isNone
  if !s.paused p prio ∨ since = 0 ∨ s.clk.tickCount + 1 < since + s.reg .PRT_VENT_TICKS p ∨ cl.isEmpty then s
  else
    let r := s.takeCopies fun c => c.port == p && cl.contains (s.frame c.frame).cls && (s.frame c.frame).ended
    let n := r.2.length
    let of (c : Nat) : Nat := (r.2.filter fun x => (s.frame x.frame).cls == c).length
    let s := { r.1 with prt := { r.1.prt with
      vent := cl.foldl (fun t c => tset 0 (k * 8 + c) (1 + of c) t) r.1.prt.vent } }
    let s := (s.portCount p 35 n).tally 12 7 1 0 0 p n
    let s := r.2.foldl (fun (s : State) c =>
      match (s.frame c.frame).counted with | some i => s.flowDiscard i | none => s) s
    (cl.foldl (fun (s : State) c => s.evLow 37 p [(1, c), (4, of c)]) s).releaseCopies r.2

def execVentStart (p prio : Nat) (s : State) : Res := run (doVentStart p prio) s

end Machine
end Sys2Proof
end

