-- ==== Sys2Proof/Machine/PtpSend.lean ====
section
/-!
DEFINITION. Frames that do not come from a line: the PTP messages the hardware sends (R390-R394), and injected frames
(R112-R114, R150, R151).
-/
namespace Sys2Proof
namespace Machine

/-! ### Building a message (R394) -/

/-- Addresses and tag of a message: destination MAC and IP, and the VLAN tag. -/
structure PtpTo where
  dmac : List Nat
  ip : List Nat
  tag : Option (Nat × Nat)

/-- The multicast destination of port `p`'s instance, with the tag of TME_PORTp_VLAN. -/
def State.ptpTo (s : State) (p : Nat) : PtpTo :=
  let i := s.portInst p
  let tag := if s.flag .TME_PORT_VLAN_EN p then
    some (0x8100, s.reg .TME_PORT_VLAN_PCP p * 8192 + s.reg .TME_PORT_VLAN_VLAN p) else none
  match s.reg .TME_INST_CFG_TRANSPORT i with
  | 0 => ⟨be 6 (s.reg .TME_INST_DMAC_MAC i), [], tag⟩
  | 1 => ⟨[0x01, 0x00, 0x5E, 0x00, 0x01, 0x81], [224, 0, 1, 129], tag⟩
  | _ => ⟨[0x33, 0x33, 0, 0, 0x01, 0x81], [0xFF, 0x0E, 0, 0, 0, 0, 0, 0, 0, 0, 0, 0, 0, 0, 0x01, 0x81], tag⟩

/-- The frame, without FCS, that carries PTP bytes `m`; `event` chooses the UDP port. Hop limits are 1 (log entry 18). -/
def State.ptpFrame (s : State) (p : Nat) (d : PtpTo) (event : Bool) (m : List Nat) : List Nat :=
  let i := s.portInst p
  let eth := d.dmac ++ be 6 (s.reg .CLS_ROUTER_MAC_MAC) ++ match d.tag with
    | some t => be 2 t.1 ++ be 2 t.2
    | none => []
  let ports := be 2 (if event then 319 else 320) ++ be 2 (if event then 319 else 320)
  let n := m.length
  let b := match s.reg .TME_INST_CFG_TRANSPORT i with
    | 0 => eth ++ be 2 0x88F7 ++ m
    | 1 =>
      let src := be 4 (s.reg .TME_INST_SRC4_ADDR i)
      let h := [0x45, 0] ++ be 2 (28 + n) ++ [0, 0, 0, 0, 1, 17, 0, 0] ++ src ++ d.ip
      let h := putBytes h 10 (be 2 (65535 - onesSum h))
      eth ++ be 2 0x0800 ++ h ++ ports ++ be 2 (8 + n) ++ [0, 0] ++ m
    | _ =>
      let src := be 4 (s.reg .TME_INST_SRC6_3_ADDR i) ++ be 4 (s.reg .TME_INST_SRC6_2_ADDR i) ++
        be 4 (s.reg .TME_INST_SRC6_1_ADDR i) ++ be 4 (s.reg .TME_INST_SRC6_0_ADDR i)
      let m := m ++ [0, 0]
      let u := ports ++ be 2 (8 + m.length) ++ [0, 0] ++ m
      let sum := onesSum (src ++ d.ip ++ be 4 (8 + m.length) ++ [0, 0, 0, 17] ++ u)
      eth ++ be 2 0x86DD ++ [0x60, 0, 0, 0] ++ be 2 (8 + m.length) ++ [17, 1] ++ src ++ d.ip ++
        putBytes u 6 (be 2 (if sum = 65535 then 65535 else 65535 - sum))
  padTo (max 60 b.length) b

/-- A PTP header (IEEE 1588), with the instance's domain and identity: messageType, total length, twoStepFlag, correction,
sequenceId, logMessageInterval. -/
def State.ptpHeader (s : State) (p msg len : Nat) (two : Bool) (corr : Int) (seq log : Nat) : List Nat :=
  let i := s.portInst p
  let control := match msg with | 0 => 0 | 1 => 1 | 8 => 2 | 9 => 3 | _ => 5
  [msg, 0x02] ++ be 2 len ++ [s.reg .TME_INST_CFG_DOMAIN i, 0, if two then 2 else 0, 0] ++ be 8 (unsgn 64 corr) ++
    [0, 0, 0, 0] ++ be 8 (s.reg .TME_INST_ID_IDENTITY i) ++ be 2 (p + 1) ++ be 2 (seq % 65536) ++ [control, log]

/-- The hardware's next sequenceId of a port and messageType (R391). -/
def State.nextSeq (s : State) (p msg : Nat) : State × Nat :=
  let n := tget 0 s.tme.seqs (p * 16 + msg)
  ({ s with tme := { s.tme with seqs := tset 0 (p * 16 + msg) ((n + 1) % 65536) s.tme.seqs } }, n)

/-- A message enters the egress slice of its port: timing class, a cell of the timing pool, queue 15 (R394). -/
def State.sendDevice (s : State) (p : Nat) (m : DevMsg) (b : List Nat) : State :=
  let id := s.swc.nextFrame
  let f : Frame := { Frame.none_ with
    port := p, head := b.take 128, rest := b.drop 128 ++ [0, 0, 0, 0], len := b.length + 4, ended := true, full := s.grains
    steps := s.tme.steps, verdict := ⟨1, p, none, none⟩, stage := 3, want := 1, dev := some m }
  let s := (s.emit (.ptp p m.msg m.seq b))
  let s := { s with swc := { s.swc with nextFrame := id + 1, frames := tins id f s.swc.frames } }
  ((s.askCell id).forward id).frameWhole id

/-- 2^LOG s of a signed 4-bit LOG field, in grains. -/
def logGrains (v : Nat) : Nat := 10 ^ 9 * 65536 / 128 * 2 ^ (sgn 4 v + 7).toNat

/-- Port `p` is a clock port of an enabled instance in state `st`. -/
def State.clockPort (s : State) (p st : Nat) : Bool :=
  decide (p < 256) && s.portState p == st && s.flag .TME_INST_CFG_EN (s.portInst p)

/-! ### The rows (R390-R392) -/

/-- The last Sync instant of port `p` at or before `g` grains, in grains; the first one, when none is. -/
def State.syncInstant (s : State) (p g : Nat) : Nat :=
  let per := logGrains (s.reg .TME_PORT_CFG_LOG_SYNC p)
  let off := p % 32 * 2000 * 65536
  (g - off) / per * per + off

/-- A MASTER port sends the Sync of an instant that has come (R390). -/
def doSyncSend (p : Nat) (s : State) : State :=
  let r := s.syncInstant p s.grains
  if !s.clockPort p 2 ∨ s.grains < r ∨ r + 1 ≤ tget 0 s.tme.lastSync p then s
  else
    let one := s.flag .TME_INST_CFG_ONE_STEP (s.portInst p)
    let s := { s with tme := { s.tme with lastSync := tset 0 p (r + 1) s.tme.lastSync } }
    let q := s.nextSeq p 0
    let b := q.1.ptpHeader p 0 44 (!one) 0 q.2 (unsgn 8 (sgn 4 (s.reg .TME_PORT_CFG_LOG_SYNC p))) ++ List.replicate 10 0
    (q.1.sendDevice p ⟨0, one, q.2, r, 0⟩ (q.1.ptpFrame p (q.1.ptpTo p) true b)).tally 5 1 1 0 0 p 1

def execSyncSend (p : Nat) (s : State) : Res := run (doSyncSend p) s

/-- A Follow_Up, or a Pdelay_Resp_Follow_Up, that port `p` owes (R390, R392, R393). -/
def doFollowUpSend (p : Nat) (s : State) : State :=
  match s.tme.followUps.find? fun d => d.port == p with
  | none => s
  | some d =>
    let s := { s with tme := { s.tme with followUps := s.tme.followUps.erase d } }
    let x := parse d.head
    let o := (x.ptp.map PtpHead.off).getD 0
    let g : Int := (d.stamp % 65536 : Nat)
    if (x.ptp.map PtpHead.msg) = some 0 then
      let b := s.ptpHeader p 8 44 false g d.seq (unsgn 8 (sgn 4 (s.reg .TME_PORT_CFG_LOG_SYNC p))) ++ stampBytes d.stamp
      (s.sendDevice p ⟨8, false, d.seq, 0, 0⟩ (s.ptpFrame p (s.ptpTo p) false b)).tally 5 1 2 0 0 p 1
    else
      let b := s.ptpHeader p 10 54 false (d.corr + g) d.seq 0x7F ++ stampBytes d.stamp ++ slice d.head (o + 44) 10
      s.sendDevice p ⟨10, false, d.seq, 0, 0⟩ (s.ptpFrame p (s.ptpTo p) false b)

def execFollowUpSend (p : Nat) (s : State) : Res := run (doFollowUpSend p) s

/-- A SLAVE port sends a Delay_Req when its random wait is over (R391); the next wait is drawn (log entry 10). -/
def doDelayReqSend (p : Nat) (s : State) : State :=
  if !s.clockPort p 3 ∨ s.grains < tget 0 s.tme.nextDreq p then s
  else
    let wait := Config.freeDelayReq s.freeCtr % (2 * logGrains (s.reg .TME_PORT_CFG_LOG_DREQ p) + 1)
    let s := ({ s with tme := { s.tme with nextDreq := tset 0 p (s.grains + wait) s.tme.nextDreq } } : State).fresh
    let q := s.nextSeq p 1
    let b := q.1.ptpHeader p 1 44 false 0 q.2 0x7F ++ List.replicate 10 0
    (q.1.sendDevice p ⟨1, true, q.2, 0, 0⟩ (q.1.ptpFrame p (q.1.ptpTo p) true b)).tally 5 2 1 0 0 p 1

def execDelayReqSend (p : Nat) (s : State) : Res := run (doDelayReqSend p) s

/-- A port of a P2P instance sends a Pdelay_Req every 2^LOG_PDELAY s (R391). -/
def doPdelayReqSend (p : Nat) (s : State) : State :=
  if p ≥ 256 ∨ s.portState p = 0 ∨ !s.flag .TME_INST_CFG_EN (s.portInst p) ∨ !s.flag .TME_INST_CFG_DELAY (s.portInst p) ∨
      s.grains < tget 0 s.tme.nextPdelay p then s
  else
    let per := logGrains (s.reg .TME_PORT_CFG_LOG_PDELAY p)
    let due := tget 0 s.tme.nextPdelay p
    let next := if due ≠ 0 ∧ s.grains < due + per then due + per else s.grains + per
    let s := { s with tme := { s.tme with nextPdelay := tset 0 p next s.tme.nextPdelay } }
    let q := s.nextSeq p 2
    let b := q.1.ptpHeader p 2 54 false 0 q.2 0x7F ++ List.replicate 20 0
    (q.1.sendDevice p ⟨2, true, q.2, 0, 0⟩ (q.1.ptpFrame p (q.1.ptpTo p) true b)).tally 5 3 1 0 0 p 1

def execPdelayReqSend (p : Nat) (s : State) : Res := run (doPdelayReqSend p) s

/-- A MASTER port answers the oldest Delay_Req it owes (R392, R393). -/
def doDelayRespSend (p : Nat) (s : State) : State :=
  match s.tme.delayResps.find? fun d => d.port == p with
  | none => s
  | some d =>
    let s := { s with tme := { s.tme with delayResps := s.tme.delayResps.erase d } }
    let x := parse d.head
    let o := (x.ptp.map PtpHead.off).getD 0
    let dest := s.ptpTo p
    let dest := if bit (x.dmac.getD 0 0) 0 then dest else { dest with dmac := x.smac, ip := x.src }
    let corr := sgn 64 (ofBE (slice d.head (o + 8) 8)) - (d.stamp % 65536 : Nat)
    let b := s.ptpHeader p 9 54 false corr d.seq (unsgn 8 (sgn 4 (s.reg .TME_PORT_CFG_LOG_DREQ p))) ++ stampBytes d.stamp ++
      slice d.head (o + 20) 10
    (s.sendDevice p ⟨9, true, d.seq, 0, 0⟩ (s.ptpFrame p { dest with tag := x.tag } false b)).tally 5 2 2 0 0 p 1

def execDelayRespSend (p : Nat) (s : State) : Res := run (doDelayRespSend p) s

/-- A port of a P2P instance answers the oldest Pdelay_Req it owes, as a one-step or a two-step responder (R392, R393). -/
def doPdelayRespSend (p : Nat) (s : State) : State :=
  match s.tme.pdelayResps.find? fun d => d.port == p with
  | none => s
  | some d =>
    let s := { s with tme := { s.tme with pdelayResps := s.tme.pdelayResps.erase d } }
    let x := parse d.head
    let o := (x.ptp.map PtpHead.off).getD 0
    let one := s.flag .TME_INST_CFG_ONE_STEP (s.portInst p)
    let corr := sgn 64 (ofBE (slice d.head (o + 8) 8))
    let b := if one then s.ptpHeader p 3 54 false corr d.seq 0x7F ++ List.replicate 10 0 ++ slice d.head (o + 20) 10
      else s.ptpHeader p 3 54 true (-(d.stamp % 65536 : Nat)) d.seq 0x7F ++ stampBytes d.stamp ++ slice d.head (o + 20) 10
    (s.sendDevice p ⟨3, one, d.seq, d.stamp, corr⟩ (s.ptpFrame p (s.ptpTo p) true b)).tally 5 3 2 0 0 p 1

def execPdelayRespSend (p : Nat) (s : State) : Res := run (doPdelayRespSend p) s

/-! ### Injected frames (R112-R114, R150, R151) -/

/-- PKT_INJECT (R112, R151): `buf` is what the read of host memory found. -/
def specPktInject (h : Hdr) (addr len port queue flags launchNs launchGrain : Nat) (buf : HostRead) : Spec :=
  { opc := 0xC0
    chk := fun _ =>
      { badField := decide (len < 60) || decide (9212 < len) || decide (257 < port) || decide (15 < queue) || decide (7 < flags) ||
          decide (2 ^ 32 ≤ launchNs) || decide (2 ^ 16 ≤ launchGrain) }
    work := fun id s =>
      match buf with
      | .error =>
        (s.dmaError h.fn addr 4).complete id stHWFAULT []
      | .ok b =>
        let b := padTo len b
        let launch := bit flags 2
        let ahead := sgn 32 (launchNs + 2 ^ 32 - s.wrapNs)
        let at_ : Int := ((s.taiNs : Int) + ahead) * 65536 + launchGrain
        let late := launch && decide (at_ < s.grains)
        let x : Inject := ⟨id, h.fn, h.sq, bit flags 0, port, queue, bit flags 1, if launch ∧ !late then at_.toNat else 0, late⟩
        let f : Frame := { Frame.none_ with
          port := if bit flags 0 then port else 258, head := b.take 128, rest := b.drop 128 ++ le 4 (crc32 b), len := len + 4
          ended := true, stage := 0, inject := some x }
        doInjectLaunch ({ s with swc := { s.swc with inject := s.swc.inject ++ [f] } } : State) }

def execPktInject (h : Hdr) (addr len port queue flags launchNs launchGrain : Nat) (buf : HostRead) (s : State) : Res :=
  s.issue h (.pktInject h addr len port queue flags launchNs launchGrain buf)
    (specPktInject h addr len port queue flags launchNs launchGrain buf)

end Machine
end Sys2Proof
end

