-- ==== Sys2Proof/Machine/Refs.lean ====
section
/-!
DEFINITION. References, DPLLs and holdover (R431-R458), and ESMC (R453, R454).
-/
namespace Sys2Proof
namespace Machine

/-! ### Access -/

/-- Key of candidate slot `n` of DPLL `d`. -/
def ckey (d n : Nat) : Nat := d * 13 + n
def State.setDpll (s : State) (d : Nat) (x : Dpll) : State :=
  { s with ref := { s.ref with dplls := tset Dpll.start d x s.ref.dplls } }
def State.cand (s : State) (d n : Nat) : Nat := s.reg .REF_C_STATUS_STATE (ckey d n)
def State.rank (s : State) (d n : Nat) : Nat := s.reg .REF_C_CTRL_RANK (ckey d n)
def State.selected (s : State) (d : Nat) : Nat := s.reg .REF_DPLL_STATUS_SELECTED d
def State.dpllState (s : State) (d : Nat) : Nat := s.reg .REF_DPLL_STATUS_STATE d
def State.trusted (s : State) : Bool := s.flag .REF_XO_TRUSTED

/-- The signal of a slot is present (R431); slot 12 is offered while VALID reads 1. -/
def State.refSignal (s : State) (n : Nat) : Bool :=
  if n = 12 then s.flag .TME_SERVO_CTRL_VALID else tget 0 s.ref.present n == 1

/-- Grade of a candidate (R453). -/
def State.gradeOf (s : State) (d n : Nat) : Nat :=
  if n < 8 then s.reg .REF_SLOT_QL_GRADE n else s.reg .REF_C_CTRL_GRADE (ckey d n)

def State.qlMode (s : State) : Bool := s.flag .REF_CFG_QL_MODE

/-- A candidate may be selected (R434, R435). -/
def State.eligible (s : State) (d n : Nat) : Bool := s.cand d n == 3 && !(s.qlMode && s.gradeOf d n == 15)

/-- What the XO is known to be off, in 2^-8 ppb: the monitor base is the XO corrected by it (R432). -/
def State.xoShift (s : State) : Int := if s.trusted then s.sreg .REF_XO_PPB else 0

/-- Offset of a slot against the monitor base, when it has been measured; slot 12's is TME_SERVO_FREQ (R432). -/
def State.offset (s : State) (n : Nat) : Option Int :=
  if n = 12 then some (s.sreg .TME_SERVO_FREQ_FREQ) else (tget none s.ref.meas n).map fun m => m + s.xoShift

/-- Units of a control value in 2^-8 ppb. -/
def fine : Int := 10 ^ 6

/-- A control value in 2^-8 ppb, to the nearest. -/
def coarse (v : Int) : Int := (v + fine / 2) / fine

/-! ### Candidate states (R434, R435) -/

/-- Detail of E177 with one more change: the first DPLL of the tick, its slots, and the lowest slot's state and reason. -/
def candDetail (d n st reason : Nat) (old : List Nat) : List Nat :=
  let m := ofLE (slice old 1 2)
  if old.getD 0 0 ≠ d then old
  else
    let low := ((List.range 13).find? fun k => bit m k).getD 13
    padTo 16 (d :: le 2 (m ||| 2 ^ n) ++ if n ≤ low then [st, reason] else slice old 3 2)

/-- A candidate changes state; `loss` is the loss instant in XO seconds when it was selected (R450). -/
def State.setCand (s : State) (d n st reason : Nat) (loss : Option Nat) : State :=
  let i := ckey d n
  if s.cand d n = st then s
  else
    let s := s.setRegs [(.REF_C_STATUS_STATE, i, st), (.REF_C_STATUS_REASON, i, reason)]
    let s := { s with ref := { s.ref with
      exc := if st = 3 then s.ref.exc else tdel i s.ref.exc
      qualAt := if st = 2 then tset 0 i s.clk.tickCount s.ref.qualAt else s.ref.qualAt } }
    let x := s.dpll d
    let s := if s.selected d = n ∧ st ≠ 3 ∧ x.loss.isNone then s.setDpll d { x with loss := some (loss.getD s.ref.sec) } else s
    let s := if reason = 0 then s else (s.tally 7 2 1 reason 0 d 1).tally 7 2 1 reason 1 n 1
    s.evSum 177 [(1, d), (2, 2 ^ n), (1, st), (1, reason)] fun old _ => candDetail d n st reason old

/-- A candidate becomes QUALIFYING, or LOST without signal (R434). -/
def State.enable (s : State) (d n : Nat) : State :=
  if s.refSignal n then s.setCand d n 2 0 none else s.setCand d n 1 1 none

/-- The limits of a candidate, in 2^-8 ppb. An offset is beyond a limit once it reaches it (log entry 21). -/
def State.beyondSoft (s : State) (d n : Nat) (o : Int) : Bool := decide (256 * s.reg .REF_C_SOFT_PPB (ckey d n) ≤ o.natAbs)
def State.beyondHard (s : State) (d n : Nat) (o : Int) : Bool := decide (256 * s.reg .REF_C_HARD_PPB (ckey d n) ≤ o.natAbs)

/-- The boundary at which a staged set applies: ranks, and an excursion that a lowered SOFT_PPB begins (R434, R435). -/
def State.refApplied (s : State) : State :=
  (List.range 2).foldl (fun (s : State) d => (List.range 13).foldl (fun (s : State) n =>
    let i := ckey d n
    if s.rank d n = 0 then s.setCand d n 0 0 none
    else match s.cand d n with
      | 0 => s.enable d n
      | 3 =>
        match s.offset n, tget none s.ref.exc i with
        | some o, none =>
          if s.beyondSoft d n o then
            { s with ref := { s.ref with exc := tset none i (some ⟨s.clk.tickCount, o, s.ref.sec⟩) s.ref.exc } }
          else s
        | _, _ => s
      | _ => s) s) s

/-- The checks of a gate on one candidate (R434). -/
def State.gateCheck (s : State) (d n : Nat) : State :=
  let i := ckey d n
  let st := s.cand d n
  if st = 0 then s
  else if !s.refSignal n then s.setCand d n 1 1 none
  else match s.offset n with
    | none => s
    | some o =>
      let soft := s.beyondSoft d n o
      let hard := s.beyondHard d n o
      let restart (s : State) : State := { s with ref := { s.ref with qualAt := tset 0 i s.clk.tickCount s.ref.qualAt } }
      match st with
      | 1 => s.setCand d n 2 0 none
      | 2 => if hard then s.setCand d n 5 3 none else if soft then restart s else s
      | 3 =>
        if hard then s.setCand d n 5 3 none
        else if !soft then { s with ref := { s.ref with exc := tdel i s.ref.exc } }
        else if (tget none s.ref.exc i).isNone then
          { s with ref := { s.ref with exc := tset none i (some ⟨s.clk.tickCount, o, s.ref.sec⟩) s.ref.exc } }
        else s
      | _ => if soft then s else s.setCand d n 2 0 none

/-- A slow drift verdict: beyond SOFT_PPB for QUAL ticks in a row (R434, R435). -/
def State.driftVerdict (s : State) (d n : Nat) : State :=
  let i := ckey d n
  match s.cand d n, tget none s.ref.exc i with
  | 3, some e =>
    if e.since + s.reg .REF_C_QUAL_TICKS i ≤ s.clk.tickCount then
      (s.setCand d n 4 2 (some e.sec)).ev 178 [(1, d), (2, n), (4, unsgn 32 e.ofs), (4, unsgn 32 ((s.offset n).getD 0))]
    else s
  | _, _ => s

/-- QUAL ticks within SOFT_PPB have gone by (R434). -/
def State.qualified (s : State) (d n : Nat) : State :=
  let i := ckey d n
  let within := match s.offset n with | some o => !s.beyondSoft d n o | none => false
  if 1 < d ∨ 12 < n ∨ s.cand d n ≠ 2 ∨ !within ∨
      s.clk.tickCount < tget 0 s.ref.qualAt i + s.reg .REF_C_QUAL_TICKS i then s
  else s.setCand d n 3 0 none

/-! ### Disagreement within a rank (R439, R440) -/

def confKey (d a b : Nat) : Nat := d * 256 + a * 16 + b

/-- Same grade (compared in QL mode, log entry 21) and same RANK. -/
def State.sameRank (s : State) (d a b : Nat) : Bool :=
  (!s.qlMode || s.gradeOf d a == s.gradeOf d b) && s.rank d a == s.rank d b

def State.e179 (s : State) (d a b reason ga gb : Nat) : State :=
  let s := s.ev 179 [(1, d), (2, a), (2, b), (4, unsgn 32 ((s.offset a).getD 0)), (4, unsgn 32 ((s.offset b).getD 0)), (1, reason),
    (1, ga), (1, gb)]
  if reason = 3 then s else s.tally 7 3 1 0 0 d 1

/-- Opinions that agree with an offset: the other VALID candidates, and the monitor base while it is trusted. -/
def State.opinions (s : State) (d a b : Nat) (o dis : Int) : Nat :=
  let l := ((List.range 13).filter fun n => n != a && n != b && s.cand d n == 3).filterMap fun n => s.offset n
  ((if s.trusted then 0 :: l else l).filter fun x => decide (((x - o).natAbs : Int) ≤ dis)).length

/-- One pair at one gate. -/
def State.pairCheck (s : State) (d a b : Nat) : State :=
  let dis : Int := 256 * s.reg .REF_CFG_DISAGREE
  let k := confKey d a b
  let c := tget ⟨0, false⟩ s.ref.conf k
  let put (s : State) (c : Conflict) : State := { s with ref := { s.ref with conf := tset ⟨0, false⟩ k c s.ref.conf } }
  match s.offset a, s.offset b with
  | some oa, some ob =>
    if s.cand d a = 3 ∧ s.cand d b = 3 ∧ s.sameRank d a b ∧ dis < (oa - ob).natAbs then
      let g := c.gates + 1
      if g < max 1 (s.reg .REF_CFG_DIS_GATES) then put s { c with gates := g }
      else
        let ga := s.opinions d a b oa dis
        let gb := s.opinions d a b ob dis
        if ga = gb then
          let s := if c.tie then s else s.e179 d a b 2 ga gb
          put s ⟨g, true⟩
        else (put (s.e179 d a b 1 ga gb) ⟨g, c.tie⟩).setCand d (if gb < ga then b else a) 4 6 none
    else
      let s := if c.tie then s.e179 d a b 3 0 0 else s
      put s ⟨0, false⟩
  | _, _ =>
    let s := if c.tie then s.e179 d a b 3 0 0 else s
    put s ⟨0, false⟩

def State.disagreements (s : State) (d : Nat) : State :=
  (List.range 13).foldl (fun (s : State) a => (List.range 13).foldl (fun (s : State) b =>
    if a < b then s.pairCheck d a b else s) s) s

/-! ### The loop (R441-R446) -/

/-- Pull range of a DPLL in 2^-8 ppb (R444). -/
def State.pull (s : State) (d : Nat) : Int := 25600 * s.reg .REF_DPLL_CFG_PULL d

/-- BW_NOW shows the bandwidth in use. -/
def State.setBw (s : State) (d bw : Nat) : State :=
  (s.setDpll d { s.dpll d with bw := bw, stepAt := s.clk.tickCount }).setReg .REF_DPLL_STATUS_BW_NOW d (min (2 ^ 24 - 1) (bw / 2 ^ 20))

/-- A DPLL changes state (R441, E182). -/
def State.setDpllState (s : State) (d st : Nat) : State :=
  let old := s.dpllState d
  let s := if st = 2 ∨ st = 3 then s else s.setDpll d { s.dpll d with broken := true }
  if old = st then s
  else
    let s := (s.setReg .REF_DPLL_STATUS_STATE d st).ev 182 [(1, d), (1, old), (1, st), (4, s.reg .REF_DPLL_STATUS_BW_NOW d)]
    if d = 0 then s.judgeTraceable else s

/-- The phase error of a DPLL to its candidate, in ps; one beyond ±1 ns begins the second anew in which ACQUIRE waits for lock
(R441). -/
def State.phaseShown (s : State) (d : Nat) (v : Int) : State :=
  let s := s.setReg .REF_DPLL_PHASE_PS d (unsgn 32 v)
  if 1000 < v.natAbs then s.setDpll d { s.dpll d with withinAt := s.clk.tickCount } else s

/-- Where the control value moves to: `need` in 2^-8 ppb against XO nominal, kept within the pull range about the monitor
base; a selected candidate that needs more has FAILED (R444). -/
def State.steer (s : State) (d : Nat) (need : Int) : State :=
  let lim := s.pull d
  let rel := need + s.xoShift
  let cut := max (-lim) (min lim rel) - s.xoShift
  let s := s.setDpll d { s.dpll d with target := cut * fine }
  let sat := decide (lim < rel.natAbs)
  let s := s.setReg .REF_DPLL_STATUS_SATURATED d (b2n sat)
  let n := s.selected d
  if sat ∧ n ≤ 12 then
    ((s.setCand d n 5 4 none).ev 183 [(1, d), (2, n), (4, unsgn 32 rel)]).tally 7 6 1 0 0 d 1
  else s

/-- What the selected candidate asks of the loop. -/
def State.steerSelected (s : State) (d : Nat) : State :=
  let n := s.selected d
  if n = 12 then s.steer d (s.sreg .TME_SERVO_FREQ_FREQ)
  else match tget none s.ref.meas n with
    | some m => s.steer d m
    | none => s

/-- Loop bandwidth of a candidate, in 2^-20 mHz. -/
def State.candBw (s : State) (d n : Nat) : Nat := s.reg .REF_C_BW_MHZ (ckey d n) * 2 ^ 20

def State.acquire (s : State) (d : Nat) : State :=
  let s := s.setDpll d { s.dpll d with acqAt := s.clk.tickCount, withinAt := s.clk.tickCount }
  (s.setBw d (s.reg .REF_DPLL_CFG_ACQ_BW d * 1000 * 2 ^ 20)).setDpllState d 1

/-- A DPLL selects candidate `n` (R436, R443, R446, R447); `cause` as in log entry 22. -/
def State.select (s : State) (d n cause : Nat) : State :=
  let old := s.selected d
  let ph := tget 0 s.ref.phase (d * 16 + n)
  let s := if n = 12 then s
    else if s.flag .REF_DPLL_CFG_PBO d then
      let s := s.setDpll d { s.dpll d with zero := ph }
      let s := s.setRegs [(.REF_DPLL_PBO_LAST_PS, d, unsgn 32 ph), (.REF_DPLL_PBO_PS, d, unsgn 64 (s.sreg .REF_DPLL_PBO_PS d + ph)),
        (.REF_DPLL_PHASE_PS, d, 0)]
      ((s.ev 181 [(1, d), (2, n), (4, unsgn 32 ph)]).tally 7 4 1 0 0 d 1).tally 7 4 1 0 1 n 1
    else (s.setDpll d { s.dpll d with zero := 0 }).setReg .REF_DPLL_PHASE_PS d (unsgn 32 ph)
  let s := (s.setReg .REF_DPLL_STATUS_SELECTED d n).setDpll d { s.dpll d with loss := none }
  let s := ((s.ev 176 [(1, d), (2, old), (2, n), (1, cause)]).tally 7 1 1 0 0 d 1).tally 7 1 1 0 1 n 1
  let s := s.steerSelected d
  let st := s.dpllState d
  let taken (s : State) : State := s.setDpllState d (if (s.dpll d).ctl = (s.dpll d).target then 3 else 2)
  if st = 0 ∨ st = 4 then
    let s := if st = 4 then s.ev 180 [(1, d), (4, s.reg .REF_DPLL_HOLD_PPB d), (4, s.reg .REF_DPLL_HOLD_INFO_ENTRIES d),
      (4, s.reg .REF_DPLL_HOLD_TICKS_TICKS d)] else s
    if n = 12 then taken (s.acquire d) else s.acquire d
  else if n = 12 then taken s
  else if st = 1 then s.acquire d
  else if (s.dpll d).bw ≤ s.candBw d n then (s.setBw d (s.candBw d n)).setDpllState d 3
  else (s.setDpll d { s.dpll d with stepAt := s.clk.tickCount }).setDpllState d 2

/-- f_hold (R450): its value in fine units, the entries averaged, and whether the history was short; none: no history. -/
def State.fHold (s : State) (d : Nat) : Option (Int × Nat × Bool) :=
  let x := s.dpll d
  let t : Int := x.loss.getD s.ref.sec
  let lo := t - s.reg .REF_HOLD_CFG_START_S
  let hi := t - s.reg .REF_HOLD_CFG_END_S - 1
  let mean (l : List (Nat × Int)) : Int := (l.foldl (fun a e => a + e.2) 0) / max 1 l.length
  let w := x.hist.filter fun e => decide (lo ≤ e.1 ∧ (e.1 : Int) ≤ hi)
  if s.reg .REF_HOLD_CFG_MIN_S ≤ w.length ∧ w ≠ [] then some (mean w, w.length, false)
  else
    let w := x.hist.filter fun e => decide ((e.1 : Int) ≤ t - 2)
    if w = [] then none else some (mean w, w.length, true)

/-- No candidate is eligible: HOLDOVER at f_hold, or FREERUN without history (R441, R450). -/
def State.holdover (s : State) (d : Nat) : State :=
  let old := s.selected d
  let s := s.setRegs [(.REF_DPLL_STATUS_SELECTED, d, 15), (.REF_DPLL_STATUS_SATURATED, d, 0)]
  let s := if old = 15 then s else (s.ev 176 [(1, d), (2, old), (2, 15), (1, 1)]).tally 7 1 1 0 0 d 1
  let lim := s.pull d
  let clamp (v : Int) : Int := max ((-lim - s.xoShift) * fine) (min ((lim - s.xoShift) * fine) v)
  match s.fHold d with
  | none => (s.setDpll d { s.dpll d with target := clamp 0, loss := none }).setDpllState d 0
  | some (f, n, short) =>
    let s := s.setRegs [(.REF_DPLL_HOLD_PPB, d, unsgn 32 (coarse f)), (.REF_DPLL_HOLD_INFO_SHORT, d, b2n short),
      (.REF_DPLL_HOLD_INFO_ENTRIES, d, min 1023 n), (.REF_DPLL_HOLD_TICKS_TICKS, d, 0)]
    let s := s.evIf short 184 [(1, d), (4, n)]
    let s := (s.setDpll d { s.dpll d with target := clamp f, loss := none }).setDpllState d 4
    s.ev 180 [(1, d), (4, unsgn 32 (coarse f)), (4, n), (4, 0)]

/-- `a` goes before `b`: better grade in QL mode, then better RANK (R436). -/
def State.better (s : State) (d a b : Nat) : Bool :=
  let ga := if s.qlMode then s.gradeOf d a else 0
  let gb := if s.qlMode then s.gradeOf d b else 0
  decide (ga < gb) || (ga == gb && decide (s.rank d a < s.rank d b))

/-- The first of the eligible candidates in the order of R436. -/
def State.best (s : State) (d : Nat) (l : List Nat) : Option Nat :=
  match l with
  | [] => none
  | a :: t => some (t.foldl (fun a b => if s.better d b a then b else a) a)

/-- Selection at a boundary (R436, R437). -/
def State.selection (s : State) (d : Nat) : State :=
  let l := (List.range 13).filter fun n => s.eligible d n
  let cur := s.selected d
  if cur ≤ 12 ∧ s.eligible d cur then
    match s.best d (l.filter fun n => s.better d n cur && s.flag .REF_C_CTRL_REVERT (ckey d n)) with
    | some n => s.select d n 2
    | none => s
  else match s.best d l with
    | some n => s.select d n (if cur ≤ 12 then 1 else 3)
    | none => if cur ≤ 12 then s.holdover d else s

/-- One tick of the control value: it moves to its target by at most the slew limit (R445). Slot 12 reads LOCKED once its
value has been reached (R446); holdover is counted (R451). -/
def State.loopTick (s : State) (d : Nat) : State :=
  let s := if s.selected d = 12 ∧ s.eligible d 12 then s.steerSelected d else s
  let x := s.dpll d
  let lim : Int := 256 * s.reg (if d = 0 then .REF_SLEW_LIMIT_D0 else .REF_SLEW_LIMIT_D1)
  let ctl := x.ctl + max (-lim) (min lim (x.target - x.ctl))
  let s := (s.setDpll d { x with ctl := ctl, sum := x.sum + ctl, n := x.n + 1 }).setReg .REF_DPLL_FREQ_PPB d (unsgn 32 (coarse ctl))
  let st := s.dpllState d
  let s := if st = 4 then s.wrapReg .REF_DPLL_HOLD_TICKS_TICKS d 1 else s
  let s := s.tally 7 5 1 (st + 1) 0 d 1
  if s.selected d = 12 ∧ (st = 1 ∨ st = 2) ∧ ctl = x.target then s.setDpllState d 3
  else if st = 3 ∧ s.selected d ≤ 11 ∧ x.bw ≠ s.candBw d (s.selected d) then s.setBw d (s.candBw d (s.selected d))
  else s

/-- ELIGIBLE, and reason DNU of a VALID candidate of grade 15 (R435). -/
def State.showCand (s : State) (d n : Nat) : State :=
  let i := ckey d n
  let e := s.eligible d n
  let s := s.setReg .REF_C_STATUS_ELIGIBLE i (b2n e)
  if s.cand d n = 3 then s.setReg .REF_C_STATUS_REASON i (if e then 0 else 7) else s

/-- CANDIDATE_QUALIFIED, at a boundary: the candidate is VALID, and selection runs (R434, R436). -/
def doCandidateQualified (d n : Nat) (s : State) : State :=
  let t := s.qualified d n
  if s.clk.cycle ≠ 0 ∨ t.cand d n = s.cand d n then s else (t.selection d).showCand d n

def execCandidateQualified (d n : Nat) (s : State) : Res := run (doCandidateQualified d n) s

/-- The first lane of the port that feeds slot `n` is UP (R431). -/
def State.slotUp (s : State) (n : Nat) : Bool := s.reg .LN_STATUS_STATE (s.reg .REF_PORTSLOT_PORT n) == 6

/-- No edge for 4 nominal periods, or for 1.5 s at a 1PPS input: `quiet` is the time since the last edge in ns (R431). -/
def State.inputLost (s : State) (n quiet : Nat) : Bool :=
  let k := n - 8
  if s.flag .REF_IN_CFG_PPS k then decide (1500000000 ≤ quiet) else decide (4000000000 ≤ quiet * s.reg .REF_IN_CFG_FREQ_HZ k)

/-- The signal of a slot is lost: its candidates are LOST; a DPLL that has it selected freezes its control value (R431, R438). -/
def State.signalLost (s : State) (n : Nat) : State :=
    let s := { s with ref := { s.ref with present := tdel n s.ref.present, meas := tdel n s.ref.meas } }
    (List.range 2).foldl (fun (s : State) d =>
      let s := if s.selected d = n then s.setDpll d { s.dpll d with target := (s.dpll d).ctl } else s
      if s.cand d n = 0 then s else s.setCand d n 1 1 none) s

/-- REF_SIGNAL_LOSS of slot `n`: its lane has left UP, its input has been quiet for `quiet` ns, or VALID reads 0 (R431). -/
def doRefSignalLoss (n quiet : Nat) (s : State) : State :=
  let lost := if n < 8 then !s.slotUp n else if n < 12 then s.inputLost n quiet else n == 12 && !s.refSignal 12
  if lost then s.signalLost n else s

def execRefSignalLoss (x : Quiet) (s : State) : Res := run (doRefSignalLoss x.slot x.quiet) s

/-- REF_SIGNAL_RETURN: LOST candidates of the slot start qualifying (R434). -/
def doRefSignalReturn (n : Nat) (s : State) : State :=
  if 12 < n ∨ (n = 12 ∧ !s.refSignal 12) ∨ (n < 8 ∧ !s.slotUp n) then s
  else
    let s := if n = 12 then s else { s with ref := { s.ref with present := tset 0 n 1 s.ref.present } }
    (List.range 2).foldl (fun (s : State) d => if s.cand d n = 1 then
      let s := s.setCand d n 2 0 none
      { s with ref := { s.ref with qualAt := tset 0 (ckey d n) (s.clk.tickCount + 1) s.ref.qualAt } }
      else s) s

def execRefSignalReturn (n : Nat) (s : State) : Res := run (doRefSignalReturn n) s

/-- A slot whose port's first lane is not UP, and slot 12 without VALID, have lost their signal; slot 12 returns with VALID
(R431). -/
def State.slotSignals (s : State) : State :=
  let s := (List.range 8).foldl (fun (s : State) k =>
    if s.refSignal k ∧ !s.slotUp k then s.signalLost k else s) s
  if s.refSignal 12 then doRefSignalReturn 12 s else s.signalLost 12

/-- REF's work at a boundary (R434): the staged set, then the checks of a gate that has ended, then selection. -/
def State.refTick (s : State) (applied : Bool) : State :=
  let s := if applied then s.refApplied else s
  let both (f : State → Nat → State) (s : State) : State := (List.range 2).foldl f s
  let s := s.slotSignals
  let all (f : State → Nat → Nat → State) : State → State :=
    both fun s d => (List.range 13).foldl (fun s n => f s d n) s
  let s := if s.ref.gate then
      let s := both (fun s d => ((List.range 13).foldl (fun (s : State) n => s.gateCheck d n) s).disagreements d) s
      let s := { s with ref := { s.ref with gate := false } }
      both (fun s d => if s.selected d ≤ 12 ∧ s.eligible d (s.selected d) then s.steerSelected d else s) s
    else s
  let s := all State.qualified (all State.driftVerdict s)
  let s := both State.selection s
  all State.showCand (both State.loopTick s)

/-! ### Rows -/

/-- A tick of so many CORE cycles has passed. -/
def State.xoTick (s : State) (cycles : Nat) : State := { s with ref := { s.ref with xo := s.ref.xo + s.xoSpan cycles } }

/-- XO time of a gate: GATE_MS, the nearer end of its range where it lies outside (R432, R456; log entry 168). -/
def State.gateTime (s : State) : Nat := max 100 (min 10000 (s.reg .REF_MON_GATE_MS)) * (256 * 10 ^ 18)

/-- REF_GATE_END: offsets are measured; the checks wait for the next boundary (R432, R434). -/
def doRefGateEnd (l : List GateSlot) (s : State) : State :=
  if s.xoNow < s.ref.gateAt + s.gateTime then s else
  let s : State := { s with ref := { s.ref with gateAt := max (s.ref.gateAt + s.gateTime) (s.xoNow - s.gateTime) } }
  let l := l.filter fun g => decide (g.slot < 12) && s.refSignal g.slot
  let s := l.foldl (fun (s : State) g =>
    let s := { s with ref := { s.ref with
      meas := tset none g.slot (some g.raw) s.ref.meas
      phase := tset 0 (16 + g.slot) g.phase1 (tset 0 g.slot g.phase0 s.ref.phase) } }
    s.setReg .REF_SLOT_OFS_PPB g.slot (unsgn 32 (g.raw + s.xoShift))) s
  let s := s.setReg .REF_SLOT_OFS_PPB 12 (s.reg .TME_SERVO_FREQ_FREQ)
  let s := s.setReg .REF_XO_MEAS_PPB 0 (unsgn 32 (-(coarse (s.dpll 0).ctl)))
  let s := (List.range 2).foldl (fun (s : State) d =>
    let n := s.selected d
    if n < 12 then s.phaseShown d (tget 0 s.ref.phase (d * 16 + n) - (s.dpll d).zero) else s) s
  { s with ref := { s.ref with gate := true } }

def execRefGateEnd (l : List GateSlot) (s : State) : Res := run (doRefGateEnd l) s

/-- HISTORY_SECOND: an XO second ends, and each DPLL that was wholly in NARROW or LOCKED records its mean (R449). -/
def doHistorySecond (s : State) : State :=
  let k := s.ref.sec
  if s.xoNow < (k + 1) * (256 * 10 ^ 21) then s else
  let s := (List.range 2).foldl (fun (s : State) d =>
    let x := s.dpll d
    let st := s.dpllState d
    let mean := if x.n = 0 then x.ctl else x.sum / x.n
    let hist := if x.broken then x.hist else (k, mean) :: x.hist
    s.setDpll d { x with hist := hist.filter (fun e => decide (k < e.1 + 1024)), broken := !(st == 2 || st == 3), sum := 0, n := 0 }) s
  { s with ref := { s.ref with sec := k + 1 } }

def execHistorySecond (s : State) : Res := run doHistorySecond s

/-- XO_PPB_UPDATE, every 1,000 ticks: the XO's error against DPLL0, only while it is LOCKED with another slot than 12 and time is traceable
(R433). -/
def doXoPpbUpdate (s : State) : State :=
  if s.clk.tickCount % 1000 ≠ 0 ∨ s.ref.xoAt = s.clk.tickCount + 1 ∨ s.dpllState 0 ≠ 3 ∨ 12 ≤ s.selected 0 ∨ !s.traceable then s
  else
    let s := s.setReg .REF_XO_PPB 0 (unsgn 31 (-(coarse (s.dpll 0).ctl)))
    let was := s.trusted
    let now := decide (0 < s.reg .REF_XO_TRUST_S)
    let s := ({ s with ref := { s.ref with xoAt := s.clk.tickCount + 1 } }).setReg .REF_XO_TRUSTED 0 (b2n now)
    s.evIf (was != now) 188 [(4, s.reg .REF_XO_PPB), (4, 0)]

def execXoPpbUpdate (s : State) : Res := run doXoPpbUpdate s

/-- XO_TRUST_EXPIRY: the last update is REF_XO_TRUST.S seconds old (R433). -/
def doXoTrustExpiry (s : State) : State :=
  let age := s.clk.tickCount + 1 - s.ref.xoAt
  if !s.trusted ∨ age < s.reg .REF_XO_TRUST_S * 10 ^ 6 then s
  else (s.setReg .REF_XO_TRUSTED 0 0).ev 188 [(4, s.reg .REF_XO_PPB), (4, age / 10 ^ 6)]

def execXoTrustExpiry (s : State) : Res := run doXoTrustExpiry s

/-- DPLL_LOCK_DETECT: the phase error, `phase` ps, has stayed within ±1 ns for 1 s in ACQUIRE (R441). -/
def doDpllLockDetect (d : Nat) (phase : Int) (s : State) : State :=
  if 1 < d ∨ s.dpllState d ≠ 1 ∨ 12 ≤ s.selected d then s
  else
    let s := s.phaseShown d phase
    if s.clk.tickCount < (s.dpll d).withinAt + 10 ^ 6 then s
    else (s.setDpll d { s.dpll d with stepAt := s.clk.tickCount }).setDpllState d 2

def execDpllLockDetect (x : PhaseIn) (s : State) : Res := run (doDpllLockDetect x.dpll x.phase) s

/-- DPLL_ACQ_TIMEOUT: ACQUIRE has lasted ACQ_LIMIT s: the candidate has FAILED with NOLOCK (R441). -/
def doDpllAcqTimeout (d : Nat) (s : State) : State :=
  if 1 < d ∨ s.dpllState d ≠ 1 ∨ 12 < s.selected d ∨ s.clk.tickCount < (s.dpll d).acqAt + s.reg .REF_DPLL_CFG_ACQ_LIMIT d * 10 ^ 6 then s
  else s.setCand d (s.selected d) 5 5 none

def execDpllAcqTimeout (d : Nat) (s : State) : Res := run (doDpllAcqTimeout d) s

/-- DPLL_NARROW_STEP: after max(1 s, 1 / BW_now) the bandwidth is halved, or takes the candidate's BW in LOCKED (R442). -/
def doDpllNarrowStep (d : Nat) (s : State) : State :=
  let n := s.selected d
  let x := s.dpll d
  let wait := max (10 ^ 6) (10 ^ 9 * 2 ^ 20 / max 1 x.bw)
  if 1 < d ∨ s.dpllState d ≠ 2 ∨ 12 ≤ n ∨ s.clk.tickCount < x.stepAt + wait then s
  else
    let half := x.bw / 2
    if half ≤ s.candBw d n then (s.setBw d (s.candBw d n)).setDpllState d 3 else s.setBw d half

def execDpllNarrowStep (d : Nat) (s : State) : Res := run (doDpllNarrowStep d) s

/-- DPLL_PHASE_LOSS: the phase error, `phase` ps, exceeds 10 ns in NARROW or LOCKED (R441). -/
def doDpllPhaseLoss (d : Nat) (phase : Int) (s : State) : State :=
  let st := s.dpllState d
  if 1 < d ∨ (st ≠ 2 ∧ st ≠ 3) ∨ 12 ≤ s.selected d ∨ phase.natAbs ≤ 10000 then s else (s.phaseShown d phase).acquire d

def execDpllPhaseLoss (x : PhaseIn) (s : State) : Res := run (doDpllPhaseLoss x.dpll x.phase) s

/-! ### REF_SET and the staged set (R142, R444, R456, R59) -/

def specRefSet (d n rank : Nat) (revert : Bool) (soft hard qual bw : Nat) : Spec :=
  { opc := 0x40
    chk := fun _ =>
      { badField := decide (1 < d) || decide (12 < n) || decide (15 < rank) || decide (hard < soft) || decide (2 ^ 32 ≤ hard) ||
          decide (2 ^ 32 ≤ qual) || bw == 0 || decide (10000 < bw) }
    work := fun id s =>
      let i := ckey d n
      let s := [(Fld.REF_C_CTRL_RANK, rank), (.REF_C_CTRL_REVERT, b2n revert), (.REF_C_SOFT_PPB, soft), (.REF_C_HARD_PPB, hard),
        (.REF_C_QUAL_TICKS, qual), (.REF_C_BW_MHZ, bw)].foldl (fun (s : State) x => s.setPend x.1 i x.2) s
      { s with
        ref := { s.ref with sets := s.ref.sets ++ [(id, i)] }
        sys := { s.sys with selfScope := s.sys.selfScope ||| 2 ^ 7 } } }

def execRefSet (h : Hdr) (d n rank : Nat) (revert : Bool) (soft hard qual bw : Nat) (s : State) : Res :=
  s.issue h (.refSet h d n rank revert soft hard qual bw) (specRefSet d n rank revert soft hard qual bw)

/-- REF refuses its staged set (R59, R444, R456): a HARD_PPB above the pull range, a holdover window that cannot hold MIN_S
entries, or a value out of its range. -/
def State.refRefuses (s : State) : Bool :=
  let p (f : Fld) (i : Nat) := s.pendReg f i
  (List.range 26).any (fun i =>
    let pull := 100 * p .REF_DPLL_CFG_PULL (i / 13)
    decide (pull < p .REF_C_HARD_PPB i) || p .REF_C_BW_MHZ i == 0 || decide (10000 < p .REF_C_BW_MHZ i)) ||
  (List.range 2).any (fun d =>
    p .REF_DPLL_CFG_PULL d == 0 || decide (1000 < p .REF_DPLL_CFG_PULL d) || p .REF_DPLL_CFG_ACQ_LIMIT d == 0 || p .REF_DPLL_CFG_ACQ_BW d == 0) ||
  decide (p .REF_HOLD_CFG_START_S 0 ≤ p .REF_HOLD_CFG_END_S 0 + p .REF_HOLD_CFG_MIN_S 0) || p .REF_HOLD_CFG_MIN_S 0 == 0

/-! ### ESMC (R453, R454) -/

/-- Grade of received codes (R453). -/
def State.esmcGrade (s : State) (ssm : Nat) (enh : Option Nat) : Nat :=
  match enh with
  | some c => if 0x20 ≤ c ∧ c ≤ 0x27 then s.reg .REF_QL_EMAP_GRADE / 16 ^ (c - 0x20) % 16 else s.reg .REF_QL_MAP_GRADE / 16 ^ (ssm % 16) % 16
  | none => s.reg .REF_QL_MAP_GRADE / 16 ^ (ssm % 16) % 16

/-- A slot's grade, and E185 when it changes. -/
def State.setGrade (s : State) (k g : Nat) : State :=
  if s.reg .REF_SLOT_QL_GRADE k = g then s
  else (s.setReg .REF_SLOT_QL_GRADE k g).ev 185 [(2, k), (1, s.reg .REF_SLOT_QL_SSM k), (1, s.reg .REF_SLOT_QL_ENH k), (1, g)]

/-- ESMC_PDU_RECEIVE: every slot that its port feeds takes its quality (R453). -/
def doEsmcPduReceive (port ssm : Nat) (tlv : Option QlTlv) (s : State) : State :=
  ((List.range 8).filter fun k => s.reg .REF_PORTSLOT_PORT k == port).foldl (fun (s : State) k =>
    let s := s.setRegs [(.REF_SLOT_QL_SSM, k, ssm), (.REF_SLOT_QL_ENH, k, (tlv.map QlTlv.code).getD 0), (.REF_SLOT_QL_ESMC_SEEN, k, 1)]
    let s := { s with ref := { s.ref with pduAt := tset 0 k (s.clk.tickCount + 1) s.ref.pduAt, tlv := tset none k tlv s.ref.tlv } }
    (s.setGrade k (s.esmcGrade ssm (tlv.map QlTlv.code))).tally 7 7 1 0 1 k 1) s

def execEsmcPduReceive (port ssm : Nat) (tlv : Option QlTlv) (s : State) : Res := run (doEsmcPduReceive port ssm tlv) s

/-- ESMC_TIMEOUT: 5 s without a valid PDU (R453). -/
def doEsmcTimeout (k : Nat) (s : State) : State :=
  if 8 ≤ k ∨ !s.flag .REF_SLOT_QL_ESMC_SEEN k ∨ s.clk.tickCount + 1 < tget 0 s.ref.pduAt k + 5 * 10 ^ 6 then s
  else
    let s := { s with ref := { s.ref with tlv := tdel k s.ref.tlv } }
    (((s.setReg .REF_SLOT_QL_ESMC_SEEN k 0).setGrade k 15).ev 186 [(2, k)]).tally 7 8 1 0 1 k 1

def execEsmcTimeout (k : Nat) (s : State) : Res := run (doEsmcTimeout k) s

/-- The SSM code that stands for a grade of slots 8 to 12: the lowest code mapped to it, else QL-DNU (log entry 22). -/
def State.ssmOfGrade (s : State) (g : Nat) : Nat :=
  ((List.range 16).find? fun c => s.reg .REF_QL_MAP_GRADE / 16 ^ c % 16 == g).getD 15

/-- What DPLL0 advertises (R454). -/
def State.advertised (s : State) : Nat × Option QlTlv :=
  let n := s.selected 0
  match s.dpllState 0 with
  | 0 => (s.reg .REF_ESMC_FREE_SSM, none)
  | 4 => (s.reg .REF_ESMC_HOLD_SSM, none)
  | _ =>
    if n < 8 then (s.reg .REF_SLOT_QL_SSM n, (tget none s.ref.tlv n).map fun t => { t with eeec := (t.eeec + 1) % 256 })
    else (s.ssmOfGrade (s.gradeOf 0 n), none)

/-- The bytes of a PDU (ITU-T G.8264; log entry 23). -/
def esmcBytes (smac : List Nat) (event : Bool) (ssm : Nat) (tlv : Option QlTlv) : List Nat :=
  padTo 60 ([0x01, 0x80, 0xC2, 0x00, 0x00, 0x02] ++ smac ++ be 2 0x8809 ++ [0x0A, 0x00, 0x19, 0xA7, 0x00, 0x01,
    0x10 + 8 * b2n event, 0, 0, 0, 0x01, 0x00, 0x04, ssm % 16] ++ match tlv with
    | some t => [0x02, 0x00, 0x14, t.code] ++ slice t.other 0 9 ++ [t.eeec] ++ slice t.other 9 6
    | none => [])

/-- A frame of class `c` that the device makes enters the egress slice of its port (R454, R491). -/
def State.sendOwn (s : State) (c p : Nat) (b : List Nat) : State :=
  let id := s.swc.nextFrame
  let f : Frame := { Frame.none_ with
    port := p, head := b.take 128, rest := b.drop 128 ++ le 4 (crc32 b), len := b.length + 4, ended := true, full := s.grains
    steps := s.tme.steps, cls := c, pool := 2, verdict := ⟨1, p, none, none⟩, stage := 3, want := 1, dev := some ⟨255, false, 0, 0, 0⟩ }
  let s := { s with swc := { s.swc with nextFrame := id + 1, frames := tins id f s.swc.frames } }
  ((s.askCell id).forward id).frameWhole id

def State.sendControl (s : State) (p : Nat) (b : List Nat) : State := s.sendOwn 3 p b

/-- Ports that send ESMC. -/
def State.esmcPorts (s : State) : List Nat :=
  if s.flag .REF_ESMC_EN then (List.range 256).filter fun p => bit (s.reg .REF_ESMC_TXMASK_PORTS (p / 32)) (p % 32) else []

/-- PDUs go out on each enabled port; the port of DPLL0's selected slot carries QL-DNU (R454). -/
def State.esmcSend (s : State) (event : Bool) : State :=
  let a := s.advertised
  let n := s.selected 0
  let s := { s with ref := { s.ref with sent := some a } }
  s.esmcPorts.foldl (fun (s : State) p =>
    let own := decide (n < 8) && s.reg .REF_PORTSLOT_PORT n == p
    let ssm := if own then 15 else a.1
    let s := (s.emit (.esmc p event ssm a.2)).sendControl p (esmcBytes (be 6 (s.reg .CLS_ROUTER_MAC_MAC)) event ssm a.2)
    s.tally 7 7 2 0 0 0 1) s

/-- ESMC_INFO_SEND: every second (R454). -/
def doEsmcInfoSend (s : State) : State :=
  if !s.flag .REF_ESMC_EN ∨ (s.ref.infoAt ≠ 0 ∧ s.clk.tickCount + 1 < s.ref.infoAt + 10 ^ 6) then s
  else State.esmcSend { s with ref := { s.ref with infoAt := s.clk.tickCount + 1 } } false
def execEsmcInfoSend (s : State) : Res := run doEsmcInfoSend s

/-- ESMC_EVENT_SEND: within a tick of a change of what is advertised (R454). -/
def doEsmcEventSend (s : State) : State := if s.ref.sent = some s.advertised then s else s.esmcSend true
def execEsmcEventSend (s : State) : Res := run doEsmcEventSend s

end Machine
end Sys2Proof
end

