-- ==== Sys2Proof/Machine/Output.lean ====
section
/-!
DEFINITION. The output aligner and the clock outputs (R459-R480).
-/
namespace Sys2Proof
namespace Machine

/-! ### Periods and offsets (R459-R461) -/

/-- Parts of a ps in which offsets and periods are whole: 2^40 from TAI, 10^15 from control values, 297 from SYN1. -/
def outUnit : Nat := 2 ^ 40 * 10 ^ 15 * 297

/-- Synthesiser period of SYN1 by OUT_SYN1.FREQ, and of SYN0 (R459). -/
def synPeriod (src freq : Nat) : Nat :=
  if src = 0 then 125 * outUnit
  else match freq with
    | 0 => 125 * outUnit
    | 1 => 10 ^ 6 * outUnit / 5940
    | 2 => 1001000 * outUnit / 5940
    | _ => 10 ^ 6 * outUnit / 6144

def State.outPin (s : State) (n : Nat) : OutPin := tget OutPin.idle s.outp.pins n
def State.setPin (s : State) (n : Nat) (x : OutPin) : State :=
  { s with outp := { s.outp with pins := tset OutPin.idle n x s.outp.pins } }

/-- Period of CLKOUT `n` under the values in force (R460). -/
def State.outPeriod (s : State) (n : Nat) : Nat :=
  synPeriod (s.reg .OUT_CLK_CFG_SRC n) (s.reg .OUT_SYN1_FREQ) * s.reg .OUT_CLK_CFG_DIV n *
    (if s.flag .OUT_CLK_CFG_MODE n then s.reg .OUT_CLK_FDIV_FDIV n else 1)

/-- High time of CLKOUT `n`: floor(DIV / 2) synthesiser periods in CLOCK mode, WIDTH divided-clock periods in FRAME mode (R460,
R645). -/
def State.outHigh (s : State) (n : Nat) : Nat :=
  let syn := synPeriod (s.reg .OUT_CLK_CFG_SRC n) (s.reg .OUT_SYN1_FREQ)
  let div := s.reg .OUT_CLK_CFG_DIV n
  if s.flag .OUT_CLK_CFG_MODE n then syn * div * s.reg .OUT_CLK_WIDTH_WIDTH n else syn * (div / 2)

/-- The first raster instant of a period and a phase at or after now, in parts of a ps (R461). -/
def State.nextRaster (s : State) (per : Nat) (phase : Int) : Nat :=
  let now : Int := (s.clk.acc : Int) * (1000 * 10 ^ 15 * 297)
  (now + (phase * outUnit - now) % max 1 per).toNat

/-- The wave of CLKOUT `n` from its first rising edge under the values in force (R460-R462, R464). -/
def State.outWave (s : State) (n : Nat) : State :=
  s.emit (.clock n (s.nextRaster (s.outPeriod n) (s.sreg .OUT_CLK_PHASE_PS n)) (s.outPeriod n) (s.outHigh n))

/-- Status fields of an output: CLKOUT n or TIO n − 8. -/
def State.outState (s : State) (n : Nat) : Nat :=
  if n < 8 then s.reg .OUT_CLK_STATUS_STATE n else s.reg .OUT_TIO_STATUS_STATE (n - 8)
def State.setOutState (s : State) (n v : Nat) : State :=
  if n < 8 then s.setReg .OUT_CLK_STATUS_STATE n v else s.setReg .OUT_TIO_STATUS_STATE (n - 8) v
def State.setResid (s : State) (n v : Nat) : State :=
  if n < 8 then s.setReg .OUT_CLK_STATUS_RESID n v else s.setReg .OUT_TIO_STATUS_RESID (n - 8) v
def State.setLine (s : State) (n : Nat) (v : Bool) : State :=
  if n < 8 then s.setReg .OUT_CLK_STATUS_LINE_LOCK n (b2n v) else s.setReg .OUT_TIO_STATUS_LINE_LOCK (n - 8) (b2n v)
def State.lineLock (s : State) (n : Nat) : Bool :=
  if n < 8 then s.flag .OUT_CLK_STATUS_LINE_LOCK n else s.flag .OUT_TIO_STATUS_LINE_LOCK (n - 8)
def State.claimGate (s : State) (n : Nat) : Bool :=
  if n < 8 then s.flag .OUT_CLK_STATUS_GATE n else s.flag .OUT_TIO_STATUS_GATE (n - 8)
def State.setClaimGate (s : State) (n : Nat) (v : Bool) : State :=
  if n < 8 then s.setReg .OUT_CLK_STATUS_GATE n (b2n v) else s.setReg .OUT_TIO_STATUS_GATE (n - 8) (b2n v)
def State.shared (s : State) (n : Nat) : Bool :=
  if n < 8 then s.flag .OUT_CLK_CFG_SHARED n else s.flag .OUT_TIO_CFG_SHARED (n - 8)
/-- The output runs: EN, or TME_TIOn_MODE = 1 (R464, R478). -/
def State.outEn (s : State) (n : Nat) : Bool :=
  if n < 8 then s.flag .OUT_CLK_CFG_EN n else s.reg .TME_TIO_MODE_MODE (n - 8) == 1

/-- Bit of an output in an event's bitmap: a byte for the eight of its group (R611; log entry 25). -/
def outBit (n : Nat) : Nat := 2 ^ (n % 8)

/-- An offset, reduced to within half a period. -/
def nearRaster (per : Nat) (o : Int) : Int :=
  if per = 0 then 0
  else
    let r := o % per
    if (per : Int) < 2 * r then r - per else r

/-- To the nearest ps. -/
def toPs (o : Int) : Int := (2 * o + outUnit) / (2 * outUnit)

/-- OUT_CLKn_OFS shows the offset. -/
def State.showOfs (s : State) (n : Nat) : State :=
  if n < 8 then s.setReg .OUT_CLK_OFS_PS n (unsgn 32 (toPs (s.outPin n).ofs)) else s

/-! ### The claim gate (R474, R475, R484, R493) -/

/-- The pair unit lets this device drive its shared outputs: pairing is off, or the published claim beats the partner's
outside JOINING and CONFLICT. -/
def State.pairDrives (s : State) : Bool :=
  match s.reg .PAIR_STATUS_STATE with
  | 0 => true
  | 1 => false
  | 5 => false
  | _ => decide (s.reg .PAIR_STATUS_PEER_CLAIM < s.reg .PAIR_STATUS_OWN_CLAIM)

/-- What the gate of an output is to be. -/
def State.gateWanted (s : State) (n : Nat) : Bool := !s.shared n || s.pairDrives


/-- OUT_GATE_CHANGE: at a falling edge the gate opens (`v`) or closes, as the unit's claim wants it, at an instant the pair unit
has named or at once (R475). -/
def doOutGateChange (n : Nat) (v : Bool) (s : State) : State :=
  if 16 ≤ n ∨ !s.shared n ∨ s.claimGate n = v ∨ s.gateWanted n ≠ v then s
  else
    let s := (s.setClaimGate n v).emit (.pin 1 n (b2n v))
    let s := s.setPin n { s.outPin n with opened := if v then s.grains + 1 else 0 }
    (s.evT 194 [(1, outBit n, .or), (1, b2n v, .keep), (1, if s.pair.named then 1 else 2, .keep)]).tally 8 5 1 0 0 n 1

def execOutGateChange (n : Nat) (v : Bool) (s : State) : Res := run (doOutGateChange n v) s

/-! ### Start and stop (R461, R464) -/

/-- An output that starts makes its first rising edge on its raster; its line setting is a free value (log entry 24). -/
def State.outStart (s : State) (n : Nat) : State :=
  let per := s.outPeriod n
  let s := s.setPin n { OutPin.idle with per := if n < 8 then per else 0, phase := if n < 8 then s.sreg .OUT_CLK_PHASE_PS n else 0 }
  let s := ((s.setOutState n 1).setLine n true).setClaimGate n (s.gateWanted n)
  if n < 8 then
    ((s.setReg .OUT_CLK_STATUS_SETTING n
      (Config.freeField s.freeCtr % (synPeriod (s.reg .OUT_CLK_CFG_SRC n) (s.reg .OUT_SYN1_FREQ) / outUnit))).fresh.showOfs n).outWave n
  else s

/-- Output `n` of a request is measured. -/
def AlignReq.got (q : AlignReq) (n r : Nat) : AlignReq :=
  if bit q.left n then { q with left := q.left - 2 ^ n, resid := tset 0 n r q.resid } else q

/-- An output stops: an alignment that waits for it does without (R469). -/
def State.outStop (s : State) (n : Nat) : State :=
  let s := ((s.setOutState n 0).setLine n false).setPin n OutPin.idle
  { s with outp := { s.outp with reqs := s.outp.reqs.map fun q => AlignReq.got q n 0x8000 } }

/-- Starts and stops follow EN; an output whose state agrees is left alone. -/
def State.outFollow (s : State) (n : Nat) : State :=
  match s.outEn n, s.outState n with
  | true, 0 => s.outStart n
  | false, 0 => s
  | false, _ => s.outStop n
  | true, _ => s

/-! ### Divider changes and alignment (R462, R463, R466-R470) -/

/-- From now to the end of the current period of CLKOUT `n`, in parts of a ps. -/
def State.periodLeft (s : State) (n : Nat) : Nat :=
  let x := s.outPin n
  if x.per = 0 then 0
  else ((x.phase * outUnit + x.ofs - (s.clk.acc : Int) * (1000 * 10 ^ 15 * 297)) % x.per).toNat

/-- Ticks from this boundary to t_c: the first boundary at or after the latest end of the outputs' periods plus 1,000 ns
(R462). -/
def State.ticksToLoad (s : State) (l : List Nat) : Nat :=
  cdiv (l.foldl (fun m n => max m (s.periodLeft n)) 0 + 10 ^ 6 * outUnit) (10 ^ 6 * outUnit)

/-- These outputs finish their periods, hold low and load at t_c. -/
def State.outLoadAt (s : State) (l : List Nat) (div : Bool) : State :=
  let t := s.clk.tickCount + s.ticksToLoad l
  l.foldl (fun (s : State) n => s.setPin n { s.outPin n with load := some t, divChange := (s.outPin n).divChange || div }) s

/-- A commit has changed the staged settings of these outputs (R462). -/
def State.outApplied (s : State) (l : List Nat) : State := s.outLoadAt (l.filter fun n => s.outState n != 0) true

/-- OUT_DIV_LOAD: at t_c the outputs load and restart on their rasters (R462); E196 reports divider changes. -/
def doOutDivLoad (s : State) : State :=
  let l := (List.range 8).filter fun n => match (s.outPin n).load with
    | some t => decide (t ≤ s.clk.tickCount ∧ s.clk.cycle = 0)
    | none => false
  let div := l.filter fun n => (s.outPin n).divChange
  let s := l.foldl (fun (s : State) n =>
    let x := s.outPin n
    let moved := toPs (nearRaster x.per (x.phase * outUnit - s.sreg .OUT_CLK_PHASE_PS n * outUnit + x.ofs))
    ((s.setPin n { x with
      ofs := 0, phase := s.sreg .OUT_CLK_PHASE_PS n, per := s.outPeriod n, load := none, divChange := false
      ready := s.outState n == 2, move := -moved }).showOfs n).outWave n) s
  if div = [] then s
  else s.ev 196 [(1, div.foldl (fun a n => a ||| outBit n) 0), (8, s.clk.tick)]

def execOutDivLoad (s : State) : Res := run doOutDivLoad s

/-- Output `n` begins its alignment (R468): a FRAME-mode CLKOUT and JUMP load at t_c, SLEW moves a ps at a time; a TIO
output's line is re-centred. -/
def State.alignStart (s : State) (n : Nat) (jump : Bool) : State :=
  let s := (s.setOutState n 2)
  if 8 ≤ n then s.setPin n { s.outPin n with ready := true, move := 0, want := false }
  else
    let s := s.setReg .OUT_CLK_STATUS_NEED_ALIGN n 0
    let x := s.outPin n
    if jump ∨ s.flag .OUT_CLK_CFG_MODE n ∨ !s.flag .OUT_CLK_CFG_ALIGN_MODE n then
      (s.setPin n { x with want := false, ready := false, slewing := false }).outLoadAt [n] false
    else
      let ph := s.sreg .OUT_CLK_PHASE_PS n
      (s.setPin n { x with
        want := false, slewing := true, ready := false, move := 0, phase := ph
        ofs := nearRaster x.per (x.ofs + (x.phase - ph) * outUnit) }).showOfs n

/-- A request begins at the boundary after its acceptance: outputs that do not run are not measured, outputs in bypass wait
for their return, the others align. -/
def State.reqStart (s : State) (r : AlignReq) : State × AlignReq :=
  let sel := (List.range 16).filter fun n => bit r.mask n
  let off := sel.filter fun n => s.outState n == 0
  let on := sel.filter fun n => s.outState n != 0
  let s := on.foldl (fun (s : State) n =>
    if s.outState n = 3 then s.setPin n { s.outPin n with want := true } else s.alignStart n r.jump) s
  (s, { r with
    started := true
    left := on.foldl (fun m n => m + 2 ^ n) 0
    resid := off.foldl (fun t n => tset 0 n 0x8000 t) r.resid })

/-- Line setting after a move of `k` ps, and how many periods were shortened or lengthened by one synthesiser period
(R466). -/
def walkSetting (set k : Int) (sp : Nat) : Nat × Nat := (((set + k) % max 1 sp).toNat, ((set + k) / max 1 sp).natAbs)

/-- One tick of a slew: at most ALIGN_RATE ps toward the raster (R468). -/
def State.slewTick (s : State) (n : Nat) : State :=
  let x := s.outPin n
  if !x.slewing ∨ x.ready then s
  else
    let left := toPs x.ofs
    let rate : Int := max 1 (s.reg .OUT_CFG_ALIGN_RATE)
    let k := max (-rate) (min rate (-left))
    let sp := synPeriod (s.reg .OUT_CLK_CFG_SRC n) (s.reg .OUT_SYN1_FREQ) / outUnit
    let w := walkSetting (s.reg .OUT_CLK_STATUS_SETTING n) k sp
    let ofs := x.ofs + k * outUnit
    let s := s.setPin n { x with ofs := ofs, move := x.move + k, ready := toPs ofs == 0 }
    ((s.setReg .OUT_CLK_STATUS_SETTING n w.1).tally 8 2 (if k < 0 then 1 else 2) 0 0 n w.2).showOfs n

/-- ALIGN_MOVE_DONE: the move has ended; the residual is measured in the following tick (R469). -/
def doAlignMoveDone (n resid : Nat) (s : State) : State :=
  let x := s.outPin n
  if 16 ≤ n ∨ s.outState n ≠ 2 ∨ !x.ready then s
  else (s.setOutState n 1).setPin n { x with slewing := false, ready := false, meas := some (s.clk.tickCount + 2, resid % 65536) }

def execAlignMoveDone (n resid : Nat) (s : State) : Res := run (doAlignMoveDone n resid) s

/-- Measurements whose tick has gone by are written (R469, E193). -/
def State.measured (s : State) (n : Nat) : State :=
  match (s.outPin n).meas with
  | none => s
  | some (t, r) =>
    if s.clk.tickCount < t then s
    else
      let m := (s.outPin n).move
      let s := (s.setResid n r).setPin n { s.outPin n with meas := none, move := 0 }
      let s := { s with outp := { s.outp with reqs := s.outp.reqs.map fun q => AlignReq.got q n r } }
      (s.ev 193 [(2, n), (4, unsgn 32 (sgn 16 r)), (4, unsgn 32 m)]).tally 8 1 1 0 0 n 1

/-- Residuals of the 16 outputs in MASK bit order, 16 bits each; an output that was not selected has none (R143). -/
def residuals (r : AlignReq) : List Nat :=
  (List.range 16).flatMap fun n => le 2 (if bit r.mask n then tget 0 r.resid n else 0)

/-- Requests whose outputs are all measured complete (R469). -/
def State.reqsDone (s : State) : State :=
  let done := s.outp.reqs.filter fun r => r.started && r.left == 0
  done.foldl (fun (s : State) r => match r.cmd with
    | some id => s.complete id stOK (residuals r)
    | none => s) { s with outp := { s.outp with reqs := s.outp.reqs.filter fun r => !(r.started && r.left == 0) } }

/-- OUT_ALIGN (R468, R470). -/
def specOutAlign (mask : Nat) : Spec :=
  { opc := 0x41
    chk := fun s =>
      { badField := decide (2 ^ 16 ≤ mask)
        own := if (s.outp.reqs.any fun r => (if r.started then r.left else r.mask) &&& mask != 0) ||
            (List.range 16).any (fun n => bit mask n && s.outState n == 2) then some stNOROOM else none }
    work := fun id s => { s with
      outp := { s.outp with reqs := s.outp.reqs ++ [⟨some id, mask, false, false, 0, []⟩] }
      pair := { s.pair with aligned := s.pair.aligned ||| mask } } }

def execOutAlign (h : Hdr) (mask : Nat) (s : State) : Res := s.issue h (.outAlign h mask) (specOutAlign mask)

/-! ### Bypass (R472, R473) -/

/-- SYNTH_LOCK_LOSS: these outputs enter BYPASS; cause 1 synthesiser, 2 aligner line. -/
def doSynthLockLoss (mask : Nat) (line : Bool) (s : State) : State :=
  let c := if line then 2 else 1
  ((List.range 16).filter fun n => bit mask n && s.outState n != 0 && s.outState n != 3).foldl (fun (s : State) n =>
    let x := s.outPin n
    let s := s.setPin n { x with want := x.want || s.outState n == 2, slewing := false, ready := false, load := none, cause := c, meas := x.meas, since := s.clk.tickCount }
    let s := s.setOutState n 3
    let s := if line then s.setLine n false else s
    (s.evT 192 [(1, outBit n, .or), (1, c, .keep), (1, 1, .keep)]).tally 8 3 1 0 0 n 1) s

def execSynthLockLoss (mask : Nat) (line : Bool) (s : State) : Res := run (doSynthLockLoss mask line) s

/-- BYPASS_RETURN: the source has held lock for RET_MS; with AUTO_RET, or for an alignment that waits, the output returns,
at a phase that is a free value (R470, R473). -/
def doBypassReturn (n : Nat) (s : State) : State :=
  let x := s.outPin n
  if 16 ≤ n ∨ s.outState n ≠ 3 ∨ (!x.want ∧ n < 8 ∧ !s.flag .OUT_CLK_CFG_AUTO_RET n) ∨
      s.clk.tickCount < x.since + 1000 * s.reg .OUT_CFG_RET_MS then s
  else
    let per := if n < 8 then s.outPeriod n else 0
    let s := (s.setPin n { x with per := per, ofs := nearRaster per (Config.freePhase s.freeCtr), divChange := false }).fresh
    let s := ((s.setOutState n 1).setLine n true).showOfs n
    let s := if n < 8 then s.setReg .OUT_CLK_STATUS_NEED_ALIGN n 1 else s
    let s := s.evT 192 [(1, outBit n, .or), (1, x.cause, .keep), (1, 2, .keep)]
    if x.want then s.alignStart n false else s

def execBypassReturn (n : Nat) (s : State) : Res := run (doBypassReturn n) s

/-! ### The boundary -/

/-- What the last tick moved time by against the outputs' own count: TAI gone by less `cycles` CORE cycles, and for SYN1
what the two DPLLs' control values differ by (R467, R471). -/
def State.outDrift (s : State) (cycles : Nat) (syn1 : Bool) : Int :=
  let tai : Int := ((s.clk.acc : Int) - s.outp.accAt) * (1000 * 10 ^ 15 * 297)
  let own : Int := (cycles * 625 * outUnit : Nat)
  let extra : Int := ((s.dpll 0).ctl - (s.dpll 1).ctl) * (cycles * 625 * (2 ^ 32 * 297) : Nat)
  if syn1 then tai - own + extra else tai - own

/-- OUT's work at a boundary that ends a tick of `cycles` CORE cycles. -/
def State.outTick (s : State) (cycles : Nat) : State :=
  let s := (List.range 16).foldl (fun (s : State) n =>
    let s := if n < 8 then s else s.outFollow n
    let x := s.outPin n
    if n < 8 ∧ (s.outState n = 1 ∨ s.outState n = 2) then
      (s.setPin n { x with ofs := nearRaster x.per (x.ofs + s.outDrift cycles (s.flag .OUT_CLK_CFG_SRC n)) }).showOfs n
    else s.tally 8 4 1 0 0 n (b2n (s.outState n == 3))) s
  let s := (List.range 16).foldl (fun (s : State) n => (s.slewTick n).measured n) s
  let s := s.reqsDone
  let s := s.outp.reqs.foldl (fun (s : State) r =>
    if r.started then s
    else
      let q := s.reqStart r
      { q.1 with outp := { q.1.outp with reqs := q.1.outp.reqs.map fun x => if x = r then q.2 else x } }) s
  let s := s.reqsDone
  { s with outp := { s.outp with accAt := s.clk.acc } }

/-- R476: an aligner is re-trimmed at a calibration check; its residual is recorded with the temperature (E195). -/
def State.outCal (s : State) (n : Nat) (temp : Int) (resid : Nat) : State :=
  let s := s.setRegs [(.OUT_CLK_CAL_TEMP, n, unsgn 16 temp), (.OUT_CLK_CAL_RESID, n, resid), (.OUT_CLK_STATUS_RESID, n, resid)]
  let s := s.calMark 3 n temp
  (s.ev 195 [(2, n), (4, unsgn 32 (sgn 16 resid)), (2, unsgn 16 temp)]).tally 8 6 1 0 0 n 1

/-! ### The staged set (R460, R463, R59) -/

/-- The staged fields of an output differ from those in force. -/
def State.outChanged (s : State) (n : Nat) : Bool :=
  [Fld.OUT_CLK_CFG_MODE, .OUT_CLK_CFG_SRC, .OUT_CLK_CFG_DIV, .OUT_CLK_FDIV_FDIV, .OUT_CLK_WIDTH_WIDTH].any fun f =>
    s.pendReg f n != s.reg f n

/-- OUT refuses its staged set: a changed output is ALIGNING, or a value lies out of its range. -/
def State.outRefuses (s : State) : Bool :=
  (List.range 8).any fun n => s.outChanged n &&
    (s.outState n == 2 || decide (s.pendReg .OUT_CLK_CFG_DIV n < 8) || decide (s.pendReg .OUT_CLK_FDIV_FDIV n < 2) ||
      decide (s.pendReg .OUT_CLK_FDIV_FDIV n ≤ s.pendReg .OUT_CLK_WIDTH_WIDTH n))

end Machine
end Sys2Proof
end

