-- ==== Sys2Proof/Machine/Start.lean ====
section
/-!
DEFINITION. Resets, the start and its failures, playa mode, and the firmware slots (R582-R597, R607, R608, R150).
-/
namespace Sys2Proof
namespace Machine

/-! ### What each reset keeps (R585) -/

/-- Registers of the always-on island: Cairn's, the start reason and the view of the flash header; and the straps, which only a
release of internal reset samples (R646). -/
def aonField (f : Fld) : Bool :=
  f ∈ [.OBS_CAIRN_CTRL_EN, .OBS_CAIRN_CFG_INTERVAL, .OBS_CAIRN_STATUS_MIRROR_BUSY, .OBS_CAIRN_STATUS_MIRROR_ERR,
    .OBS_CAIRN_STATUS_RESTORE_BAD, .OBS_CAIRN_STATUS_LAST_COUNT, .OBS_CAIRN_STATUS_FIRST_COUNT, .OBS_CAIRN_NEXT_SEQ_SEQ,
    .OBS_CAIRN_FIRST_SEQ_SEQ, .OBS_CAIRN_BOOT_BOOT, .SYS_START_REASON_COUNT, .SYS_START_REASON_SWITCHED,
    .SYS_START_REASON_FALLBACK, .SYS_START_REASON_SLOT, .SYS_START_REASON_FAIL, .SYS_START_REASON_CAUSE,
    .SYS_BOOT_SELECT, .SYS_FW_VER_A_VERSION, .SYS_FW_VER_B_VERSION, .SYS_STRAPS_UNIT_ID, .SYS_STRAPS_MGMT_SEL]

/-- Registers a warm reset keeps beside those (R585): TME_INCR, the slew and the step record, the MBX bindings and LOCKED,
and the sticky fields (R7). -/
def warmField (f : Fld) : Bool :=
  aonField f || f ∈ [.TME_INCR_INCR, .TME_SLEW_AMT_AMOUNT, .TME_SLEW_RATE_PPB, .TME_SLEW_LEFT_LEFT, .TME_STATUS_SLEWING,
    .TME_STATUS_STEPPED, .TME_STATUS_STEPS, .TME_STEP_LAST_GRAINS, .TME_STEP_TICK_TICK, .MBX_CTRL_LOCKED,
    .MBX_CH_BIND_VALID, .MBX_CH_BIND_SENDER, .MBX_CH_BIND_RECEIVER, .MBX_CH_BIND_REMOTE, .LN_TABLE_STATUS_CRC_ERR]

/-- The values of the kept fields. -/
def State.keepRegs (s : State) (keep : List Fld) : Tab Nat := s.regs.filter fun x => keep.any fun f => x.1 / 8192 == f.ctorIdx

def aonFields : List Fld := (fieldsOf 0x0 ++ fieldsOf 0x300000).filter aonField
def warmFields : List Fld := (fieldsOf 0x0 ++ fieldsOf 0x200000 ++ fieldsOf 0x300000 ++ fieldsOf 0x500000 ++ fieldsOf 0xA00000).filter warmField

/-- Cairn records that wait for a check value. -/
def State.cairnJobs (s : State) : List (List Nat × Bool) :=
  let jobs := s.chk.running.filterMap (fun (x : Nat × Option Job) => x.2) ++ s.chk.queue.flatMap fun (x : Nat × List Job) => x.2
  jobs.filterMap fun (j : Job) => match j.use with | .cairn r f => some (r, f) | _ => none

/-- Cairn's gathering state survives: records that wait for their check values are queued again (R572). -/
def State.requeueCairn (s : State) (l : List (List Nat × Bool)) : State :=
  l.foldl (fun (s : State) x => s.queueJob (s.reg .CHK_CFG_CAIRN_UNIT) 3 1 (.cairn x.1 x.2)) s

/-- Cold reset: everything but the always-on island, the flash, and what holds the reset (R585). The transcript and the
counter of free values are the model's own and go on. -/
def State.coldClear (s : State) : State :=
  let r := State.reset
  ({ r with
    pending := s.pending, out := s.out, freeCtr := s.freeCtr, regs := s.keepRegs aonFields
    sys := { r.sys with
      rails := s.sys.rails, pinLow := s.sys.pinLow, held := s.sys.held, thermHold := s.sys.thermHold
      recCopy := s.sys.recCopy, hot := s.sys.hot
      slotA := s.sys.slotA, slotB := s.sys.slotB }
    cairn := s.cairn } : State).requeueCairn s.cairnJobs

/-- Each DPLL enters HOLDOVER with f_hold equal to its control value, and keeps it and its history (R585). -/
def State.warmDpll (s : State) (d : Nat) (old : Dpll) : State :=
  let s := s.setDpll d { Dpll.start with ctl := old.ctl, target := old.ctl, hist := old.hist }
  let f := unsgn 32 (coarse old.ctl)
  (s.setRegs [(.REF_DPLL_STATUS_SELECTED, d, 15), (.REF_DPLL_FREQ_PPB, d, f), (.REF_DPLL_HOLD_PPB, d, f)]).setDpllState d 4

/-- Warm reset: what R585 keeps beside the always-on island. Cairn closes its interval early at the next boundary (R569). -/
def State.warmClear (s : State) : State :=
  let r := State.reset
  let t : State := { r with
    pending := s.pending, out := s.out, freeCtr := s.freeCtr, clk := s.clk, regs := s.keepRegs warmFields
    sys := { r.sys with
      rails := s.sys.rails, slotA := s.sys.slotA, slotB := s.sys.slotB, warm := true, xo := s.sys.xo, recCopy := s.sys.recCopy, hot := s.sys.hot }
    hst := { r.hst with numVf := s.hst.numVf, linkRate := s.hst.linkRate, linkWidth := s.hst.linkWidth }
    tme := { r.tme with
      slewLeft := s.tme.slewLeft, touched := s.tme.touched, steps := s.tme.steps, lastStep := s.tme.lastStep }
    ref := { r.ref with sec := s.ref.sec, xo := s.ref.xo, gateAt := s.ref.gateAt }
    outp := { r.outp with accAt := s.outp.accAt }
    cairn := { s.cairn with shortDue := s.cairn.shortDue || s.cairn.opened } }
  ((t.warmDpll 0 (s.dpll 0)).warmDpll 1 (s.dpll 1)).requeueCairn s.cairnJobs

/-! ### The quiet state (R597) -/

/-- Every pin class is quiet: internal reset is held, the start has failed, or a warm reset is under way; PCIe stays up
through the last. -/
def State.pinsQuiet (s : State) : Bool := s.sys.held || s.reg .SYS_STATUS_START == 4 || (s.sys.warm && !s.flag .SYS_STATUS_READY)

/-- The lanes, CLKOUT, TIO and CLAIM_TX are quiet: in playa mode too. -/
def State.drivesQuiet (s : State) : Bool := s.pinsQuiet || s.flag .SYS_STATUS_PLAYA

/-- The pin classes that are quiet, as a bitmap in the order of R597: 0 lane transmitters, 1 lane receivers, 2 PCIe, 3 CLKOUT and
TIO, 4 CLAIM_TX, 5 REFIN and XTAL_IN, 6 LVCMOS, 7 I3C and SMBus. PCIe stays trained through a warm reset; playa mode keeps the
lanes, CLKOUT, TIO and CLAIM_TX quiet. -/
def State.quietPins (s : State) : Nat :=
  if s.sys.held ∨ s.reg .SYS_STATUS_START = 4 then 0xFF
  else if s.pinsQuiet then 0xFB
  else if s.drivesQuiet then 0x1B
  else 0

/-- What the pins show: the quiet classes, as pin 0 of group 0. -/
def State.showPins (s : State) : State := s.emit (.pin 0 0 s.quietPins)

/-! ### The start (R591-R596) -/

/-- SYS_START_REASON as a word. -/
def State.reasonWord (s : State) : Nat :=
  s.reg .SYS_START_REASON_COUNT * 2 ^ 20 + s.reg .SYS_START_REASON_SWITCHED * 2 ^ 19 + s.reg .SYS_START_REASON_FALLBACK * 2 ^ 18 +
    s.reg .SYS_START_REASON_SLOT * 2 ^ 16 + s.reg .SYS_START_REASON_FAIL * 2 ^ 8 + s.reg .SYS_START_REASON_CAUSE

/-- The detail of E253: SYS_START_REASON, the slot versions, the identity refused (R608). -/
def State.startDetail (s : State) (who : Nat) : List (Nat × Nat) :=
  [(4, s.reasonWord), (4, s.reg .SYS_FW_VER_A_VERSION), (4, s.reg .SYS_FW_VER_B_VERSION), (2, who)]

def State.startState (s : State) : Nat := s.reg .SYS_STATUS_START

/-- The start record of the flash is written: the failed-start count and BOOT, in its two copies by turns (R589, R595). -/
def State.writeRecord (s : State) : State :=
  ({ s with sys := { s.sys with recCopy := 1 - s.sys.recCopy } } : State).emit
    (.flash 0 (0x2000 + 0x1000 * s.sys.recCopy) (le 2 (s.reg .SYS_START_REASON_COUNT) ++ le 2 s.cairn.boot))

/-- The failed-start count, in the island and in the start record (R595). -/
def State.setCount (s : State) (n : Nat) : State := (s.setReg .SYS_START_REASON_COUNT 0 n).writeRecord

/-- Playa mode (R596). -/
def State.enterPlaya (s : State) : State :=
  let s := s.setRegs [(.SYS_STATUS_START, 0, 5), (.SYS_STATUS_PLAYA, 0, 1), (.SYS_STATUS_READY, 0, 0)]
  let s := { s with sys := { s.sys with warm := false } }
  s.cairnStart.showPins

/-- The start enters a state at the present tick (R591, R593). -/
def State.stateBegins (s : State) : State := { s with sys := { s.sys with stateAt := s.clk.tickCount } }

/-- A start, and its first state, begin at the present tick. -/
def State.startBegins (s : State) : State :=
  { s with sys := { s.sys with startAt := s.clk.tickCount, stateAt := s.clk.tickCount } }

/-- A start begins in ROM with a cause (R591, R592); with three failed starts counted the part goes back to playa (R596). -/
def State.beginStart (s : State) (cause : Nat) : State :=
  let s := s.setRegs [(.SYS_STATUS_READY, 0, 0), (.SYS_STATUS_PLAYA, 0, 0), (.SYS_START_REASON_SWITCHED, 0, 0), (.SYS_START_REASON_FALLBACK, 0, 0)]
  if 3 ≤ s.reg .SYS_START_REASON_COUNT then (s.setReg .SYS_START_REASON_CAUSE 0 9).enterPlaya
  else (s.setRegs [(.SYS_STATUS_START, 0, 0), (.SYS_START_REASON_CAUSE, 0, cause)]).startBegins.showPins

/-- The start fails (R591, R593, R595): the count is raised and written, a START record is made; at 3, playa mode. -/
def State.failStart (s : State) (fail : Nat) : State :=
  let s := (s.setRegs [(.SYS_STATUS_START, 0, 4), (.SYS_STATUS_READY, 0, 0), (.SYS_START_REASON_FAIL, 0, fail)]).stateBegins
  let s := s.setCount (min 15 (s.reg .SYS_START_REASON_COUNT + 1))
  if 3 ≤ s.reg .SYS_START_REASON_COUNT then s.enterPlaya else s.cairnStart.showPins

/-- A start is under way. -/
def State.starting (s : State) : Bool := decide (s.startState ≤ 2) && !s.sys.held

/-! ### Power and reset pins (R583, R585) -/

/-- Cairn's first area comes back from its mirror (R572, R578); the check value is that of the unit's reset settings. -/
def restoreSlot (s : State) (r : List Nat) : List Nat × Bool :=
  let ok := ofLE (slice r 120 4) == s.chkValue (s.reg .CHK_CFG_CAIRN_UNIT) (r.take 120) % 2 ^ 32
  (if ok then r else r.set 4 0, !ok)

/-- POWER_ON: VDD_AON is applied; everything is reset but what the flash holds, BOOT counts, and internal reset is held
until the rails are good (R583, R585, R572). -/
def doPowerOn (s : State) : State :=
  let r := State.reset
  let boot := (s.cairn.boot + 1) % 65536
  let rest := s.cairn.mirror.map fun (x : Nat × List Nat) => restoreSlot r x.2
  let first := rest.map Prod.fst
  let seqs := (rest.filter fun x => !x.2).map fun x => ofLE (slice x.1 0 4)
  let next := match seqs with | [] => 0 | a :: t => t.foldl max a + 1
  let t : State := { r with
    pending := s.pending, out := s.out, freeCtr := s.freeCtr
    sys := { r.sys with
      rails := false, held := true, recCopy := s.sys.recCopy
      slotA := s.sys.slotA, slotB := s.sys.slotB }
    cairn := { r.cairn with first := first, mirror := s.cairn.mirror, boot := boot } }
  (t.setRegs [(.OBS_CAIRN_BOOT_BOOT, 0, boot), (.OBS_CAIRN_NEXT_SEQ_SEQ, 0, next), (.OBS_CAIRN_STATUS_FIRST_COUNT, 0, first.length),
    (.OBS_CAIRN_STATUS_RESTORE_BAD, 0, b2n (rest.any fun x => x.2)), (.OBS_CAIRN_FIRST_SEQ_SEQ, 0, ofLE (slice (first.headD []) 0 4)),
    (.SYS_START_REASON_COUNT, 0, s.reg .SYS_START_REASON_COUNT), (.SYS_BOOT_SELECT, 0, s.reg .SYS_BOOT_SELECT)]).writeRecord.showPins

def execPowerOn (s : State) : Res := runReset doPowerOn s

/-- A cold reset with a cause, held or not. -/
def State.coldReset (s : State) (cause : Nat) (hold : Bool) : State :=
  let s := s.coldClear
  if hold then ({ (s.setReg .SYS_START_REASON_CAUSE 0 cause) with sys := { s.sys with held := true, hot := [] } } : State).showPins
  else s.beginStart cause

/-- RAIL_FAULT: a rail other than VDD_AON leaves its range; internal reset is held (R583). -/
def doRailFault (s : State) : State :=
  ({ s with sys := { s.sys with rails := false } } : State).coldReset 1 true

def execRailFault (s : State) : Res := runReset doRailFault s

/-- RESET_PIN: RESET_N has been low for 10 µs (R585). The row stands for the whole pulse: no clock of the part need run (log entry 174). -/
def doResetPin (s : State) : State :=
  ({ s with sys := { s.sys with pinLow := true } } : State).coldReset 2 true

def execResetPin (s : State) : Res := runReset doResetPin s

/-- INTERNAL_RESET_RELEASE: the rails have been good and RESET_N high for 2 ms: the straps are sampled, the VDD_CORE target is
published, and a start begins (R583, R584, R646). A thermal trip still holds the reset (R603). -/
def doInternalResetRelease (s : State) : State :=
  if !s.sys.held then s
  else
    let s := s.setRegs [(.SYS_STRAPS_UNIT_ID, 0, Config.strapUnit % 2), (.SYS_STRAPS_MGMT_SEL, 0, Config.strapMgmt % 2)]
    let s := { s with sys := { s.sys with rails := true, pinLow := false } }
    if s.sys.thermHold then s
    else
      let mv := 700 + Config.avsTarget % 101
      let s := ({ s with sys := { s.sys with held := false } } : State).setReg .SYS_AVS_TARGET_MV 0 mv
      (s.emit (.pin 3 0 mv)).beginStart (s.reg .SYS_START_REASON_CAUSE)

def execInternalResetRelease (s : State) : Res := runReset doInternalResetRelease s

/-- A sensor has read 115 °C or more at boundaries 1 ms apart and at all between them (R603; log entry 195). -/
def State.tooHot (s : State) : Bool := (List.range 16).any fun n => decide (1000 < tget 0 s.sys.hot n)

/-- THERMAL_TRIP: a sensor has read 115 °C or more for 1 ms: an always-on monitor trips a cold reset and holds it (R603). -/
def doThermalTrip (s : State) : State :=
  if s.tooHot then ({ s with sys := { s.sys with thermHold := true } } : State).coldReset 6 true else s

def execThermalTrip (s : State) : Res := runReset doThermalTrip s

/-- THERMAL_HOLD_RELEASE: every sensor reads below 95 °C; the next start carries cause THERMAL (R603). While the trip holds the
reset no boundary comes, so the row itself says that they do. -/
def doThermalHoldRelease (s : State) : State :=
  if !s.sys.thermHold then s
  else
    let s := { s with sys := { s.sys with thermHold := false } }
    if s.sys.rails ∧ !s.sys.pinLow then ({ s with sys := { s.sys with held := false } } : State).beginStart 6 else s

def execThermalHoldRelease (s : State) : Res := runReset doThermalHoldRelease s

/-! ### Resets that software and the watchdogs cause (R585-R588, R607) -/

/-- A warm reset with a cause; a more thorough one in progress wins (R586). -/
def State.warmReset (s : State) (cause : Nat) : State := if s.sys.held then s else s.warmClear.beginStart cause

/-- Identities that may write SYS_RESET and SYS_START (R607). -/
def startWriter (who : Nat) : Bool := who == 0 || who == 16 || who == 21

/-- A write refused raises E253 (R607). -/
def State.startRefused (s : State) (who : Nat) : State := s.ev 253 (s.startDetail who)

/-- SYS_RESET with GO and KIND 0. -/
def doSysResetWarm (who : Nat) (s : State) : State := if startWriter who then s.warmReset 4 else s.startRefused who
def execSysResetWarm (who : Nat) (s : State) : Res := runReset (doSysResetWarm who) s

/-- SYS_RESET with GO and KIND 1. -/
def doSysResetCold (who : Nat) (s : State) : State :=
  if !startWriter who then s.startRefused who else if s.sys.held then s else s.coldReset 3 false
def execSysResetCold (who : Nat) (s : State) : Res := runReset (doSysResetCold who) s

/-- START_CLEAR (R595). -/
def doStartClear (who : Nat) (s : State) : State := if startWriter who then s.setCount 0 else s.startRefused who
def execStartClear (who : Nat) (s : State) : Res := run (doStartClear who) s

/-- Fields of a block's list, all back at their reset values, but for those of `keep`. -/
def State.clearBlock (s : State) (l : List Fld) (keep : Fld → Bool) : State :=
  let ids := (l.filter fun f => !keep f).map Fld.ctorIdx
  { s with regs := s.regs.filter fun x => !ids.contains (x.1 / 8192), pend := s.pend.filter fun x => !ids.contains (x.1 / 8192) }

/-- The counters of unit `u` read 0 and stop (R550). -/
def State.clearUnit (s : State) (u : Nat) : State :=
  let z (f : Fld) : List (Fld × Nat × Nat) := (List.range 8).map fun k => (f, u * 8 + k, 0)
  let s := s.setRegs ([(.OBS_U_CYC_CYCLES, u, 0), (.OBS_U_OVF_OVF, u, 0)] ++ z .OBS_U_CNT_VALUE ++ z .OBS_U_SEL_ALL ++
    z .OBS_U_SEL_KIND ++ z .OBS_U_SEL_ITEM ++ z .OBS_U_SEL_SUB ++ z .OBS_U_IDX_IDX)
  { s with obs := { s.obs with cycFrom := tset 0 u s.clk.cycle s.obs.cycFrom } }

/-- CHK is reset: its jobs are gone, a CHK_RUN among them ends as failed, and Cairn's records are queued again. -/
def State.resetChk (s : State) : State :=
  let keep := s.cairnJobs
  let runs := s.hst.ops.filter fun x => x.2.live && x.2.opcode == 0x60
  let s := runs.foldl (fun (s : State) x => s.endOp x.1 stHWFAULT (le 8 0 ++ le 4 0 ++ [x.2.args.getD 0 0])) s
  let s : State := { s with chk := Chk.start, spe := { s.spe with audit := [] } }
  ((s.clearBlock (fieldsOf 0x400000) fun _ => false).clearUnit 4).requeueCairn keep

/-- MBX is reset: it keeps its bindings and LOCKED, frees every lock and clears every mark (R539, R585). -/
def State.resetMbx (s : State) : State :=
  let keep (f : Fld) : Bool := f ∈ [.MBX_CTRL_LOCKED, .MBX_CH_BIND_VALID, .MBX_CH_BIND_SENDER, .MBX_CH_BIND_RECEIVER, .MBX_CH_BIND_REMOTE]
  ({ (s.clearBlock (fieldsOf 0x200000) keep) with mbx := Mbx.start } : State).clearUnit 2

/-- OBS is reset: the unit counters and Cairn stay (R550, R572). -/
def State.resetObs (s : State) : State :=
  let keep (f : Fld) : Bool := aonField f || f ∈ [.OBS_U_CYC_CYCLES, .OBS_U_CNT_VALUE, .OBS_U_SEL_ALL, .OBS_U_SEL_KIND,
    .OBS_U_SEL_ITEM, .OBS_U_SEL_SUB, .OBS_U_IDX_IDX, .OBS_U_OVF_OVF]
  let s : State := { (s.clearBlock (fieldsOf 0x300000) keep) with obs := { Obs.start with
    selChanged := s.obs.selChanged, selAt := s.obs.selAt, cycFrom := s.obs.cycFrom } }
  { s with
    swc := { s.swc with frames := s.swc.frames.map fun (x : Nat × Frame) => (x.1, { x.2 with samp := none }) }
    hst := { s.hst with
      cmds := s.hst.cmds.map fun (c : Cmd) => { c with samp := none }, finals := s.hst.finals.map fun (c : Cmd) => { c with samp := none }
      ops := s.hst.ops.map fun (x : Nat × LongOp) => (x.1, { x.2 with samp := none }) } }

/-- The read latches and write holding registers of block `b` are empty (R5). -/
def State.dropHalves (s : State) (b : Nat) : State :=
  { s with
    hiLatch := s.hiLatch.filter fun (x : Nat × Option (Nat × Nat)) => x.1 / 8 != b
    loHold := s.loHold.filter fun (x : Nat × Option (Nat × Nat)) => x.1 / 8 != b }

/-- SYS_BLOCK_RESET: bit 0 CHK, bit 1 MBX, bit 2 OBS (R585). -/
def doSysBlockReset (mask : Nat) (s : State) : State :=
  let s := if bit mask 0 then s.resetChk.dropHalves 4 else s
  let s := if bit mask 1 then s.resetMbx.dropHalves 2 else s
  if bit mask 2 then s.resetObs.dropHalves 3 else s

def execSysBlockReset (mask : Nat) (s : State) : Res := run (doSysBlockReset mask) s

/-- WATCHDOG_EXPIRY of core `c` (R587). -/
def doWatchdogExpiry (c : Nat) (s : State) : State :=
  if 4 ≤ c then s
  else if s.starting then s.failStart 5
  else if s.startState ≠ 3 then s
  else
    let n := s.clk.tickCount
    if s.sys.watchAt ≠ 0 ∧ n + 1 - s.sys.watchAt ≤ 60000000 then s.warmReset 5
    else ({ s with sys := { s.sys with watchAt := n + 1 } } : State).abandon (16 + c)

def execWatchdogExpiry (c : Nat) (s : State) : Res := runReset (doWatchdogExpiry c) s

/-- XO_LOSS: after READY no XO edge has been seen for 1 µs (R588). The clocks of the part come from the XO, so the row stands for
the whole span. -/
def doXoLoss (s : State) : State :=
  if s.startState ≠ 3 then s
  else
    -- the interval meter stops, and its set ends FAILED (R424)
    let s := if s.itmBusy then s.itmEnd 2 else s
    ({ s with sys := { s.sys with xo := false } } : State).warmReset 7

def execXoLoss (s : State) : Res := runReset doXoLoss s

/-! ### The states of a start (R591) -/

/-- ROM_DONE: the XO is detected, and the flash header and the slots' headers are read: SELECT and the VERSIONs, none where
unbootable. -/
def doRomDone (sel : Nat) (a b : Option Nat) (s : State) : State :=
  if s.startState ≠ 0 ∨ s.sys.held then s
  else
    let s := s.setRegs [(.SYS_STATUS_START, 0, 1), (.SYS_BOOT_SELECT, 0, sel), (.SYS_FW_VER_A_VERSION, 0, a.getD 0),
      (.SYS_FW_VER_B_VERSION, 0, b.getD 0)]
    { s with sys := { s.sys with xo := true, slotA := a, slotB := b } }

def execRomDone (sel : Nat) (a b : Option Nat) (s : State) : Res := run (doRomDone sel a b) s

/-- The state of the start has lasted `n` ticks, or µs (log entry 174). -/
def State.stateLasted (s : State) (n : Nat) : Bool := decide (s.sys.stateAt + n ≤ s.clk.tickCount)

/-- XO_DETECT_TIMEOUT: 10 ms in ROM without the XO. -/
def doXoDetectTimeout (s : State) : State := if s.startState = 0 ∧ !s.sys.held ∧ s.stateLasted 10000 then s.failStart 4 else s
def execXoDetectTimeout (s : State) : Res := run doXoDetectTimeout s

/-- VERSION in slot 0 (A) or 1 (B). -/
def State.slotVersion (s : State) (k : Nat) : Option Nat := if k = 0 then s.sys.slotA else s.sys.slotB

/-- The image is loaded, and INIT begins; the interval meter calibrates, as after every reset (R424, R591, R604). -/
def State.bootSlot (s : State) (k : Nat) : State :=
  (s.setRegs [(.SYS_STATUS_START, 0, 2), (.SYS_START_REASON_SLOT, 0, k), (.SYS_FW_RUN_VERSION, 0, (s.slotVersion k).getD 0)]).stateBegins.itmCalRequest 1

/-- VERIFY_DONE: whether the signature of each slot's image verifies. The slot of R594 is tried, then the other. -/
def doVerifyDone (okA okB : Bool) (s : State) : State :=
  if s.startState ≠ 1 ∨ s.sys.held then s
  else
    let sel := s.reg .SYS_BOOT_SELECT
    let first := if s.reg .SYS_START_REASON_COUNT = 2 then 1 - sel else sel
    let passes (k : Nat) : Bool := (s.slotVersion k).isSome && (if k = 0 then okA else okB)
    if passes first then s.bootSlot first
    else if passes (1 - first) then
      (s.bootSlot (1 - first)).setReg .SYS_START_REASON_FALLBACK 0 (b2n (first == sel))
    else (s.setReg .SYS_START_REASON_SLOT 0 3).failStart 1

def execVerifyDone (okA okB : Bool) (s : State) : Res := run (doVerifyDone okA okB) s

/-- HBM_TRAINING_DONE in INIT: on success the Oasis is filled (R270). -/
def doHbmTrainingDone (ok : Bool) (s : State) : State :=
  if s.startState ≠ 2 ∨ s.sys.held then s
  else if !ok then s.failStart 3
  else
    let s := s.setReg .CIS_STATUS_TRAINED 0 1
    s.oasFill (s.reg .OAS_TIMING_CELLS)

def execHbmTrainingDone (ok : Bool) (s : State) : Res := run (doHbmTrainingDone ok) s

/-- DPLL0_XO_LOCK_TIMEOUT: the synthesiser has not locked in 5 ms of INIT; after a warm reset it is not locked anew
(R592, R593). -/
def doDpll0XoLockTimeout (s : State) : State :=
  if s.startState = 2 ∧ !s.sys.held ∧ !s.sys.warm ∧ s.stateLasted 5000 then s.failStart 4 else s
def execDpll0XoLockTimeout (s : State) : Res := run doDpll0XoLockTimeout s

/-- NOT_READY_TIMEOUT: READY is not set 2 s after the reset's release, or the end of a warm reset (R591, R592). -/
def doNotReadyTimeout (s : State) : State :=
  if s.starting ∧ s.sys.startAt + 2000000 ≤ s.clk.tickCount then s.failStart 2 else s
def execNotReadyTimeout (s : State) : Res := run doNotReadyTimeout s

/-- Sender, receiver and partner channel of channels 0 to 11 (R525). -/
def startBindings : List (Nat × Nat × Nat) :=
  [(0, 16, 0), (0, 17, 0), (0, 18, 0), (0, 19, 0), (16, 0, 0), (17, 0, 0), (18, 0, 0), (19, 0, 0), (18, 20, 9), (20, 18, 0),
    (21, 16, 0), (16, 21, 0)]

/-- Firmware on C0 binds channels 0 to 11, those that are not bound so already (R525). -/
def State.bindStart (s : State) : State :=
  (List.range 12).foldl (fun (s : State) n =>
    let b := startBindings.getD n (0, 0, 0)
    if s.bound n ∧ s.sender n = b.1 ∧ s.receiver n = b.2.1 ∧ s.reg .MBX_CH_BIND_REMOTE n = b.2.2 then s
    else doChannelBind 16 n true b.1 b.2.1 b.2.2 s) s

/-- FIRMWARE_READY: C0 binds the first channels (R525) and sets READY (R591). SELECT follows the slot that booted (R594), E253 is kept for the PF's event ring
(R608), the aligners count as trimmed (R604), and after a warm reset E247 follows for every function (R585). -/
def doFirmwareReady (s : State) : State :=
  if s.startState ≠ 2 ∨ s.sys.held then s
  else
    let s := s.bindStart
    let slot := s.reg .SYS_START_REASON_SLOT
    let moved := slot != s.reg .SYS_BOOT_SELECT
    let s := if moved then
        (s.setRegs [(.SYS_BOOT_SELECT, 0, slot), (.SYS_START_REASON_SWITCHED, 0, 1)]).emit (.flash 0 8 (le 4 slot))
      else s
    let s := s.setRegs [(.SYS_STATUS_START, 0, 3), (.SYS_STATUS_READY, 0, 1)]
    let told := moved || s.flag .SYS_START_REASON_FALLBACK
    let s := if told then { s with hst := { s.hst with bootEvent := some (det (s.startDetail 0)) } } else s
    let s := (List.range 16).foldl (fun (s : State) n => s.calMark 3 n (s.temp 8)) s
    let s := if s.sys.warm then
        (List.range (s.hst.numVf + 1)).foldl (fun (s : State) fn => s.evFn 247 fn [(2, fn), (1, 1)]) s
      else s
    let s := { s with sys := { s.sys with warm := false, watchAt := 0, readyAt := s.clk.tickCount + 1 } }
    s.cairnStart.showPins

def execFirmwareReady (s : State) : Res := run doFirmwareReady s

/-- START_RETRY: 1 s after a failed start, the part tries again (R591). -/
def doStartRetry (s : State) : State :=
  if s.startState = 4 ∧ !s.sys.held ∧ s.stateLasted 1000000 ∧ s.reg .SYS_START_REASON_COUNT < 3 then s.beginStart 8 else s

def execStartRetry (s : State) : Res := run doStartRetry s

/-- FAILED_COUNT_RESET: 60 s of ticks in READY (R595). -/
def doFailedCountReset (s : State) : State :=
  if s.startState = 3 ∧ s.sys.readyAt + 60000000 ≤ s.clk.tickCount + 1 then s.setCount 0 else s
def execFailedCountReset (s : State) : Res := run doFailedCountReset s

/-! ### FW_UPDATE (R150, R590, R596) -/

/-- The slot FW_UPDATE writes: the one that did not boot; in playa mode the one SELECT does not name. -/
def State.updateSlot (s : State) : Nat :=
  let slot := s.reg .SYS_START_REASON_SLOT
  if s.flag .SYS_STATUS_PLAYA ∨ 1 < slot then 1 - s.reg .SYS_BOOT_SELECT else 1 - slot

/-- The VERSION of a slot's header as the part shows it; none: unbootable. -/
def State.setSlot (s : State) (k : Nat) (v : Option Nat) : State :=
  let s := s.setReg (if k = 0 then .SYS_FW_VER_A_VERSION else .SYS_FW_VER_B_VERSION) 0 (v.getD 0)
  if k = 0 then { s with sys := { s.sys with slotA := v } } else { s with sys := { s.sys with slotB := v } }

/-- Flash offset of a slot (R589). -/
def slotOffset (k : Nat) : Nat := if k = 0 then 0x400000 else 0x1000000

/-- FW_UPDATE: a long operation; MAGIC is erased first, so the slot is unbootable until the image verifies. -/
def specFwUpdate (h : Hdr) (activate : Bool) (addr len : Nat) : Spec :=
  { opc := 0xB0
    chk := fun s =>
      { badField := len == 0 || decide (12 * 2 ^ 20 < len)
        noRoom := (s.freeSlot h.fn).isNone }
    work := fun id s =>
      let k := s.updateSlot
      s.startOp h id 0xB0 [b2n activate, addr, len, k] fun _ s => (s.setSlot k none).emit (.flash 3 (slotOffset k) []) }

def execFwUpdate (h : Hdr) (activate : Bool) (addr len : Nat) (s : State) : Res :=
  s.issue h (.fwUpdate h activate addr len) (specFwUpdate h activate addr len)

/-- Its result: VERSION, slot, and whether verification failed. -/
def fwResult (version slot : Nat) (bad : Bool) : List Nat := le 4 version ++ [slot, b2n bad]

/-- The image has been written, and it verifies or not (R150). -/
def State.fwDone (s : State) (k version : Nat) (good : Bool) (body : List Nat) : State :=
  let o := s.op k
  let slot := o.args.getD 3 0
  let s := s.emit (.flash 4 (slotOffset slot) body)
  if !good then s.endOp k stBADFIELD (fwResult version slot true)
  else
    let s := s.setSlot slot (some (version % 2 ^ 32))
    let s := if o.args.getD 0 0 = 1 then (s.setReg .SYS_BOOT_SELECT 0 slot).emit (.flash 0 8 (le 4 slot)) else s
    s.endOp k stOK (fwResult version slot false)

end Machine
end Sys2Proof
end

