-- ==== Sys2Proof/Machine/Commit.lean ====
section
/-!
DEFINITION. Commits and generations (ch. 02): SYS_COMMIT and COMMIT_AT, what a capture makes of them, how a captured set
applies, and the generation switch.
-/
namespace Sys2Proof
namespace Machine

/-! ### Requests (R57, R60, R69-R74, R136, R137) -/

/-- A COMMIT_AT of either form is accepted and has not completed (R72, R137). -/
def State.commitAtOpen (s : State) : Bool :=
  s.sys.timed.isSome || s.sys.switchCmd.isSome || (s.sys.commit.bind Commit.cmd).isSome

/-- E248: reason (1 REJECTED, 2 LATE, 3 BUSY, 4 UNTRACEABLE), refusing block, commanded tick or instant, tag (R75).
An instant is told in TAI ns of 8 bytes (DESIGN CHOICE, log entry 146). -/
def State.commitEvent (s : State) (reason block at_ tag : Nat) : State :=
  s.ev 248 [(1, reason), (2, block), (8, at_), (4, tag)]

/-- A GO arrives in the quiet window, so that it skips the capture of this tick (R58). -/
def State.skipsCapture (s : State) : Bool := s.quietWindow && s.sys.capAt != s.clk.tickCount + 1

/-- SYS_COMMIT with GO. -/
def doSysCommit (at_ tables : Bool) (scope : Nat) (s : State) : State :=
  let scope := setBits (scope % 2 ^ 19) 11 11 0
  let s := s.setRegs [(.SYS_COMMIT_AT, 0, b2n at_), (.SYS_COMMIT_TABLES, 0, b2n tables), (.SYS_COMMIT_SCOPE, 0, scope)]
  let tick := s.reg .SYS_COMMIT_AT_TICK
  let busy := s.flag .SYS_COMMIT_STATUS_PENDING
  if busy ∨ s.commitAtOpen then
    (if busy then s else s.setReg .SYS_COMMIT_STATUS_RESULT 0 4).commitEvent 3 0 (if at_ then tick else s.clk.tick + 1) 0
  else
    ({ s with sys := { s.sys with
        commit := some ⟨scope, if at_ then some tick else none, tables, none, 0, s.skipsCapture⟩ } } : State).setReg
      .SYS_COMMIT_STATUS_PENDING 0 1

def execSysCommit (at_ tables : Bool) (scope : Nat) (s : State) : Res := run (doSysCommit at_ tables scope) s

/-- An instant in grains, and the tick it falls in. -/
def instantGrains (sec ns grain : Nat) : Nat := (sec * 10 ^ 9 + ns) * 65536 + grain
def instantTick (g : Nat) : Nat := g / 65536 / 1000

/-- The own checks of COMMIT_AT, in the order of R72 and R136. -/
def State.commitAtOwn (s : State) (inst : Bool) (tick : Nat) : Option Nat :=
  if tick < s.clk.tick + 2 then some stTICKPAST
  else if s.clk.tick + s.reg .SYS_TC_HORIZON_TICKS < tick then some stBADFIELD
  else if s.commitAtOpen ∨ s.flag .SYS_COMMIT_STATUS_PENDING then some stNOROOM
  else if inst ∧ s.sys.timedTick then some stBUDGET
  else none

/-- An instant-form set is accepted: unheld updates not yet switched in join it, and no automatic switch follows (R74). -/
def State.timedAccept (s : State) (id tag instant : Nat) : State :=
  let joined := s.sys.unheld
  let auto := s.sys.switchDue && s.sys.switchAuto
  let s : State := { s with sys := { s.sys with
    timed := some ⟨id, tag, instant, false, joined, 0⟩, timedTick := true, unheld := []
    switchDue := s.sys.switchDue && !auto, switchAuto := false
    stall := if auto then 0 else s.sys.stall, stallTold := s.sys.stallTold && !auto } }
  let s := if auto then s.setReg .SYS_GEN_STALL_TICKS 0 0 else s
  if s.traceable then s else s.commitEvent 4 0 (instant / 65536) tag

def specCommitAt (h : Hdr) (inst : Bool) (scope tick sec ns grain : Nat) : Spec :=
  let g := instantGrains sec ns grain
  { opc := 0x02
    chk := fun s =>
      { badField := if inst then decide (2 ^ 48 ≤ sec) || decide (10 ^ 9 ≤ ns) || decide (2 ^ 16 ≤ grain)
          else decide (2 ^ 19 ≤ scope) || bit scope 11 || decide (2 ^ 64 ≤ tick)
        own := s.commitAtOwn inst (if inst then instantTick g else tick) }
    work := fun id s =>
      if inst then s.timedAccept id h.tag g
      else
        ({ s with sys := { s.sys with commit := some ⟨scope, some tick, true, some id, h.tag, false⟩ } } : State).setReg
          .SYS_COMMIT_STATUS_PENDING 0 1 }

def execCommitAt (h : Hdr) (inst : Bool) (scope tick sec ns grain : Nat) (s : State) : Res :=
  s.issue h (.commitAt h inst scope tick sec ns grain) (specCommitAt h inst scope tick sec ns grain)

/-- The result of a COMMIT_AT: tick number and current generation (R137). -/
def State.commitResult (s : State) : List Nat := le 8 s.clk.tick ++ [s.sys.genSeq % 4]

/-! ### Staged sets (R56, R58, R59) -/

/-- Block indices that have staged fields, and those fields; HST's are its shadow contexts, in the function pages. -/
def stagedBlocks : List Nat := [1, 5, 6, 7, 8, 9, 0xC, 0xD, 0xF, 0x10, 0x11, 0x12]
def stagedFields (b : Nat) : List Fld :=
  (fieldsOf (if b = 1 then 0x4000000 else b * 2 ^ 20)).filter fun f => f.desc.kind == .staged

/-- A register key belongs to one of these fields. -/
def keyOf (l : List Fld) (k : Nat) : Bool := l.any fun f => f.ctorIdx == k / 8192

/-- Fields whose values a set takes, with their indices; none: every index. -/
abbrev FldSet := List (Fld × Option (List Nat))

/-- Every index of these fields. -/
def wholeFields (l : List Fld) : FldSet := l.map fun f => (f, none)

/-- A register key belongs to a set. -/
def inSet (l : FldSet) (k : Nat) : Bool :=
  l.any fun x => x.1.ctorIdx == k / 8192 && (match x.2 with | some is => is.contains (k % 8192) | none => true)

/-- The pending values of a set. -/
def State.pendOf (s : State) (l : FldSet) : Tab Nat :=
  s.pend.filterMap fun x => if inSet l x.1 then x.2.map fun v => (x.1, v) else none

/-- Pins that a TIO_SET, and candidates that a REF_SET, has written since the last capture (R142). -/
def State.setPins (s : State) : List Nat := s.tme.tios.map fun x => x.2.pin
def State.setCands (s : State) : List Nat := s.ref.sets.map Prod.snd

/-- The fields a block commits itself (R56): TME_INCR, and the fields of the pins that TIO_SET has written (R377, R142);
those of the candidates that REF_SET has; PAIR's EN and RANK; the shadow contexts (R107). -/
def State.selfFields (s : State) (b : Nat) : FldSet :=
  match b with
  | 5 => (.TME_INCR_INCR, none) :: [Fld.TME_TIO_MODE_MODE, .TME_TIO_WIDTH_NS, .TME_TIO_PER_NUM_NUM, .TME_TIO_PER_DEN_DEN,
      .TME_TIO_START_SEC_SEC, .TME_TIO_START_NS_NS].map fun f => (f, some s.setPins)
  | 7 => [Fld.REF_C_CTRL_REVERT, .REF_C_CTRL_RANK, .REF_C_SOFT_PPB, .REF_C_HARD_PPB, .REF_C_QUAL_TICKS, .REF_C_BW_MHZ].map
      fun f => (f, some s.setCands)
  | 9 => wholeFields [.PAIR_CFG_EN, .PAIR_CFG_RANK]
  | 1 => wholeFields (stagedFields 1)
  | _ => []

/-- CLS refuses a set in which a field of CLS_MISS holds 3 (R59). -/
def State.clsRefuses (s : State) : Bool :=
  [Fld.CLS_MISS_L3_MC, .CLS_MISS_L3_UC, .CLS_MISS_L2_MC, .CLS_MISS_L2_UC].any fun f => s.pendReg f == 3

/-- Block `b` refuses its staged set. -/
def State.refuses (s : State) (b : Nat) : Bool :=
  match b with
  | 5 => s.tmeRefuses | 7 => s.refRefuses | 8 => s.outRefuses | 0xD => s.clsRefuses | 0xF => s.oasRefuses | _ => false

/-- The self-committed set of block `b` is refused: TME's increment or pins, REF's candidates. -/
def State.selfRefuses (s : State) (b : Nat) : Bool :=
  match b with
  | 5 => !incrAllowed (s.pendReg .TME_INCR_INCR) || s.setPins.any fun n => s.pinRefused n
  | 7 => s.setCands.any fun i => decide (100 * s.reg .REF_DPLL_CFG_PULL (i / 13) < s.pendReg .REF_C_HARD_PPB i)
  | _ => false

/-- Offset of the register that makes a block refuse, as its event reports it (E157, E187, E197). -/
def State.refusedOffset (s : State) (b : Nat) : Nat :=
  let hard := (List.range 26).find? fun i => decide (100 * s.pendReg .REF_DPLL_CFG_PULL (i / 13) < s.pendReg .REF_C_HARD_PPB i)
  match b with
  | 5 =>
    if !incrAllowed (s.pendReg .TME_INCR_INCR) then 0x20
    else match (List.range 4).find? fun i => s.pendReg .TME_INST_CFG_EN i == 1 &&
        (if s.pendReg .TME_INST_CFG_PROFILE i = 1 then !decide (24 ≤ s.pendReg .TME_INST_CFG_DOMAIN i ∧ s.pendReg .TME_INST_CFG_DOMAIN i ≤ 43)
          else decide (127 < s.pendReg .TME_INST_CFG_DOMAIN i)) with
      | some i => 0x100 + 0x40 * i
      | none => 0x200 + 0x40 * (((List.range 8).find? fun n => s.pendReg .TME_TIO_MODE_MODE n == 1 &&
          tioBad ⟨n, 1, s.pendReg .TME_TIO_WIDTH_NS n, s.pendReg .TME_TIO_PER_NUM_NUM n, s.pendReg .TME_TIO_PER_DEN_DEN n,
            s.pendReg .TME_TIO_START_SEC_SEC n, s.pendReg .TME_TIO_START_NS_NS n⟩).getD 0)
  | 7 => match hard with
    | some i => 0x408 + 0x200 * (i / 13) + 0x20 * (i % 13)
    | none => if s.pendReg .REF_HOLD_CFG_START_S ≤ s.pendReg .REF_HOLD_CFG_END_S + s.pendReg .REF_HOLD_CFG_MIN_S then 0x18 else 0x200
  | _ => 0x100 + 0x20 * (((List.range 8).find? fun n => s.outChanged n).getD 0)

/-- The block's own event for a set it refuses. -/
def State.refusalEvent (s : State) (b : Nat) : State :=
  let off := s.refusedOffset b
  match b with
  | 5 => s.ev 157 [(4, off)]
  | 7 => s.ev 187 [(4, off)]
  | 8 => s.ev 197 [(4, off), (1, 2)]
  | _ => s

/-- The tick number that the next boundary begins. -/
def State.nextTick (s : State) : Nat := max (s.clk.tick + 1) ((s.runTime (s.clk.tickLen - s.clk.cycle)).taiNs / 1000)

/-- A forward step has skipped the boundary that begins tick `t` (R651). -/
def State.skippedTick (s : State) (t : Nat) : Bool := s.sys.skipped.any fun r => decide (r.1 ≤ t ∧ t ≤ r.2)

/-- What the capture of this tick makes of a commit: 0 not due, 1 due, 3 LATE (R57, R60, R651). -/
def State.commitDue (s : State) (c : Commit) : Nat :=
  if c.skip then 0
  else match c.at_ with
    | none => 1
    | some t => if t ≤ s.clk.tick ∧ !s.skippedTick t then 3 else if t ≤ s.nextTick then 1 else 0

/-- The capture at the start of the quiet window (R58, R59). -/
def State.capture (s : State) : State :=
  let self := stagedBlocks.filter fun b => bit s.sys.selfScope b
  let bad := self.filter s.selfRefuses
  let good := self.filter fun b => !s.selfRefuses b
  let mask (l : List Nat) : Nat := l.foldl (fun a b => a + 2 ^ b) 0
  let own := good.flatMap s.selfFields
  let due := match s.sys.commit with | some c => s.commitDue c | none => 0
  let scope := match s.sys.commit with | some c => stagedBlocks.filter fun b => bit c.scope b | none => []
  let refusing := if due = 1 then scope.filter s.refuses else []
  let out := if due = 1 ∧ refusing ≠ [] then 2 else due
  let fields := own ++ (if out = 1 then wholeFields (scope.flatMap stagedFields) else [])
  let s1 : State := { s with sys := { s.sys with
    captured := s.pendOf fields, capOut := out, capBlock := refusing.headD 0, capAt := s.clk.tickCount + 1
    selfScope := 0, capSelf := mask self, capRefused := mask bad
    commit := s.sys.commit.map fun (c : Commit) => { c with skip := false } } }
  (refusing ++ bad.filter fun b => !refusing.contains b).foldl (fun (s : State) b => s.refusalEvent b) s1

/-- The captured values come into force; a value written since the capture stays pending (the case under R60). -/
def State.applyValues (s : State) : State :=
  let l := s.sys.captured
  let s := (stagedBlocks.flatMap stagedFields).foldl (fun (s : State) f =>
    (l.filter fun x => x.1 / 8192 == f.ctorIdx).foldl (fun (s : State) x => s.setReg f (x.1 % 8192) x.2) s) s
  { s with
    pend := s.pend.filter fun x => !(l.any fun y => y.1 == x.1 && some y.2 == x.2)
    sys := { s.sys with captured := [] } }

/-- A captured value of field `f` at index `i` differs from the one in force. -/
def State.capChanges (s : State) (f : Fld) (i : Nat) : Bool := s.sys.captured.any fun x => x.1 == f.key i && x.2 != s.reg f i

/-- Shadow contexts apply, function by function: registrations that end, then those that begin (R107, R108). A refused
one reads EN = 0 again (DESIGN CHOICE, log entry 150). -/
def State.shadowsApplied (s : State) (old : List (Nat × Nat)) : State :=
  let s := old.foldl (fun (s : State) x =>
    let i := x.1
    if x.2 = 1 ∧ !s.flag .HST_SHADOW_CTRL_EN i ∧ s.registered (i % 7) (i / 7) then
      ({ s with hst := { s.hst with shadowOwner := tdel (i % 7) s.hst.shadowOwner } } : State).setReg .HST_SHADOW_STATUS_ACTIVE i 0
    else s) s
  old.foldl (fun (s : State) x =>
    let i := x.1
    let t := i % 7
    let fn := i / 7
    if s.flag .HST_SHADOW_CTRL_EN i ∧ !s.registered t fn then
      let owner := tget 0 s.hst.shadowOwner t
      if owner = 0 then
        ({ s with hst := { s.hst with shadowOwner := tset 0 t (fn + 1) s.hst.shadowOwner } } : State).setReg .HST_SHADOW_STATUS_ACTIVE i 1
      else
        ((s.setReg .HST_SHADOW_CTRL_EN i 0).hwSet .HST_SHADOW_STATUS_CONFLICT i 1).evFn 245 fn [(2, fn), (1, t), (2, owner - 1)]
    else s) s

/-- The boundary applies what was captured, block by block (R59). -/
def State.applyCaptured (s : State) : State :=
  let blocks := (if s.sys.capOut = 1 then (s.sys.commit.map Commit.scope).getD 0 else 0) |||
    (s.sys.capSelf &&& (2 ^ 19 - 1 - s.sys.capRefused))
  let outs := (List.range 8).filter fun n => bit blocks 8 &&
    [Fld.OUT_CLK_CFG_MODE, .OUT_CLK_CFG_SRC, .OUT_CLK_CFG_DIV, .OUT_CLK_FDIV_FDIV, .OUT_CLK_WIDTH_WIDTH].any fun f => s.capChanges f n
  let pins := (List.range 8).filter fun n => bit blocks 5 && ((s.tme.tios.any fun x => x.2.pin == n) && !bit s.sys.capRefused 5 ||
    [Fld.TME_TIO_MODE_MODE, .TME_TIO_WIDTH_NS, .TME_TIO_PER_NUM_NUM, .TME_TIO_PER_DEN_DEN, .TME_TIO_START_SEC_SEC,
      .TME_TIO_START_NS_NS].any fun f => s.capChanges f n)
  let shadows := ((s.sys.captured.filter fun x => keyOf (stagedFields 1) x.1).map fun x => x.1 % 8192).eraseDups
  let shadows := shadows.map fun i => (i, s.reg .HST_SHADOW_CTRL_EN i)
  let s := s.applyValues.shadowsApplied shadows
  let s := pins.foldl (fun (s : State) n => s.tioApply n) s
  let s := s.outApplied outs
  let s := if bit blocks 6 then s.seifCommit else s
  let s := if bit blocks 0xF then s.oasCommitted else s
  let st (b : Nat) : Nat := if bit s.sys.capRefused b then stBADFIELD else stOK
  let s := if s.sys.capAt = s.clk.tickCount then
      let s := s.completeAll s.tme.incrs (st 5) (le 8 (s.reg .TME_INCR_INCR) ++ le 8 s.clk.tick)
      let s := s.completeAll (s.tme.tios.map Prod.fst) (st 5) []
      let s := s.completeAll (s.ref.sets.map Prod.fst) (st 7) []
      { s with tme := { s.tme with incrs := [], tios := [] }, ref := { s.ref with sets := [] } }
    else s
  s.refTick (bit blocks 7)

/-- The boundary settles the commit that the capture judged (R59, R60, R136): SYS_COMMIT_STATUS, E248, the command. -/
def State.settleCommit (s : State) : State :=
  let out := s.sys.capOut
  match s.sys.commit with
  | none => { s with sys := { s.sys with capOut := 0 } }
  | some c =>
    if out = 0 then s
    else
      let s := s.setRegs [(.SYS_COMMIT_STATUS_PENDING, 0, 0), (.SYS_COMMIT_STATUS_RESULT, 0, out)]
      let s : State := { s with sys := { s.sys with commit := none, capOut := 0 } }
      if out = 1 then
        let s := (s.setReg .SYS_COMMIT_STATUS_APPLIED_TICK 0 s.clk.tick).tally1 0 1 0
        if c.tables then { s with sys := { s.sys with switchDue := true, switchAuto := false, switchCmd := c.cmd } } else s
      else
        let s := if out = 2 then s.setReg .SYS_COMMIT_STATUS_BLOCK 0 s.sys.capBlock else s
        let s := (s.commitEvent (out - 1) (if out = 2 then s.sys.capBlock else 0) (c.at_.getD s.clk.tick) c.tag).tally1 0 2 0
        match c.cmd with
        | some id => s.complete id (if out = 2 then stBADFIELD else stTICKPAST) s.commitResult
        | none => s

/-! ### Generations (R63-R68) -/

/-- What a boundary writes into the pending generation: a load by EGR_TLOAD, and placement moves (R346, R234). It waits for
a switch at the same boundary. -/
def State.boundaryUpdates (s : State) : State :=
  ({ s with cls := { s.cls with moves := 0 } } : State).tloadTick.placeMoves

/-- The pending generation becomes current (R66), with everything that waited for it. -/
def State.doSwitch (s : State) : State :=
  let old := s.sys.genSeq
  let ids := s.sys.unheld
  let cmd := s.sys.switchCmd
  let joined := match s.sys.timed with | some t => t.joined | none => []
  let s := s.switchGen
  let s : State := { s with sys := { s.sys with
    switchCmd := none, timed := s.sys.timed.map fun (t : Timed) => { t with joined := [] } } }
  let s := ((s.placeSwitched old).inForce (ids ++ joined)).bulkSwitched.gatesSwitched.tloadSwitched
  let s := match cmd with | some id => s.complete id stOK s.commitResult | none => s
  s.boundaryUpdates

/-- The switch that is due can take place: the number of the pending generation has drained (R66). -/
def State.switchReady (s : State) : Bool := s.sys.switchDue && s.drainOf s.pendSeq == 0

/-- GENERATION_SWITCH at CORE cycle 0. -/
def doGenerationSwitch (s : State) : State := if s.clk.cycle = 0 ∧ s.switchReady then s.doSwitch else s
def execGenerationSwitch (s : State) : Res := run doGenerationSwitch s

/-- E250: blocked generation, drain count, ticks waited (R75). -/
def State.stallEvent (s : State) : State :=
  s.ev 250 [(1, s.pendSeq % 4), (4, s.drainOf s.pendSeq), (4, s.sys.stall)]

/-- A comparator's retirement is due (R70, step 3). -/
def State.retireDue (s : State) : Bool :=
  match s.sys.timed with
  | some t => t.armed && decide (t.instant + 1000 * 65536 ≤ s.grains) && decide (t.notBefore ≤ s.clk.tickCount)
  | none => false

/-- GENERATION_STALL: the wait of a switch, or of a retirement, has reached SYS_GEN_STALL_LIMIT; it is told once a wait (R68,
R71). A limit of 0 is reached by the first tick waited (DESIGN CHOICE, log entry 147). -/
def doGenerationStall (s : State) : State :=
  if s.clk.cycle = 0 ∧ (s.sys.switchDue ∨ s.retireDue) ∧ s.sys.stall ≠ 0 ∧ !s.sys.stallTold ∧
      s.reg .SYS_GEN_STALL_LIMIT_TICKS ≤ s.sys.stall then
    ({ s with sys := { s.sys with stallTold := true } } : State).stallEvent
  else s

def execGenerationStall (s : State) : Res := run doGenerationStall s

/-- GENERATION_RETIRE: number `n` is no longer current and has drained: what it alone could see is retired (R65, R231). -/
def doGenerationRetire (n : Nat) (s : State) : State :=
  if n < 4 ∧ n ≠ s.sys.genSeq % 4 ∧ s.drainOf n = 0 then s.retireAll else s

def execGenerationRetire (n : Nat) (s : State) : Res := run (doGenerationRetire n) s

/-- COMPARATOR_ARM: at the boundary before the instant's tick, or at the step that skips it (R70, R73). -/
def doComparatorArm (s : State) : State :=
  let here := s.clk.cycle == 0 || (s.clk.cycle == 16 && !s.tme.stepped.isEmpty)
  match s.sys.timed with
  | none => s
  | some t =>
    if t.armed ∨ !here ∨ s.clk.tick + 1 < instantTick t.instant then s
    else if s.drainOf s.pendSeq = 0 then { s with sys := { s.sys with timed := some { t with armed := true } } }
    else
      let s : State := { s with sys := { s.sys with
        timed := none, unheld := t.joined ++ s.sys.unheld, noAuto := s.sys.unheldAny } }
      (s.stallEvent.tally1 0 2 0).complete t.cmd stNOROOM s.commitResult

def execComparatorArm (s : State) : Res := run doComparatorArm s

/-- No frame stamped before the instant still waits for its generation stamp (R71). -/
def State.oldUnstamped (s : State) (instant : Nat) : Bool :=
  s.swc.frames.any fun x => !x.2.stamped && x.2.stage != 5 && decide (x.2.full < instant)

/-- COMPARATOR_RETIRE: the pending generation becomes current for all frames, and COMMIT_AT completes (R70, R71). -/
def doComparatorRetire (s : State) : State :=
  match s.sys.timed with
  | none => s
  | some t =>
    if s.clk.cycle ≠ 0 ∨ !s.retireDue ∨ s.oldUnstamped t.instant then s
    else
      let s := s.doSwitch
      let s : State := { s with sys := { s.sys with timed := none } }
      let s := if s.traceable then s else s.commitEvent 4 0 (t.instant / 65536) t.tag
      (s.tally1 0 4 0).complete t.cmd stOK s.commitResult

def execComparatorRetire (s : State) : Res := run doComparatorRetire s

end Machine
end Sys2Proof
end

