-- ==== Sys2Proof/Machine/Pair.lean ====
section
/-!
DEFINITION. The pair unit and the Mywyn link (R481-R509): claims, heartbeats and verdicts, roles, handovers, the state copy
and the driver watch.
-/
namespace Sys2Proof
namespace Machine

/-! ### Message bytes (R488-R490) -/

/-- Words 0 to LEN of a message; the check value covers their bytes, most significant first (log entry 26). -/
def msgWords (m : MyMsg) : List Nat :=
  (m.ty % 16 * 2 ^ 124 + m.payload.length % 512 * 2 ^ 115 + m.seq % 65536 * 2 ^ 96 + m.epoch % 2 ^ 32 * 2 ^ 64 + m.tick % 2 ^ 64) ::
    m.payload

def msgBytes (m : MyMsg) : List Nat := (msgWords m).flatMap (be 16)

/-- The word behind the payload: CHECK and ALIVE. -/
def msgTail (check alive : Nat) : List Nat := be 16 (check % 2 ^ 32 * 2 ^ 96 + alive % 256 * 2 ^ 88)

/-! ### Claims (R481-R485) -/

def State.pairState (s : State) : Nat := s.reg .PAIR_STATUS_STATE
def State.active (s : State) : Bool := s.flag .PAIR_STATUS_ROLE
def State.ownClaim (s : State) : Nat := s.reg .PAIR_STATUS_OWN_CLAIM
def State.peerClaim (s : State) : Nat := s.reg .PAIR_STATUS_PEER_CLAIM

/-- The claim with a given HEALTH; 0 with RANK 0, off and in conflict (R481, R493). -/
def State.mkClaim (s : State) (health : Nat) : Nat :=
  let rank := s.reg .PAIR_CFG_RANK
  if rank = 0 ∨ s.pairState = 0 ∨ s.pairState = 5 then 0
  else (if s.active then 15 else rank) * 16 + health % 8 * 2 + s.reg .SYS_STRAPS_UNIT_ID

/-- E201: own and partner claims, and the source of the partner's. -/
def State.e201 (s : State) : State := s.ev 201 [(1, s.ownClaim), (1, s.peerClaim), (1, s.reg .PAIR_STATUS_PEER_SRC)]

def State.setOwn (s : State) (c : Nat) : State :=
  if c = s.ownClaim then s else (s.setReg .PAIR_STATUS_OWN_CLAIM 0 c).e201

def State.setPeer (s : State) (c src : Nat) : State :=
  let same := decide (c = s.peerClaim)
  let s := s.setRegs [(.PAIR_STATUS_PEER_CLAIM, 0, c), (.PAIR_STATUS_PEER_SRC, 0, src), (.PAIR_HEALTH_PEER, 0, c / 2)]
  if same then s else s.e201

/-- Publish the claim that the role and the HEALTH last sampled give. -/
def State.publish (s : State) : State := s.setOwn (s.mkClaim (s.reg .PAIR_HEALTH_OWN))

/-- HEALTH (R481): TIME, TRACE and OUTPUTS. -/
def State.sampleHealth (s : State) : Nat :=
  let time := s.reg .REF_DPLL_STATUS_STATE 0 == 2 || s.reg .REF_DPLL_STATUS_STATE 0 == 3
  let outs := s.reg .PAIR_HEALTH_DRV_CLK == 0 && s.reg .PAIR_HEALTH_DRV_TIO == 0 &&
    (List.range 16).all fun n => !s.shared n ||
      (s.lineLock n && s.outState n != 3 && !(decide (n < 8) && s.flag .OUT_CLK_STATUS_NEED_ALIGN n))
  4 * b2n time + 2 * b2n s.traceable + b2n outs

/-- The role changes (R483, R494, R501, R502); reason 1 JOIN, 2 HANDOVER, 3 LOST, 4 SPLIT. The claim follows. -/
def State.setRole (s : State) (act : Bool) (reason : Nat) : State :=
  let same := s.active == act
  let s : State := { s with pair := { s.pair with named := decide (reason ≤ 2) } }
  let s := ((s.setReg .PAIR_STATUS_ROLE 0 (b2n act)).publish).fig fun q => { q with roleChg := q.roleChg + b2n !same }
  if same then s else s.ev 200 [(1, b2n act), (1, reason), (4, s.reg .PAIR_EPOCH_HELD_EPOCH)]

/-! ### The state copy (R503-R505) -/

/-- Every index of a list of fields. -/
def copied (l : List (Fld × Nat)) : List (Fld × Nat) := l.flatMap fun x => (List.range x.2).map fun i => (x.1, i)

/-- The copied fields of section 1 REF, 2 TIME and 3 OUT. -/
def sectionFields (c : Nat) : List (Fld × Nat) :=
  match c with
  | 1 => copied [(.REF_CFG_QL_MODE, 1), (.REF_CFG_DIS_GATES, 1), (.REF_CFG_DISAGREE, 1), (.REF_SLEW_LIMIT_D1, 1), (.REF_SLEW_LIMIT_D0, 1),
      (.REF_MON_GATE_MS, 1), (.REF_HOLD_CFG_START_S, 1), (.REF_HOLD_CFG_END_S, 1), (.REF_HOLD_CFG_MIN_S, 1), (.REF_ESMC_EN, 1),
      (.REF_ESMC_HOLD_SSM, 1), (.REF_ESMC_FREE_SSM, 1), (.REF_QL_MAP_GRADE, 1), (.REF_QL_EMAP_GRADE, 1), (.REF_IN_CFG_PPS, 4),
      (.REF_IN_CFG_FREQ_HZ, 4), (.REF_DPLL_CFG_PBO, 2), (.REF_DPLL_CFG_PULL, 2), (.REF_DPLL_CFG_ACQ_LIMIT, 2), (.REF_DPLL_CFG_ACQ_BW, 2),
      (.REF_C_CTRL_REVERT, 26), (.REF_C_CTRL_GRADE, 26), (.REF_C_CTRL_RANK, 26), (.REF_C_SOFT_PPB, 26), (.REF_C_HARD_PPB, 26),
      (.REF_C_QUAL_TICKS, 26), (.REF_C_BW_MHZ, 26)]
  | 2 => copied [(.TME_UTC_VALID, 1), (.TME_UTC_LEAP61, 1), (.TME_UTC_LEAP59, 1), (.TME_UTC_OFFSET, 1), (.TME_TIO_MODE_MODE, 8),
      (.TME_TIO_WIDTH_NS, 8), (.TME_TIO_PER_NUM_NUM, 8), (.TME_TIO_PER_DEN_DEN, 8), (.TME_TIO_START_SEC_SEC, 8),
      (.TME_TIO_START_NS_NS, 8), (.TME_TRACE_SET, 1)]
  | 3 => copied [(.OUT_CFG_ALIGN_RATE, 1), (.OUT_CFG_RET_MS, 1), (.OUT_SYN1_FREQ, 1), (.OUT_CLK_CFG_EN, 8), (.OUT_CLK_CFG_OE, 8),
      (.OUT_CLK_CFG_SHARED, 8), (.OUT_CLK_CFG_AUTO_RET, 8), (.OUT_CLK_CFG_ALIGN_MODE, 8), (.OUT_CLK_CFG_MODE, 8), (.OUT_CLK_CFG_SRC, 8),
      (.OUT_CLK_CFG_DIV, 8), (.OUT_CLK_FDIV_FDIV, 8), (.OUT_CLK_WIDTH_WIDTH, 8), (.OUT_TIO_CFG_SHARED, 8)]
  | _ => []

/-- The values of a section: TME_TRACE only when C1 owns the servo; OUT ends with the outputs that OUT_ALIGN has named. -/
def State.sectionValues (s : State) (c al : Nat) : List Nat :=
  let l := (sectionFields c).map fun x => s.reg x.1 x.2
  match c with
  | 2 => if s.flag .TME_CFG_SERVO_OWNER then l.dropLast else l
  | 3 => l ++ [al]
  | 4 => s.pair.agent
  | _ => l

/-- The sections an epoch can carry: AGENT while C1 owns the servo and has servo state (R503). -/
def State.sections (s : State) : List Nat := [1, 2, 3] ++ (if s.flag .TME_CFG_SERVO_OWNER ∨ s.pair.agent = [] then [] else [4])

/-- Two 64-bit values a word (log entry 27). -/
def packWords : List Nat → List Nat
  | [] => []
  | [a] => [a % 2 ^ 64 * 2 ^ 64]
  | a :: b :: t => (a % 2 ^ 64 * 2 ^ 64 + b % 2 ^ 64) :: packWords t

def unpackWords (l : List Nat) : List Nat := l.flatMap fun w => [w / 2 ^ 64 % 2 ^ 64, w % 2 ^ 64]

/-- The values of a section, as many as a message holds behind its first word (R488); `n` bounds the messages. -/
def messagesOf : Nat → List Nat → List (List Nat)
  | 0, l => [l]
  | n + 1, l => if l.length ≤ 510 then [l] else l.take 510 :: messagesOf n (l.drop 510)

/-- Start an epoch (R503): it takes the next number; a full one carries every section, another those that changed. -/
def State.startEpoch (s : State) (all : Bool) (slot : Option Nat) : State :=
  let n := (s.pair.epoch + 1) % 2 ^ 32
  let every := s.reg .PAIR_COPY_CFG_FULL_EVERY
  let full := all || s.pair.peerHeld != s.pair.epoch || (every != 0 && n % every == 0)
  let vals := s.sections.map fun c => (c, s.sectionValues c s.pair.aligned)
  let go := vals.filter fun v => full || s.pair.last.find? (fun w => w.1 == v.1) != some v
  let s := (go.flatMap fun v => (messagesOf 16 v.2).map fun l => (v.1, l)).foldl
    (fun (s : State) v => s.mywynSend 3 n ((v.1 * 2 ^ 120 + v.2.length) :: packWords v.2) false) s
  let s := s.mywynSend 4 n [go.foldl (fun a v => a ||| 2 ^ v.1) 0 * 2 ^ 120] false
  { s with pair := { s.pair with
    epoch := n, outs := s.pair.outs ++ [⟨n, full, slot⟩], aligned := 0, last := s.sections.map fun c => (c, s.sectionValues c 0) } }

/-- EPOCH_END has left (`sent`), or no lane carried it: the epoch is complete, or not. -/
def State.epochSent (s : State) (n : Nat) (sent : Bool) : State :=
  match s.pair.outs.find? fun e => e.num == n with
  | none => s
  | some e =>
    let s := { s with pair := { s.pair with outs := s.pair.outs.filter fun e => e.num != n } }
    if !sent then s
    else
      let s := (s.setReg .PAIR_EPOCH_SENT_EPOCH 0 n).tally1 9 5 0
      let s := if e.full then s.tally 9 5 2 0 0 0 1 else s
      match e.slot with
      | some k => s.endOp k stOK (le 4 n)
      | none => s

/-- A PAIR_COPY is cancelled: its epoch goes no further (R145, R505). -/
def State.cancelCopy (s : State) (slot : Nat) : State :=
  match s.pair.outs.find? fun e => e.slot == some slot with
  | none => s
  | some e =>
    let u := s.reg .PAIR_CFG_CHK_TX
    let mine (j : Job) : Bool := match j.use with
      | .send m _ => m.epoch == e.num && (m.ty == 3 || m.ty == 4)
      | _ => false
    let s := { s with
      pair := { s.pair with outs := s.pair.outs.filter fun x => x != e }
      chk := { s.chk with queue := tset [] u ((s.jobsOf u).filter fun j => !mine j) s.chk.queue } }
    s.showUnit u

/-- The epoch being received is discarded (R505): cause 1 path, 2 claim lost, 3 next epoch, 4 cancelled. -/
def State.dropEpoch (s : State) (cause : Nat) : State :=
  match s.pair.inn with
  | none => s
  | some e =>
    let s := ({ s with pair := { s.pair with inn := none } } : State).countReg .PAIR_EPOCH_GAP_EPOCHS 0 1
    (s.ev 204 [(4, s.reg .PAIR_EPOCH_HELD_EPOCH), (4, e.num), (1, cause)]).tally 9 5 4 0 0 0 1

/-- EPOCH_DISCARD (R505). -/
def doEpochDiscard (s : State) : State :=
  s.dropEpoch (if !s.mywynUp then 1 else if s.reg .PAIR_STATUS_PEER_SRC = 0 then 2 else 4)

def execEpochDiscard (s : State) : Res := run doEpochDiscard s

/-- A HANDOVER message (log entry 27): kind 1 request, 2 naming T_h, 3 acknowledgement. -/
def State.sendHandover (s : State) (kind th d : Nat) : State := s.mywynSend 5 s.pair.epoch [kind * 2 ^ 124 + th % 2 ^ 64, d % 2 ^ 64] false

/-- The standby acknowledges a handover whose epoch it holds (R497). -/
def State.acknowledge (s : State) : State :=
  match s.pair.handover with
  | some h => if h.active ∨ h.acked then s
      else { s.sendHandover 3 h.th h.d with pair := { (s.sendHandover 3 h.th h.d).pair with handover := some { h with acked := true } } }
  | none => s

/-- Fields of an epoch with the values it carries. -/
def EpochIn.values (e : EpochIn) : List (Fld × Nat × Nat) :=
  e.sections.flatMap fun c => ((sectionFields c.1).zip c.2).map fun x => (x.1.1, x.1.2, x.2)

/-- Outputs that the OUT section of an epoch names for alignment. -/
def EpochIn.aligned (e : EpochIn) : Nat :=
  match e.sections.find? fun c => c.1 == 3 with
  | some c => c.2.getD (sectionFields 3).length 0
  | none => 0

/-- The AGENT section, whose values come in as many messages as they need. -/
def EpochIn.agent (e : EpochIn) : List Nat := (e.sections.filter fun c => c.1 == 4).flatMap fun c => c.2

/-- The standby applies its complete epoch as one staged set, aligns, hands the AGENT section to C1 and reports it (R504). -/
def State.applyEpoch (s : State) (e : EpochIn) : State :=
  let s := { s with pair := { s.pair with ready := none } }
  let vals := e.values
  let tryOn := vals.foldl (fun (t : State) x => t.setPend x.1 x.2.1 x.2.2) { s with pend := [] }
  let block : Nat := if tryOn.refRefuses then 7 else if tryOn.tmeRefuses then 5 else if tryOn.outRefuses then 8 else 0
  if block ≠ 0 then s.ev 205 [(4, e.num), (1, block)]
  else
    let changed := (List.range 8).filter fun n => tryOn.outChanged n
    let old := s
    let s := s.setRegs vals
    let s := s.refApplied
    let s := (List.range 8).foldl (fun (s : State) n => if s.tioSettings n = old.tioSettings n then s else s.tioApply n) s
    let s := s.judgeTraceable
    let s := (List.range 8).foldl (fun (s : State) n => s.outFollow n) s
    let s := s.outApplied changed
    let moved (n : Nat) : Bool := s.outEn n != old.outEn n || (if n < 8 then changed.contains n else s.tioSettings (n - 8) != old.tioSettings (n - 8))
    let mask := (List.range 16).foldl (fun a n =>
      if s.shared n ∧ s.outState n ≠ 0 ∧ (moved n ∨ bit e.aligned n ∨ (n < 8 ∧ s.flag .OUT_CLK_STATUS_NEED_ALIGN n)) then a + 2 ^ n else a) 0
    let s := if mask = 0 then s else { s with outp := { s.outp with reqs := s.outp.reqs ++ [⟨none, mask, true, false, 0, []⟩] } }
    let s := (s.setReg .PAIR_EPOCH_HELD_EPOCH 0 e.num).tally 9 5 3 0 0 0 1
    let s := if e.agent = [] then s else { s with pair := { s.pair with agent := e.agent } }
    let s := { s with pair := { s.pair with held := true, epoch := e.num, last := s.sections.map fun c => (c, s.sectionValues c 0) } }
    s.acknowledge

/-- EPOCH_APPLY: at the next boundary, or the first at which no commit is pending (R504). -/
def doEpochApply (s : State) : State :=
  match s.pair.ready with
  | some e => if s.clk.cycle ≠ 0 ∨ s.active ∨ s.flag .SYS_COMMIT_STATUS_PENDING then s else s.applyEpoch e
  | none => s

def execEpochApply (s : State) : Res := run doEpochApply s

/-- EPOCH_BOUNDARY (R503): every 1,024 ticks. -/
def doEpochBoundary (s : State) : State :=
  let at_ := s.clk.tickCount + 1
  if s.clk.cycle ≠ 0 ∨ s.clk.tick % 1024 ≠ 0 ∨ s.pair.epochDone = at_ then s
  else
    let s := { s with pair := { s.pair with epochDone := at_ } }
    if s.active ∧ (s.pairState = 2 ∨ s.pairState = 3) ∧ s.mywynUp then s.startEpoch false none else s

def execEpochBoundary (s : State) : Res := run doEpochBoundary s

/-- A data message of an epoch arrives: the first of a new number discards an incomplete one (R505). -/
def State.epochData (s : State) (n : Nat) (payload : List Nat) : State :=
  let s := match s.pair.inn with
    | some e => if e.num = n then s else s.dropEpoch 3
    | none => s
  let e := s.pair.inn.getD ⟨n, [], s.clk.tickCount⟩
  let w := payload.headD 0
  { s with pair := { s.pair with inn := some { e with
    sections := e.sections ++ [(w / 2 ^ 120 % 256, (unpackWords payload.tail).take (w % 65536))] } } }

/-- EPOCH_END: the epoch is complete when every section announced has come within 1,024 ticks (R504). -/
def State.epochEnd (s : State) (n : Nat) (payload : List Nat) : State :=
  let named := payload.headD 0 / 2 ^ 120 % 256
  let s := match s.pair.inn with
    | some e => if e.num = n then s else s.dropEpoch 3
    | none => s
  let e := s.pair.inn.getD ⟨n, [], s.clk.tickCount⟩
  let all := (List.range 8).all fun c => !bit named c || e.sections.any fun x => x.1 == c
  if s.active then s
  else if all ∧ s.clk.tickCount ≤ e.since + 1024 then { s with pair := { s.pair with inn := none, ready := some e } }
  else { s with pair := { s.pair with inn := some e } }

/-! ### Handovers (R497-R500) -/

/-- E206: reason 1 ended, 2 aborted, 3 reversed, 4 deferred because the Mywyn path is down. -/
def State.e206 (s : State) (reason th d : Nat) : State := (s.ev 206 [(1, reason), (8, th), (8, d)]).tally 9 6 1 reason 0 0 1

/-- Swaps that end with a status and R144's result. -/
def State.endSwaps (s : State) (p : Nat → Bool) (st : Nat) : State :=
  let l := s.pair.swaps.filter fun x => p x.2
  let s := { s with pair := { s.pair with swaps := s.pair.swaps.filter fun x => !p x.2 } }
  l.foldl (fun (s : State) x => s.complete x.1 st
    (if st = stOK then [s.ownClaim, s.peerClaim, 0, 0, 0, 0, 0, 0] ++ le 8 x.2 else [])) s

/-- The second heartbeat boundary after tick `d` (R497). -/
def secondBeat (d : Nat) : Nat := (d / 64 + 2) * 64

/-- The active decides a handover: the delta epoch, then the message that names T_h (R497). -/
def State.decideHandover (s : State) : State :=
  let d := s.clk.tick
  let th := secondBeat d
  let s := s.startEpoch false none
  let s := { s with pair := { s.pair with handover := some ⟨d, th, true, false, s.tme.steps, s.pair.peerSteps⟩ } }
  (s.setReg .PAIR_HANDOVER_TICK 0 th).sendHandover 2 th d

/-- A handover that has not passed T_h is given up (R498). -/
def State.abortHandover (s : State) : State :=
  match s.pair.handover with
  | none => s
  | some h => ((({ s with pair := { s.pair with handover := none } } : State).e206 2 h.th h.d)).endSwaps (· == h.th) stFROZEN

/-- HANDOVER_INSTANT: at T_h roles change, or the handover aborts (R497, R498); a handover that reverses one whose gates still
wait ends that one (R499). -/
def doHandoverInstant (s : State) : State :=
  match s.pair.handover with
  | none => s
  | some h =>
    if s.clk.cycle ≠ 0 ∨ s.clk.tick < h.th then s
    else if !h.acked ∨ !s.mywynUp ∨ s.tme.steps ≠ h.steps ∨ s.pair.peerSteps ≠ h.peer then s.abortHandover
    else
      let s := match s.pair.ending with
        | some e => s.e206 3 e.1 e.2
        | none => s
      ({ s with pair := { s.pair with handover := none, ending := some (h.th, h.d) } } : State).setRole (!h.active) 2

def execHandoverInstant (s : State) : Res := run doHandoverInstant s

/-- A shared output still waits for a falling edge to change its gate. -/
def State.gatesPending (s : State) : Bool :=
  (List.range 16).any fun n => s.shared n && s.outState n != 0 && s.claimGate n != s.gateWanted n

/-- HANDOVER_END: the boundary after the last gate change (R497, R500). -/
def doHandoverEnd (s : State) : State :=
  match s.pair.ending with
  | none => s
  | some e =>
    if s.clk.cycle ≠ 0 ∨ s.gatesPending then s
    else
      let th := (s.pair.handover.map Handover.th).getD 0
      ((({ s with pair := { s.pair with ending := none } } : State).e206 1 e.1 e.2)).endSwaps (fun t => t != th) stOK

def execHandoverEnd (s : State) : Res := run doHandoverEnd s

/-- The standby holds the last complete epoch, as this unit knows it (R144). -/
def State.copyGood (s : State) : Bool :=
  if s.active then s.reg .PAIR_EPOCH_SENT_EPOCH != 0 && s.pair.peerHeld == s.reg .PAIR_EPOCH_SENT_EPOCH
  else s.pair.held && s.pair.peerHeld == s.reg .PAIR_EPOCH_HELD_EPOCH

/-- A handover of this tick that the active has already decided for its partner's request: a swap joins it (R500). -/
def State.joinsSwap (s : State) : Bool :=
  match s.pair.handover with
  | some h => h.d == s.clk.tick && h.active && s.pair.swaps.isEmpty
  | none => false

/-- PAIR_SWAP (R144, R497, R500). -/
def specPairSwap : Spec :=
  { opc := 0x50
    chk := fun s =>
      let busy := (s.pair.handover.isSome || s.pair.ending.isSome) && !s.joinsSwap
      { own := if s.pairState != 2 || busy || !(s.copyGood || s.joinsSwap) then some stFROZEN else none }
    work := fun id s =>
      let d := s.clk.tick
      let s :=
        if s.joinsSwap then s
        else if s.active then s.decideHandover
        else ({ s with pair := { s.pair with handover := some ⟨d, secondBeat d, false, false, s.tme.steps, s.pair.peerSteps⟩ } } : State).sendHandover
          1 (secondBeat d) d
      { s with pair := { s.pair with swaps := s.pair.swaps ++ [(id, (s.pair.handover.map Handover.th).getD 0)] } } }

def execPairSwap (h : Hdr) (s : State) : Res := s.issue h (.pairSwap h) specPairSwap

/-- A HANDOVER message arrives (R497). -/
def State.takeHandover (s : State) (epoch : Nat) (payload : List Nat) : State :=
  let w := payload.headD 0
  let th := w % 2 ^ 64
  let d := payload.getD 1 0 % 2 ^ 64
  match w / 2 ^ 124 with
  | 1 => if s.active ∧ s.pairState = 2 ∧ s.pair.handover = none ∧ s.pair.ending = none then s.decideHandover else s
  | 2 =>
    if s.active then s
    else
      let own := (s.pair.handover.map Handover.th).getD 0
      let s := { s with pair := { s.pair with
        handover := some ⟨d, th, false, false, s.tme.steps, s.pair.peerSteps⟩
        swaps := s.pair.swaps.map fun (x : Nat × Nat) => if x.2 = own then (x.1, th) else x } }
      let s := s.setReg .PAIR_HANDOVER_TICK 0 th
      if s.pair.held ∧ s.reg .PAIR_EPOCH_HELD_EPOCH = epoch then s.acknowledge else s
  | 3 => match s.pair.handover with
    | some h => if h.active ∧ h.th = th then { s with pair := { s.pair with handover := some { h with acked := true } } } else s
    | none => s
  | _ => s

/-- PAIR_COPY (R145, R503). -/
def specPairCopy (h : Hdr) (all : Bool) : Spec :=
  { opc := 0x51
    chk := fun s => { noRoom := (s.freeSlot h.fn).isNone }
    work := fun id s => s.startOp h id 0x51 [b2n all] fun k s => if s.mywynUp then s.startEpoch all (some k) else s }

def execPairCopy (h : Hdr) (all : Bool) (s : State) : Res := s.issue h (.pairCopy h all) (specPairCopy h all)

/-! ### Claim sources (R485, R486, R501) -/

/-- Equal straps: both units enter CONFLICT (the case of R485). -/
def State.conflict (s : State) : State :=
  if s.pairState = 0 ∨ s.pairState = 5 then s
  else
    let s := { s with pair := { s.pair with inn := none, ready := none } }
    ((s.setRegs [(.PAIR_STATUS_STATE, 0, 5), (.PAIR_STATUS_ROLE, 0, 0)]).publish).ev 212 [(1, 1), (4, 0)]

/-- A valid claim arrives from a source: 0 CLAIM_RX, 1 Mywyn. -/
def State.claimIn (s : State) (src c : Nat) : State :=
  let s := { s with pair := { s.pair with claim := tset 0 src (c + 1) s.pair.claim, missed := tset 0 src 0 s.pair.missed } }
  let s := if src = 0 then s.setReg .PAIR_PATHS_CLAIM_RX 0 1 else s
  let s := if s.pair.told ∧ src = 1 then s else s.setPeer c (src + 1)
  if c ≠ 0 ∧ c % 2 = s.reg .SYS_STRAPS_UNIT_ID then s.conflict else s

/-- The 32 bits of a claim frame (R486): SYNC, CLAIM, ALIVE and the CRC-8 of R166 over the two. -/
def claimFrame (c alive : Nat) : Nat :=
  0xA5 * 2 ^ 24 + c % 256 * 2 ^ 16 + alive % 256 * 2 ^ 8 + crcBytes 8 0x07 false 0 [c % 256, alive % 256]

/-- CLAIM_FRAME_RECEIVE: a frame whose SYNC or CRC is wrong is no claim; a repeat is discarded, a skip counted (R486). -/
def doClaimFrameReceive (frame : Nat) (s : State) : State :=
  let c := frame / 2 ^ 16 % 256
  let a := frame / 2 ^ 8 % 256
  if frame ≠ claimFrame c a then s
  else if s.pair.alive = a + 1 then s.tally 9 2 2 0 0 0 1
  else
    let skip := if s.pair.alive = 0 then 0 else (a + 256 - s.pair.alive) % 256
    let s := ({ s with pair := { s.pair with alive := a + 1 } } : State).tally 9 2 1 0 0 0 1
    (s.tally 9 2 3 0 0 0 skip).claimIn 0 c

/-- The frame is given by its SYNC byte, its CLAIM byte, and ALIVE and the CRC-8 as 16 bits. -/
def execClaimFrameReceive (sync claim tail : Nat) (s : State) : Res :=
  run (doClaimFrameReceive (sync * 2 ^ 24 + claim * 2 ^ 16 + tail)) s

/-- The partner's claim is lost: a standby with a RANK takes over (R501), and the claim is published at once (R484). -/
def State.claimLost (s : State) : State :=
  let last := s.peerClaim
  let s := (s.setPeer 0 0).dropEpoch 2
  if s.active ∨ s.pairState < 2 ∨ s.pairState = 5 ∨ s.reg .PAIR_CFG_RANK = 0 then s.publish
  else
    let s := match s.pair.ready with
      | some e => s.applyEpoch e
      | none => s
    if s.pair.held then s.setRole true 3
    else (((({ s with pair := { s.pair with named := false } } : State).setReg .PAIR_STATUS_ROLE 0 1).publish).fig fun q => { q with roleChg := q.roleChg + 1 }).ev 213 [(1, last)]

/-- CLAIM_SOURCE_EXPIRY: 4 frames expected of a source have not come (R485). -/
def doClaimSourceExpiry (src : Nat) (s : State) : State :=
  if s.clk.cycle ≠ 0 ∨ 1 < src ∨ tget 0 s.pair.claim src = 0 ∨ tget 0 s.pair.missed src < 4 then s
  else
    let s := { s with pair := { s.pair with claim := tdel src s.pair.claim, missed := tdel src s.pair.missed, differ := 0, told := false } }
    let s := if src = 0 then s.setReg .PAIR_PATHS_CLAIM_RX 0 0 else s
    let other := tget 0 s.pair.claim (1 - src)
    if other = 0 then s.claimLost
    else if s.reg .PAIR_STATUS_PEER_SRC = src + 1 then s.setPeer (other - 1) (2 - src)
    else s

def execClaimSourceExpiry (src : Nat) (s : State) : Res := run (doClaimSourceExpiry src) s

/-- CLAIM_MISMATCH: the sources have differed for more than 2 ticks; CLAIM_RX is used (R485). -/
def doClaimMismatch (s : State) : State :=
  if s.clk.cycle ≠ 0 ∨ s.pair.differ ≤ 2 ∨ s.pair.told then s
  else
    let a := tget 0 s.pair.claim 0 - 1
    let b := tget 0 s.pair.claim 1 - 1
    (({ s with pair := { s.pair with told := true } } : State).setPeer a 1).ev 211 [(1, a), (1, b)]

def execClaimMismatch (s : State) : Res := run doClaimMismatch s

/-! ### Heartbeats and verdicts (R490-R494, R502) -/

/-- The payload of a HEARTBEAT (R490). -/
def State.heartbeat (s : State) : List Nat :=
  let held := if s.active then s.reg .PAIR_EPOCH_SENT_EPOCH else s.reg .PAIR_EPOCH_HELD_EPOCH
  [s.ownClaim * 2 ^ 120 + b2n s.active * 2 ^ 119 + s.pairState * 2 ^ 116 + s.tme.steps % 256 * 2 ^ 108 + held * 2 ^ 64 +
    s.wrapNs * 2 ^ 32 + s.pair.tSend, s.pair.tArr * 2 ^ 96]

/-- A unit that JOINs decides its role once the partner's claim is known (R494). -/
def State.decideRole (s : State) : State :=
  if s.reg .PAIR_STATUS_PEER_SRC = 0 then { s with pair := { s.pair with joined := s.pair.joined + 1 } }
  else if 0xF0 ≤ s.peerClaim ∨ s.ownClaim ≤ s.peerClaim then s.setReg .PAIR_STATUS_STATE 0 3
  else (s.setReg .PAIR_STATUS_STATE 0 3).setRole true 1

/-- HEALTH is published, unless that would alter which claim beats (R484). -/
def State.publishHealth (s : State) (h : Nat) : State :=
  let c := s.mkClaim h
  if (s.peerClaim < s.ownClaim) = (s.peerClaim < c) then s.setOwn c else s

/-- The active's HEALTH is below its partner's: it hands over, if the Mywyn path is up (R483, R498). -/
def State.healthHandover (s : State) (h : Nat) : State :=
  if !s.active ∨ s.reg .PAIR_STATUS_PEER_SRC = 0 ∨ s.reg .PAIR_HEALTH_PEER ≤ h ∨ s.pair.handover.isSome then s
  else if s.mywynUp then s.decideHandover
  else s.e206 4 0 s.clk.tick

/-- Consecutive misses of a path: 0 Mywyn, 1 in-band. -/
def State.misses (s : State) (p : Nat) : Nat := if p = 0 then s.reg .PAIR_PATHS_MYW_MISS else s.reg .PAIR_PATHS_INB_MISS

/-- A path is judged: a hit when a heartbeat has come in the last 96 ticks (R492). -/
def State.judgePath (s : State) (p : Nat) : State :=
  let at_ := tget 0 s.pair.hbAt p
  let hit := at_ != 0 && decide (s.clk.tickCount + 1 ≤ at_ + 96)
  let f := if p = 0 then Fld.PAIR_PATHS_MYW_MISS else .PAIR_PATHS_INB_MISS
  if hit then
    (({ s with pair := { s.pair with hits := tupd 0 p (satAdd 4 · 1) s.pair.hits } } : State).setReg f 0 0).tally 9 1 2 0 0 p 1
  else ((({ s with pair := { s.pair with hits := tdel p s.pair.hits } } : State).fig fun q => { q with hbMiss := q.hbMiss + 1 }).countReg f 0 1).tally 9 1 3 0 0 p 1

/-- Ticks since the last heartbeat on any path. -/
def State.sinceBeat (s : State) : Nat := s.clk.tickCount + 1 - max (tget 0 s.pair.hbAt 0) (tget 0 s.pair.hbAt 1)

/-- DEGRADED is entered: E202 names the path that missed (1 Mywyn, 2 in-band, 0 none). -/
def State.degraded (s : State) : State :=
  let p := if s.misses 0 ≠ 0 then 1 else if s.misses 1 ≠ 0 then 2 else 0
  (s.setReg .PAIR_STATUS_STATE 0 3).ev 202 [(1, p), (4, if p = 0 then 0 else s.misses (p - 1))]

/-- The state follows the verdicts (R493). -/
def State.verdict (s : State) : State :=
  let h (p : Nat) := tget 0 s.pair.hits p
  match s.pairState with
  | 2 => if h 0 = 0 ∨ h 1 = 0 then s.degraded else s
  | 3 =>
    if 4 ≤ h 0 ∧ 4 ≤ h 1 then s.setReg .PAIR_STATUS_STATE 0 2
    else if 4 ≤ s.misses 0 ∧ 4 ≤ s.misses 1 then (s.setReg .PAIR_STATUS_STATE 0 4).ev 203 [(1, 1), (4, s.sinceBeat)]
    else s
  | 4 => if h 0 ≠ 0 ∨ h 1 ≠ 0 then (s.ev 203 [(1, 2), (4, s.sinceBeat)]).degraded else s
  | _ => s

/-- HEARTBEAT_BOUNDARY (R492): every 64 ticks HEALTH is sampled, roles are judged, heartbeats are sent, and each path gets its
verdict. A number that a backward step brings again is due again (DESIGN CHOICE, log entry 148). -/
def doHeartbeatBoundary (s : State) : State :=
  let at_ := s.clk.tickCount + 1
  if s.clk.cycle ≠ 0 ∨ s.clk.tick % 64 ≠ 0 ∨ s.pair.hbDone = at_ ∨ s.pairState = 0 ∨ s.pairState = 5 then s
  else
    let s := { s with pair := { s.pair with hbDone := at_ } }
    let h := s.sampleHealth
    let s := s.setReg .PAIR_HEALTH_OWN 0 h
    let joining := s.pairState == 1
    let s := (s.publishHealth h)
    let s := if joining then s.decideRole else s.healthHandover h
    let s := (s.mywynSend 2 0 s.heartbeat true).tally 9 1 1 0 0 1 1
    let s := if s.mywynUp then s.tally 9 1 1 0 0 0 1 else s
    let s := (s.judgePath 0).judgePath 1
    if joining then (if s.pairState = 3 then s.degraded else s) else s.verdict

def execHeartbeatBoundary (s : State) : Res := run doHeartbeatBoundary s

/-- JOIN_WAIT_EXPIRY: no partner claim in JOIN_WAIT heartbeats: ALONE, as active (R493). -/
def doJoinWaitExpiry (s : State) : State :=
  if s.clk.cycle ≠ 0 ∨ s.pairState ≠ 1 ∨ s.reg .PAIR_STATUS_PEER_SRC ≠ 0 ∨ s.pair.joined < max 1 (s.reg .PAIR_CFG_JOIN_WAIT) then s
  else (s.setReg .PAIR_STATUS_STATE 0 4).setRole true 1

def execJoinWaitExpiry (s : State) : Res := run doJoinWaitExpiry s

/-- The two units are active at once: the one of the lower claim returns to standby (R502). -/
def State.split (s : State) (c : Nat) : State :=
  let s := (s.ev 207 [(1, s.ownClaim), (1, c)]).tally 9 7 1 0 0 0 1
  if s.ownClaim < c then s.setRole false 4 else s

/-- A valid heartbeat is taken (R490): `path` 0 Mywyn, 1 in-band. -/
def State.takeHeartbeat (s : State) (path at_ : Nat) (payload : List Nat) : State :=
  let w := payload.headD 0
  let tSend := w / 2 ^ 32 % 2 ^ 32
  let echo := w % 2 ^ 32
  let echoRx := payload.getD 1 0 / 2 ^ 96 % 2 ^ 32
  let v := at_ + 2 ^ 33 - tSend - (echoRx + 2 ^ 32 - echo) % 2 ^ 32
  let s := s.setReg .PAIR_TOFS_NS 0 (unsgn 32 (sgn 32 v / 2))
  let s := if s.pair.handover.isSome ∧ s.pair.peerSteps ≠ w / 2 ^ 108 % 256 then s.abortHandover else s
  let s := { s with pair := { s.pair with
    hbAt := tset 0 path (s.clk.tickCount + 1) s.pair.hbAt
    peerSteps := w / 2 ^ 108 % 256, peerHeld := w / 2 ^ 64 % 2 ^ 32, tSend := tSend, tArr := at_ } }
  let c := w / 2 ^ 120 % 256
  if path = 1 ∧ 0xF0 ≤ c ∧ s.active then s.split c else s

/-- A message whose check value and alive count are good is taken by its TYPE (R488, R489); those of TYPE 6 reach the mailboxes
by their own rows. -/
def State.takeMessage (s : State) (lane at_ : Nat) (m : MyMsg) : State :=
  let s := if lane < 2 then s.tally 9 3 1 m.ty 1 lane 1 else s
  match m.ty with
  | 1 => s.claimIn 1 (m.payload.headD 0 / 2 ^ 120 % 256)
  | 2 => s.takeHeartbeat (if lane < 2 then 0 else 1) at_ m.payload
  | 3 => if s.active then s else s.epochData m.epoch m.payload
  | 4 => s.epochEnd m.epoch m.payload
  | 5 => s.takeHandover m.epoch m.payload
  | _ => s

/-- HEARTBEAT_FRAME_RECEIVE: the message of an in-band frame waits for the receive check unit (R489, R491). -/
def doHeartbeatFrameReceive (m : MyMsg) (check alive : Nat) (s : State) : State :=
  s.queueJob (s.reg .PAIR_CFG_CHK_RX) 2 0 (.receive 2 m check (alive % 256) s.wrapNs)

def execHeartbeatFrameReceive (m : MyMsg) (check alive : Nat) (s : State) : Res := run (doHeartbeatFrameReceive m check alive) s

/-- MYWYN_MESSAGE_RECEIVE on an aligned lane (R489). -/
def doMywynMessageReceive (lane : Nat) (m : MyMsg) (check alive : Nat) (s : State) : State :=
  let up := if lane = 0 then s.flag .PAIR_PATHS_MY0 else lane == 1 && s.flag .PAIR_PATHS_MY1
  if up then s.queueJob (s.reg .PAIR_CFG_CHK_RX) 2 (lane * 8 + m.ty % 8) (.receive lane m check (alive % 256) s.wrapNs) else s

def execMywynMessageReceive (lane : Nat) (m : MyMsg) (check alive : Nat) (s : State) : Res :=
  run (doMywynMessageReceive lane m check alive) s

/-- The receive check unit has a message's value (R489): E210 for a bad one, a repeat is discarded. -/
def State.messageChecked (s : State) (n lane at_ ctx : Nat) (m : MyMsg) (good : Bool) (alive : Nat) : State :=
  let q := s.judgeAlive n ctx good alive
  match q.2 with
  | 4 => (q.1.evT 210 [(2, lane, .keep), (1, m.ty, .keep), (4, 1, .sum)]).tally 9 4 1 0 1 lane 1
  | 2 => q.1
  | _ => q.1.takeMessage lane at_ m

/-! ### Lanes (R487) -/

def myFlag (k : Nat) : Fld := if k = 0 then .PAIR_PATHS_MY0 else .PAIR_PATHS_MY1

/-- E209 of a lane, with the slips its search has used. -/
def State.e209 (s : State) (k : Nat) : State := s.ev 209 [(2, 258 + k), (4, tget 0 s.pair.slips k)]

/-- MARKER_ALIGNMENT_LOSS: 4 marker positions fail; the search restarts (R487). When no lane is left the path is down (R498, R505, R531). -/
def doMarkerAlignmentLoss (k : Nat) (s : State) : State :=
  if 1 < k ∨ !s.flag (myFlag k) then s
  else
    let s := { s with pair := { s.pair with slips := tdel k s.pair.slips, slipAt := tset 0 k (s.clk.tickCount + 1) s.pair.slipAt } }
    let s := (s.setReg (myFlag k) 0 0).e209 k
    if s.mywynUp then s else (s.dropEpoch 1).abortHandover.mbxPathDown

def execMarkerAlignmentLoss (k : Nat) (s : State) : Res := run (doMarkerAlignmentLoss k) s

/-- One boundary of the search on lane `k`: a lane that is not RAW has lost its alignment; matches of a whole tick end it, else the boundary slips every second tick. -/
def State.searchTick (s : State) (k : Nat) : State :=
  let i := 258 + k
  let s := if s.laneState i = 10 then s else doMarkerAlignmentLoss k s
  if s.flag (myFlag k) ∨ s.laneState i ≠ 10 ∨ s.clk.tickCount + 1 < tget 0 s.pair.slipAt k + 2 then s
  else if s.reg .LN_RAW_MATCH_COUNT i ≠ 0 then (s.setReg (myFlag k) 0 1).e209 k
  else
    let s := (s.setReg .LN_SLIP_CUM i (slipSum (s.rawWidth i) (s.reg .LN_SLIP_CUM i) 2 true)).tally1 10 5 i
    { s with pair := { s.pair with
      slips := tupd 0 k (· + 1) s.pair.slips, slipAt := tset 0 k (s.clk.tickCount + 1) s.pair.slipAt } }

/-! ### The driver watch (R506) -/

/-- The instant, in grains, by which output `n` must have shown its edges after its gate has opened at `g`: 2 periods or 1 tick for
a CLKOUT, the next scheduled rising edge for a TIO output (R506). -/
def State.watchEnd (s : State) (n g : Nat) : Nat :=
  if n < 8 then g + max (2 * s.outPeriod n * 65536 / (1000 * outUnit)) (1000 * 65536)
  else tioEdge (s.tioSettings (n - 8)) g

/-- DRIVER_WATCH: a newly driven output has shown no edges at its ball in time (R506). -/
def doDriverWatch (n : Nat) (s : State) : State :=
  let at_ := (s.outPin n).opened
  if 16 ≤ n ∨ !s.shared n ∨ !s.claimGate n ∨ s.outState n = 0 ∨ at_ = 0 ∨ s.grains < s.watchEnd n (at_ - 1) then s
  else
    let s := s.setPin n { s.outPin n with opened := 0 }
    let f := if n < 8 then Fld.PAIR_HEALTH_DRV_CLK else .PAIR_HEALTH_DRV_TIO
    ((s.hwSet f 0 (outBit n)).evT 208 [(1, outBit n, .or)]).tally 9 8 1 0 0 n 1

def execDriverWatch (n : Nat) (s : State) : Res := run (doDriverWatch n) s

/-! ### The boundary -/

/-- The marker that the pair unit loads into LN_RAW_MARKER (R487). -/
def mywynMarker : Nat := 0x5A3C96E10F87D24B

/-- The Mywyn lanes run raw at rung 4 (R184): one that is idle starts its bring-up (log entry 157). -/
def State.mywynStart (s : State) : State :=
  [258, 259].foldl (fun (s : State) i => if s.laneState i ≤ 1 then s.laneStart i 2 4 4 (s.attemptsDefault i) 0 else s) s

/-- EN 1 applies: JOINING (R493, R494). -/
def State.pairJoin (s : State) : State :=
  let s := s.mywynStart
  let s := { s with pair := { s.pair with joined := 0, hits := [], ending := none } }
  let s := (s.setRegs [(.PAIR_STATUS_STATE, 0, 1), (.PAIR_STATUS_ROLE, 0, 0), (.LN_RAW_MARKER_MARKER, 258, mywynMarker),
    (.LN_RAW_MARKER_MARKER, 259, mywynMarker), (.PAIR_HEALTH_OWN, 0, s.sampleHealth)]).publish
  let c := s.peerClaim
  if c ≠ 0 ∧ c % 2 = s.reg .SYS_STRAPS_UNIT_ID then s.conflict else s

/-- EN 0 applies: OFF. -/
def State.pairOff (s : State) : State :=
  let s := s.abortHandover
  let s := { s with pair := { s.pair with ending := none, inn := none, ready := none } }
  ((s.endSwaps (fun _ => true) stFROZEN).setRegs [(.PAIR_STATUS_STATE, 0, 0), (.PAIR_STATUS_ROLE, 0, 0)]).publish

/-- The pair unit's work at a boundary: EN, claims out (R486), what each source owes (R485), the searches of R487, and
PAIR_COPYs that wait for the path. -/
def State.pairTick (s : State) : State :=
  let en := s.flag .PAIR_CFG_EN
  let s := if en ∧ s.pairState = 0 then s.pairJoin else if !en ∧ s.pairState ≠ 0 then s.pairOff else s
  let a := tget 0 s.pair.claim 0
  let b := tget 0 s.pair.claim 1
  let differ := a != 0 && b != 0 && a != b
  let s := { s with pair := { s.pair with
    missed := s.pair.claim.foldl (fun t x => tupd 0 x.1 (· + 1) t) s.pair.missed
    differ := if differ then s.pair.differ + 1 else 0
    told := s.pair.told && differ } }
  if s.pairState = 0 then s
  else
    let s := s.emit (.claim (claimFrame s.ownClaim s.clk.tick))
    let s := if s.mywynUp then s.mywynSend 1 0 [s.ownClaim * 2 ^ 120] false else s
    let s := (s.searchTick 0).searchTick 1
    if !s.mywynUp then s
    else s.hst.ops.foldl (fun (s : State) x =>
      if x.2.live ∧ x.2.state = 2 ∧ x.2.opcode = 0x51 ∧ x.2.ended = none ∧ !(s.pair.outs.any fun e => e.slot == some x.1) then
        s.startEpoch (x.2.args.headD 0 == 1) (some x.1)
      else s) s

end Machine
end Sys2Proof
end

