-- ==== Sys2Proof/Machine/Control.lean ====
section
/-!
DEFINITION. The commands that act on long operations (R115-R117), their states at a boundary, their ends; NOP and SCRUB.
-/
namespace Sys2Proof
namespace Machine

/-- NOP (R122). -/
def specNop : Spec := { opc := 0x01, chk := fun _ => {}, work := fun id s => s.complete id stOK [] }

def execNop (h : Hdr) (s : State) : Res := s.issue h (.nop h) specNop

/-! ### SCRUB (R148) -/

/-- The stores that damage of SCRUB is found in, by the bit of TARGETS: tables 0 to 6 of R106 (the flow store with its
cache), 9 a window line (pair * 8 + line), 10 a flow's counter record. -/
def scrubBits (t : Nat) : List Nat :=
  match t with | 0 => [0] | 1 => [1] | 2 => [2] | 3 => [3, 4] | 4 => [5] | 5 => [6] | 6 => [7] | 9 => [8] | 10 => [9] | _ => []

/-- Line `j` of pair `w` fails its parity in a scrub: it is rewritten as R362 states, for the block of sequence numbers that
the line holds at HEAD. -/
def State.windowDamage (s : State) (w j : Nat) : State :=
  let r := s.pairRec w
  let lap := if j ≤ seqLine r.head then r.head / 4096 else (r.head / 4096 + 15) % 16
  let q := lap * 4096 + 512 * j
  let s := (s.setPairRec w (r.setTag j (seqTag q))).setWindow w j (lineReset r.head q)
  (s.guard 0x12 1).ev 128 [(1, 1), (4, w), (2, j)]

/-- A flow's counter record fails: its counts restart (R559). -/
def State.countDamage (s : State) (i : Nat) : State :=
  let s := { s with cls := { s.cls with cnt := tset FlowCnt.zero i { FlowCnt.zero with invalid := true } s.cls.cnt } }
  (s.evT 234 [(4, i, .keep), (4, 1, .sum)]).guard 3 1

/-- Damage a SCRUB finds is handled as R39 states. -/
def State.scrubDamage (s : State) (t i : Nat) : State :=
  match t with
  | 9 => s.windowDamage (i / 8) (i % 8)
  | 10 => s.countDamage i
  | _ => s.entryDamage t i s.sys.genSeq

def specScrub (h : Hdr) (targets : Nat) : Spec :=
  { opc := 0x80
    chk := fun s => { badField := decide (2 ^ 10 ≤ targets), noRoom := (s.freeSlot h.fn).isNone }
    work := fun id s => s.startOp h id 0x80 [targets] fun _ s => s }

def execScrub (h : Hdr) (targets : Nat) (s : State) : Res := s.issue h (.scrub h targets) (specScrub h targets)

/-! ### OP_SUSPEND, OP_RESUME, OP_CANCEL (R117) -/

/-- The handle names an operation: its slot has been used under this function and serial number, and a VF names its own. -/
def State.handleOk (s : State) (fn handle : Nat) : Bool :=
  let o := s.op (handle % 32)
  decide (handle < 2 ^ 32) && o.state != 0 && o.fn == handle / 32 % 16 && o.serial % 2 ^ 23 == handle / 512 &&
    (fn == 0 || o.fn == fn)

/-- A request of kind 1 suspend, 2 resume or 3 cancel waits for the boundary; one for an operation that has ended changes
nothing and completes at once. -/
def specOpControl (h : Hdr) (opc kind handle : Nat) : Spec :=
  { opc := opc
    chk := fun s => { badField := !s.handleOk h.fn handle }
    work := fun id s =>
      let o := s.op (handle % 32)
      if o.live then s.setOp (handle % 32) { o with reqs := o.reqs ++ [(kind, id)] } else s.complete id stOK [] }

def execOpSuspend (h : Hdr) (handle : Nat) (s : State) : Res := s.issue h (.opSuspend h handle) (specOpControl h 0xA0 1 handle)
def execOpResume (h : Hdr) (handle : Nat) (s : State) : Res := s.issue h (.opResume h handle) (specOpControl h 0xA1 2 handle)
def execOpCancel (h : Hdr) (handle : Nat) (s : State) : Res := s.issue h (.opCancel h handle) (specOpControl h 0xA2 3 handle)

/-! ### Cancels (R116, R122) -/

/-- The job of a CHK_RUN in slot `k` leaves its unit. -/
def State.dropRun (s : State) (k : Nat) : State :=
  let n := (s.op k).args.getD 0 0
  let mine (j : Job) : Bool := match j.use with | .run x => x == k | _ => false
  let s : State := { s with chk := { s.chk with queue := tset [] n ((s.jobsOf n).filter fun j => !mine j) s.chk.queue } }
  match s.jobOf n with
  | some j => if mine j then s.nextOnUnit n else s.showUnit n
  | none => s.showUnit n

/-- A cancel takes effect on slot `k`: what R122 lets it leave. The outcome of a sweep, a scrub or a check over host memory
comes with LONG_OP_DONE. -/
def State.cancelOp (s : State) (k : Nat) : State :=
  let o := s.op k
  match o.opcode with
  | 0x13 => if s.bulkArg k 3 ≠ 0 then s else s.bulkStop k stPARTIAL (if o.hold then s.bulkArg k 0 + s.bulkArg k 4 else max o.next (s.bulkArg k 0))
  | 0x21 =>
    let i := o.args.getD 0 0
    (s.endOp k stPARTIAL [s.reg .LN_STATUS_RUNG i, s.reg .LN_STATUS_MERIT i, s.reg .LN_STATUS_ATTEMPTS i, 2]).setLane i
      { s.lane i with op := 0, stopped := true }
  | 0x51 => (s.cancelCopy k).endOp k stPARTIAL (le 4 (s.reg .PAIR_EPOCH_SENT_EPOCH))
  | 0x60 => (s.dropRun k).setOp k { o with cancelled := true }
  | 0x70 => s.endOp k stPARTIAL (s.exportResult o)
  | 0xB0 =>
    let slot := o.args.getD 3 0
    (s.setSlot slot none).endOp k stPARTIAL (fwResult 0 slot false)
  | _ => s.setOp k { o with cancelled := true }

/-- End state of a status: CANCELLED for DONE_PARTIAL, FAILED for HW_FAULT, else DONE. -/
def endState (st : Nat) : Nat := if st = stPARTIAL then 5 else if st = stHWFAULT then 6 else 4

/-- An operation whose end is known is finished; one that an FLR cancelled is finished without its outcome (R118). -/
def State.cancelled (s : State) (k : Nat) : State :=
  let s := s.cancelOp k
  let o := s.op k
  match o.ended with
  | some st => s.finishOp k (endState st) st o.result
  | none => if o.silent ∧ o.cancelled then s.finishOp k 5 stPARTIAL [] else s

/-! ### The boundary (R116) -/

/-- The requests of slot `k` without a cancel take effect in order. OP_SUSPEND of one already suspended completes SUSPENDED, and
its suspended ticks count anew (DESIGN CHOICE, log entry 172). -/
def State.opRequests (s : State) (k : Nat) : State :=
  let l := (s.op k).reqs
  let s := s.setOp k { s.op k with reqs := [] }
  l.foldl (fun (s : State) q =>
    let o := s.op k
    if q.1 = 1 then ((s.setOp k { o with state := 3, suspTicks := 0 }).showOp k).complete q.2 stSUSPENDED []
    else
      let s := ((s.setOp k { o with state := 2 }).showOp k).complete q.2 stOK []
      let n := o.args.getD 0 0
      if o.opcode = 0x60 ∧ (s.jobOf n).isNone then s.nextOnUnit n else s) s

/-- Slot `k` at a boundary: ACCEPTED becomes RUNNING; a cancel wins over the other requests; an operation whose work has
ended keeps its requests for its final completion. -/
def State.opTick (s : State) (k : Nat) : State :=
  let o := s.op k
  if !o.live then s
  else
    let s := if o.state = 1 then (s.setOp k { o with state := 2 }).showOp k else s
    let s := if o.state = 3 then s.setOp k { o with suspTicks := o.suspTicks + 1 } else s
    let o := s.op k
    if o.ended.isSome ∨ o.cancelled ∨ (o.opcode = 0x13 ∧ s.bulkArg k 3 ≠ 0) then s
    else if o.reqs.any (fun q => q.1 == 3) then s.cancelled k
    else if o.reqs.isEmpty then s
    else s.opRequests k

def State.opsTick (s : State) : State := (List.range 32).foldl (fun (s : State) k => s.opTick k) s

/-- SUSPEND_TIMEOUT: a suspended operation reaches HST_LONG_SUSP_LIMIT ticks and is cancelled. -/
def doSuspendTimeout (k : Nat) (s : State) : State :=
  let o := s.op k
  let lim := s.reg .HST_LONG_SUSP_LIMIT_TICKS
  if s.clk.cycle = 0 ∧ o.state = 3 ∧ lim ≠ 0 ∧ lim ≤ o.suspTicks ∧ o.ended.isNone ∧ !o.cancelled then s.cancelled k else s

def execSuspendTimeout (slot : Nat) (s : State) : Res := run (doSuspendTimeout slot) s

/-! ### LONG_OP_DONE (R116) -/

/-- The work of a SCRUB has ended: the damage found is handled, and the result gives the lines checked and the damage found. -/
def State.scrubEnds (s : State) (k st : Nat) (r : OpEnd) : State :=
  let l := r.damage.filter fun x => (scrubBits x.1).any fun b => bit ((s.op k).args.getD 0 0) b
  (l.foldl (fun (s : State) x => s.scrubDamage x.1 x.2) s).endOp k st (le 4 r.a ++ le 4 l.length)

/-- The work of a LANE_SWEEP has ended: its records are written, the lane returns to its point, and the result gives the
points written. -/
def State.sweepEnds (s : State) (k st : Nat) (r : OpEnd) : State :=
  let a := (s.op k).args
  let l := s.sweepRecords (a.getD 0 0) (a.getD 1 0) (a.getD 2 0) r.points
  ((s.emit (.hostWrite (a.getD 3 0) l.flatten)).sweepReturn a).endOp k st (le 2 l.length)

/-- The operation whose work has ended leaves its slot. -/
def State.finishEnded (s : State) (k : Nat) : State :=
  let o := s.op k
  match o.ended with
  | some st => s.finishOp k (endState st) st o.result
  | none => s

/-- The work of a running SCRUB, LANE_SWEEP or FW_UPDATE ends within a tick: it has taken its last share, and the boundary
ends it (R116, the case under R117). -/
def State.workEnds (s : State) (k : Nat) (r : OpEnd) : State :=
  let o := s.op k
  let st := if r.fault then stHWFAULT else stOK
  if o.state ≠ 2 ∨ o.ended.isSome ∨ o.cancelled then s
  else match o.opcode with
    | 0x80 => s.scrubEnds k st r
    | 0x22 => s.sweepEnds k st r
    | 0xB0 => if r.fault then s.endOp k stHWFAULT (fwResult r.a (o.args.getD 3 0) false) else s.fwDone k r.a (r.b == 1) r.data
    | _ => s

/-- What a cancelled operation leaves where nothing says what it had done by then: free values (R122, log entry 44). -/
def State.openResult (s : State) (k : Nat) : List Nat :=
  let v := Config.freeField s.freeCtr
  match (s.op k).opcode with
  | 0x80 => le 4 v ++ le 4 0
  | 0x22 => le 2 (v % ((s.op k).args.getD 2 0 + 1))
  | _ => le 8 v ++ le 4 (Config.freeField (s.freeCtr + 1)) ++ [(s.op k).args.getD 0 0]

/-- Operations whose end this boundary makes and whose row has not come end before time leaves it (R116). -/
def State.opSettled (s : State) (k : Nat) : State :=
  let o := s.op k
  if !o.live then s
  else match o.ended with
    | some st => if o.state = 3 then s else s.finishOp k (endState st) st o.result
    | none =>
      if o.cancelled then
        ((if o.opcode = 0x22 then s.sweepReturn o.args else s).finishOp k 5 stPARTIAL (s.openResult k)).fresh.fresh
      else s

def State.opsSettled (s : State) : State := (List.range 32).foldl State.opSettled s

/-- The work of the operation in slot `k` ends at a boundary: with the status its own commands left, or, where the work lies
outside the model, with what `r` says was found. -/
def doLongOpDone (k : Nat) (r : OpEnd) (s : State) : State :=
  let o := s.op k
  if !o.live then s
  else if s.clk.cycle ≠ 0 then s.workEnds k r
  else match o.ended with
    | some st => if o.state = 3 then s else s.finishOp k (endState st) st o.result
    | none =>
      if !o.cancelled ∧ o.state ≠ 2 then s
      else
        let st := if o.cancelled then stPARTIAL else if r.fault then stHWFAULT else stOK
        match o.opcode with
        | 0x80 => (s.scrubEnds k st r).finishEnded k
        | 0x22 => (s.sweepEnds k st r).finishEnded k
        | 0x60 =>
          if o.cancelled then
            let n := o.args.getD 0 0
            s.finishOp k (endState st) st (le 8 (s.chkValue n r.data) ++ le 4 r.data.length ++ [n])
          else s
        | 0xB0 =>
          if r.fault then s.finishOp k 6 stHWFAULT (fwResult r.a (o.args.getD 3 0) false)
          else
            let s := s.fwDone k r.a (r.b == 1) r.data
            s.finishOp k 4 (((s.op k).ended).getD stOK) (s.op k).result
        | _ => s

def execLongOpDone (slot : Nat) (r : OpEnd) (s : State) : Res := run (doLongOpDone slot r) s

end Machine
end Sys2Proof
end

