-- ==== Sys2Proof/Machine/JobDone.lean ====
section
/-!
DEFINITION. CHK_JOB_DONE (R511-R519): what each user of a check unit does with the value that is ready.
-/
namespace Sys2Proof
namespace Machine

/-- Lanes ALIGNED, as a bitmap. -/
def State.myLanes (s : State) : Nat := b2n (s.flag .PAIR_PATHS_MY0) + 2 * b2n (s.flag .PAIR_PATHS_MY1)

/-- Lanes a message of TYPE `ty` leaves on (R489): CLAIM and HEARTBEAT on both, EPOCH_DATA by turns, the others on the
lowest. -/
def State.sendLanes (s : State) (ty : Nat) : Nat :=
  let l := s.myLanes
  if ty = 1 ∨ ty = 2 ∨ l < 3 then l
  else if ty = 3 then 2 ^ (s.pair.lane % 2)
  else 1

/-- The in-band heartbeat frame (R490, R491). -/
def State.inbandBytes (s : State) (m : MyMsg) (check alive : Nat) : List Nat :=
  be 6 (s.reg .PAIR_INBAND_MAC_MAC) ++ be 6 (s.reg .CLS_ROUTER_MAC_MAC) ++ [0x88, 0xB5] ++ msgBytes m ++ msgTail check alive

/-- A message's CHECK and ALIVE are ready: it leaves (R488-R491). -/
def State.messageReady (s : State) (m : MyMsg) (inband : Bool) (check alive : Nat) : State :=
  -- the epoch has been cancelled or dropped (R122, R145)
  if (m.ty = 3 ∨ m.ty = 4) ∧ !(s.pair.outs.any fun e => e.num == m.epoch) then s
  else
  let l := s.sendLanes m.ty
  let s := { s with pair := { s.pair with lane := if m.ty = 3 then s.pair.lane + 1 else s.pair.lane } }
  let s := if l = 0 then s else s.emit (.mywyn l m check alive)
  let s := (s.tally 9 3 1 m.ty 1 0 (b2n (bit l 0))).tally 9 3 1 m.ty 1 1 (b2n (bit l 1))
  let s :=
    if inband then
      let b := s.inbandBytes m check alive
      let s := s.emit (.heartbeat (s.reg .PAIR_CFG_INBAND) m check alive)
      if s.flag .PAIR_CFG_INBAND then s.sendOwn 1 (s.reg .PAIR_INBAND_PORT) b
      else
        -- it takes its turn at the host port of S0, ahead of every other frame (R26, R27)
        let s : State := { s with swc := { s.swc with hostNext := max s.swc.hostNext s.clk.cycle + 8 } }
        s.sendOwn 3 256 b
    else s
  if m.ty = 4 then s.epochSent m.epoch (decide (l ≠ 0)) else s

/-- The job on unit `n` ends with `data` processed, which for a CHK_RUN is what the host's memory held; `fault`: its read
failed after these bytes. -/
def State.jobEnds (s : State) (n : Nat) (j : Job) (data : List Nat) (fault : Bool) : State :=
  let close (s : State) (v len : Nat) : State :=
    (s.setReg .CHK_UNIT_LAST_VALUE n v).jobCounted n j.cls len
  match j.use with
  | .selfTest =>
    let v := s.chkValue n testString
    ((close s v 9).setRegs [(.CHK_UNIT_TESTV_VALUE, n, v), (.CHK_UNIT_TEST_DONE, n, 1)]).ev 219 [(2, n), (4, v % 2 ^ 32)]
  | .run k =>
    let o := s.op k
    let d := data.take (o.args.getD 2 0)
    let v := s.chkValue n d
    let r := le 8 v ++ le 4 d.length ++ [n]
    if fault then ((close s v d.length).dmaError o.fn (o.args.getD 1 0 + d.length) 0).endOp k stHWFAULT r
    else (close s v d.length).endOp k stOK r
  | .send m inband =>
    let q := s.takeAlive n m.ty
    let v := q.1.chkValue n (msgBytes m)
    (close q.1 v (msgBytes m).length).messageReady m inband v q.2
  | .receive lane m check alive at_ =>
    let v := s.chkValue n (msgBytes m)
    (close s v (msgBytes m).length).messageChecked n lane at_ j.ctx m (v == check) alive
  | .cairn rec_ first =>
    let q := s.takeAlive n 1
    let v := q.1.chkValue n (padTo 120 rec_)
    (close q.1 v 120).cairnChecked rec_ first (v % 2 ^ 32) q.2
  | .audit => s

/-- Bytes of the stream of a job; that of a CHK_RUN is what its operands say. -/
def State.jobLength (s : State) (j : Job) : Nat :=
  match j.use with
  | .selfTest => 9
  | .run k => (s.op k).args.getD 2 0
  | .send m _ => (msgBytes m).length
  | .receive _ m _ _ _ => (msgBytes m).length
  | .cairn _ _ => 120
  | .audit => 0

/-- The running job's value is ready: its bytes were all present, at 128 B a CORE cycle, and 4 cycles have passed; a host
read that failed ends a CHK_RUN before that (R511, R518). -/
def State.jobReady (s : State) (j : Job) (data : List Nat) (fault : Bool) : Bool :=
  s.canStart j && (fault || decide (j.begun + (s.jobLength j + 127) / 128 + 4 ≤ s.coreCycle) &&
    match j.use with
    | .run _ => decide (s.jobLength j ≤ data.length)
    | _ => true)

/-- CHK_JOB_DONE: the running job of unit `n` ends and the next one starts (R513). A suspended CHK_RUN ends nothing (R518). -/
def doChkJobDone (n : Nat) (data : List Nat) (fault : Bool) (s : State) : State :=
  match s.jobOf n with
  | none => s
  | some j => if s.jobReady j data fault then (s.jobEnds n j data fault).nextOnUnit n else s

def execChkJobDone (n : Nat) (data : List Nat) (fault : Bool) (s : State) : Res := run (doChkJobDone n data fault) s

end Machine
end Sys2Proof
end

