-- ==== Sys2Proof/Machine/Power.lean ====
section
/-!
DEFINITION. Power states and wake budgets (R598-R601, R182), temperature (R602, R603), the calibration check (R604), and the
core supply (R584).
-/
namespace Sys2Proof
namespace Machine

/-! ### The state a budget allows (R598) -/

/-- The lowest state whose wake time does not exceed the budget: 0 active, 1 quiet, 2 doze, 3 sleep, 4 off. -/
def stateOf (ns : Nat) : Nat :=
  if ns = 0xFFFFFFFF then 4 else if 5000000 ≤ ns then 3 else if 50000 ≤ ns then 2 else if 2000 ≤ ns then 1 else 0

/-- The port carries a PTP or SyncE path (R599). -/
def State.timingPath (s : State) (p : Nat) : Bool :=
  ((List.range 8).any fun k => s.reg .REF_PORTSLOT_PORT k == p && (s.rank 0 k != 0 || s.rank 1 k != 0)) ||
    (p < 256 && bit (s.reg .REF_ESMC_TXMASK_PORTS (p / 32)) (p % 32)) ||
    (p < 256 && s.reg .TME_PORT_CFG_STATE p != 0) ||
    s.reg .PAIR_STATUS_STATE != 0 && (if s.flag .PAIR_CFG_INBAND then s.reg .PAIR_INBAND_PORT == p else p == 256)

/-- A lane that may be lowered: OFF, DOWN, ABSENT, SHORT or FAULT (R182). -/
def lowLane (st : Nat) : Bool := st == 0 || st == 1 || st == 8 || st == 9 || st == 11

/-- The lanes that port `p` owns: an absorbed port's lane belongs to the port that absorbed it (R190). -/
def State.ownLanes (s : State) (p : Nat) : List Nat :=
  if p < 256 ∧ s.flag .PRT_MODE_ABSORBED p then [] else portLanes p (s.reg .PRT_MODE_WIDTH p)

/-- The lowest state that the wake budget of port `p` allows (R182). -/
def State.portBudget (s : State) (p : Nat) : Nat :=
  let b := stateOf (s.reg .SYS_WAKE_BUDGET_PORT_NS p)
  if s.timingPath p then min 1 b else b

/-- The state of port `p` (R182, R598, R599). -/
def State.portPower (s : State) (p : Nat) : Nat :=
  if (s.ownLanes p).all fun i => lowLane (s.laneState i) then s.portBudget p else 0

/-- A line or management port is up by administration. -/
def State.linePortUp (s : State) : Bool := (s.listed .PRT_MODE_ADMIN_UP).any fun x => decide (x.1 < 256) && x.2 == 1
def State.mgmtPortUp (s : State) : Bool := s.reg .PRT_MPCFG_MP0 != 0 || s.reg .PRT_MPCFG_MP1 != 0

/-- A flow entry of KIND 3 or 4 is VALID. -/
def State.seamlessFlows (s : State) : Bool := s.store.any fun x =>
  x.1 / 2 ^ 23 == tFlow && x.2.any fun v => match v.val with
    | some e => flowValid e && (flowKind e == 3 || flowKind e == 4)
    | none => false

/-- The condition under which subsystem `u` may fall below active, and its floor (R600); none: it never does. -/
def State.subFloor (s : State) (u : Nat) : Option Nat :=
  let quiet (c : Bool) (f : Nat) : Option Nat := if c then some f else none
  let frames := quiet (!s.linePortUp && !s.mgmtPortUp && !(s.hst.cmds.any fun c => c.opcode == 0xC0 && c.res.isNone)) 2
  match u with
  | 18 => quiet (!s.seamlessFlows) 3
  | 14 => quiet (!s.linePortUp && (s.cls.place.all fun x => x.2.state != 1 && x.2.state != 3) && s.obs.dump.isNone && s.obs.flows.isNone) 2
  | 13 => frames
  | 15 => frames
  | 16 => frames
  | 17 => frames
  | 4 => quiet ((List.range 16).all (fun n => s.unitFree n) && !s.flag .OBS_CAIRN_CTRL_EN && s.reg .PAIR_STATUS_STATE == 0) 1
  | 6 => quiet ((s.listed .LN_STATUS_STATE).all (fun x => x.2 != 6) && !s.itmBusy && !s.itmCal) 2
  | 3 => quiet (!s.flag .OBS_DUMP_CFG_EN && !s.flag .OBS_SAMP_CFG_EN 0 && !s.flag .OBS_SAMP_CFG_EN 1 && !s.flag .OBS_CAIRN_CTRL_EN) 1
  | _ => none

/-- The lowest state any port is in: LN and PRT follow their ports. -/
def State.leastPort (s : State) : Nat :=
  (List.range 258).foldl (fun a p => min a (if p < 256 then s.reg .SYS_WAKE_PORT_STATE p else s.reg .SYS_WAKE_MP_STATE (p - 256))) 4

/-- The state of subsystem `u`: off acts as sleep. -/
def State.subPower (s : State) (u : Nat) : Nat :=
  if u = 10 ∨ u = 12 then min 3 s.leastPort
  else match s.subFloor u with
    | none => 0
    | some f => min f (stateOf (tget 0 s.sys.subBudget u))

/-! ### Changes of state -/

/-- E255 with reason STATE: target, old and new state; the supply's reading is not part of a change of state and is free. -/
def State.powerEvent (s : State) (target old new : Nat) : State :=
  (s.evSevBy 255 0 [(1, 2), (2, target), (1, old), (1, new), (4, Config.freeField s.freeCtr)]).fresh

/-- The lanes of a port take its state: E010, and an idle lane is OFF in off and DOWN otherwise (R174, R186). -/
def State.lanePower (s : State) (i st : Nat) : State :=
  let old := tget 0 s.ln.power i
  let s := if old = st then s
    else
      ((({ s with ln := { s.ln with power := tset 0 i st s.ln.power } } : State).evLow 10 i [(1, old), (1, st)])).tally1 10 7 i
  if s.laneState i = 0 ∧ st ≠ 4 then s.setLaneState i 1
  else if s.laneState i = 1 ∧ st = 4 then s.setLaneState i 0
  else s

def portStateReg (p : Nat) : Fld × Nat := if p < 256 then (.SYS_WAKE_PORT_STATE, p) else (.SYS_WAKE_MP_STATE, p - 256)
def portTimingReg (p : Nat) : Fld × Nat := if p < 256 then (.SYS_WAKE_PORT_TIMING, p) else (.SYS_WAKE_MP_TIMING, p - 256)

/-- Port `p` takes the state it is due. -/
def State.portChoose (s : State) (p : Nat) : State :=
  let s := s.setReg (portTimingReg p).1 (portTimingReg p).2 (b2n (s.timingPath p))
  let old := s.reg (portStateReg p).1 (portStateReg p).2
  let new := s.portPower p
  let s := if old = new then s else (s.setReg (portStateReg p).1 (portStateReg p).2 new).powerEvent p old new
  let low := s.portBudget p
  (s.ownLanes p).foldl (fun (s : State) i => s.lanePower i (if lowLane (s.laneState i) then low else 0)) s

/-- Subsystem `u` takes state `new`. -/
def State.setSub (s : State) (u new : Nat) : State :=
  let old := s.reg .SYS_WAKE_SUB_STATE u
  if old = new then s else (s.setReg .SYS_WAKE_SUB_STATE u new).powerEvent u old new

/-- At a boundary in service every port and subsystem takes the state it is due, and SET_WAKE_BUDGET commands complete with
the state chosen (R149, R598). -/
def State.powerTick (s : State) : State :=
  let s := if s.startState = 3 then
      let s := (List.range 258).foldl (fun (s : State) p => s.portChoose p) s
      (List.range 19).foldl (fun (s : State) u => if u = 11 then s else s.setSub u (s.subPower u)) s
    else s
  let l := s.sys.wakeCmds
  l.foldl (fun (s : State) x =>
    let st := if x.2 < 512 then s.reg (portStateReg x.2).1 (portStateReg x.2).2 else s.reg .SYS_WAKE_SUB_STATE (x.2 - 512)
    s.complete x.1 stOK [st]) { s with sys := { s.sys with wakeCmds := [] } }

/-- SET_WAKE_BUDGET (R149, R598); targets of subsystems are kept as 512 + index. -/
def specSetWakeBudget (sub : Bool) (target wakeNs : Nat) : Spec :=
  { opc := 0x90
    chk := fun _ => { badField := (if sub then decide (18 < target) || target == 11 else decide (257 < target)) || decide (2 ^ 32 ≤ wakeNs) }
    work := fun id s =>
      let s := if sub then { s with sys := { s.sys with subBudget := tset 0 target wakeNs s.sys.subBudget } }
        else s.setReg .SYS_WAKE_BUDGET_PORT_NS target wakeNs
      { s with sys := { s.sys with wakeCmds := s.sys.wakeCmds ++ [(id, if sub then 512 + target else target)] } } }

def execSetWakeBudget (h : Hdr) (sub : Bool) (target wakeNs : Nat) (s : State) : Res :=
  s.issue h (.setWakeBudget h sub target wakeNs) (specSetWakeBudget sub target wakeNs)

/-- SUBSYSTEM_WAKE: a register write has reached a lowered subsystem (R601; REGISTER_WRITE wakes it itself), or the condition
under which it may be lowered has ended (R600). -/
def doSubsystemWake (u : Nat) (byWrite : Bool) (s : State) : State :=
  if 18 < u ∨ (!byWrite ∧ (u = 10 ∨ u = 12 ∨ (s.subFloor u).isSome)) then s else s.setSub u 0

def execSubsystemWake (u : Nat) (byWrite : Bool) (s : State) : Res := run (doSubsystemWake u byWrite) s

/-- AVS_DEVIATION: VDD_CORE, in mV, has been more than 15 mV from the target for `us` (R584). -/
def doAvsDeviation (mv us : Nat) (s : State) : State :=
  let t := s.reg .SYS_AVS_TARGET_MV
  if us < 1000 ∨ (mv ≤ t + 15 ∧ t ≤ mv + 15) then s
  else (s.evSevBy 255 3 [(1, 1), (2, Config.freeField s.freeCtr), (1, Config.freeField (s.freeCtr + 1)),
    (1, Config.freeField (s.freeCtr + 2)), (4, mv)]).fresh.fresh.fresh

def execAvsDeviation (x : CoreVolt) (s : State) : Res := run (doAvsDeviation x.mv x.us) s

/-! ### Temperature (R602, R603) -/

/-- A threshold is crossed upward, or has been fallen from by 2 °C: E252 with its own severity. -/
def State.threshold (s : State) (k thr rising sensor : Nat) (t : Int) : State :=
  let lim : Int := sgn 16 thr
  let d (dir : Nat) : List (Nat × Nat) := [(2, sensor), (2, unsgn 16 t), (2, thr), (1, dir)]
  if !bit s.sys.above k ∧ lim ≤ t then
    ({ s with sys := { s.sys with above := s.sys.above ||| 2 ^ k } } : State).evSevBy 252 rising (d 1)
  else if bit s.sys.above k ∧ t ≤ lim - 32 then
    ({ s with sys := { s.sys with above := s.sys.above - 2 ^ k } } : State).evSevBy 252 1 (d 2)
  else s

/-- The always-on monitor: for each sensor, boundaries in a row at which it has read 115 °C or more (R603; log entry 195). -/
def State.hotTick (s : State) (l : List Int) : State :=
  { s with sys := { s.sys with hot := (List.range 16).foldl (fun (t : Tab Nat) n =>
      match l[n]? with | some x => tset 0 n (if 115 * 16 ≤ x then tget 0 t n + 1 else 0) t | none => t) s.sys.hot } }

/-- The sensors at a boundary: SYS_TEMPn, the hottest of them, and the thresholds. -/
def State.tempTick (s : State) (l : List Int) : State :=
  let s := (List.range 16).foldl (fun (s : State) n =>
    match l[n]? with | some t => s.setReg .SYS_TEMP_TEMP n (unsgn 16 t) | none => s) (s.hotTick l)
  let hot := (List.range 16).foldl (fun a n => if s.temp a < s.temp n then n else a) 0
  let t := s.temp hot
  let s := s.setRegs [(.SYS_TEMP_MAX_SENSOR, 0, hot), (.SYS_TEMP_MAX_TEMP, 0, unsgn 16 t)]
  (s.threshold 0 (s.reg .SYS_THERM_WARN) 2 hot t).threshold 1 (s.reg .SYS_THERM_CRIT) 4 hot t

/-! ### The calibration check (R604) -/

/-- The die temperature of a block: its slice's sensor; the ITM and the aligners have sensor 8 (R602). -/
def calSensor (kind i : Nat) : Nat := match kind with | 0 => i / 32 | 1 => i / 64 | _ => 8

/-- The temperature of a block has moved by more than DELTA since its last calibration. -/
def State.calMoved (s : State) (kind i : Nat) : Bool :=
  decide (16 * s.reg .SYS_CAL_DELTA < (s.temp (calSensor kind i) - tget 0 s.sys.calTemp (kind * 4096 + i)).natAbs)

/-- Lanes of a slice that are due, in the order of service: ascending after the last one served (R179). -/
def State.lanesDue (s : State) (sl : Nat) : List Nat :=
  let after := tget 0 s.ln.calLast sl
  ((List.range 32).map fun j => sl * 32 + (after + j) % 32).filter fun i => s.laneState i == 6 && s.calMoved 0 i

/-- One lane is calibrated: LN_CAL, E008, adaptation re-centred within the window (R179), and its seif directions are measured again where its phase moved (R180, R181,
R413: trigger 1 receive phase, 2 transmit interpolator). -/
def State.calLane (s : State) (x : LaneCal) : State :=
  let i := x.lane
  let t := s.temp (i / 32)
  let s := s.setRegs [(.LN_CAL_MERIT_AFTER, i, x.after), (.LN_CAL_MERIT_BEFORE, i, x.before), (.LN_CAL_TEMP, i, unsgn 16 t)]
  let s := ((s.evLow 8 i [(1, x.before), (1, x.after), (2, unsgn 16 t)]).tally1 10 4 i).calMark 0 i t
  let s : State := { s with ln := { s.ln with calLast := tset 0 (i / 32) ((i + 1) % 32) s.ln.calLast } }
  let e := (s.lane i).entry
  let within (w : Nat × Nat) (v : Nat) : Nat := max w.1 (min w.2 v)
  let s := match x.point with
    | some q => (s.setRegs [(.LN_RXEQ_CTLE_PEAK, i, within (peakWindow e) q.1), (.LN_RXEQ_CTLE_DC, i, within (dcWindow e) q.2)]).edgeReport i
    | none => s
  let own := !s.flag .PRT_MODE_ABSORBED i
  let s := match x.rxMove with | some m => if own then s.seifRemeasure i 0 m 1 else s | none => s
  match x.txMove with | some m => if own then s.seifRemeasure i 1 m 2 else s | none => s

/-- A block stays due: E254 once it has been for more than 10 checks (block index, lowest index due, checks waited). -/
def State.stillDue (s : State) (kind block : Nat) (l : List Nat) : State :=
  let s : State := { s with sys := { s.sys with
    calDue := l.foldl (fun t i => tupd 0 (kind * 4096 + i) (· + 1) t) s.sys.calDue } }
  let waits (i : Nat) : Nat := tget 0 s.sys.calDue (kind * 4096 + i)
  match l.filter fun i => decide (10 < waits i) with
  | [] => s
  | i :: t =>
    let low := t.foldl min i
    s.ev 254 [(1, block), (2, low), (4, waits low)]

/-- Lanes first (R179). What a lane's calibration finds comes with the row. -/
def State.calLanes (s : State) (found : List LaneCal) : State :=
  if !s.flag .LN_CAL_CTRL_EN then s
  else
    let per := max 1 (s.reg .LN_CAL_CTRL_PER_SLICE)
    let go := (List.range 8).flatMap fun sl => (s.lanesDue sl).take per
    let rest := (List.range 8).flatMap fun sl => (s.lanesDue sl).drop per
    let s := go.foldl (fun (s : State) i =>
      s.calLane ((found.find? fun x => x.lane == i).getD ⟨i, s.reg .LN_STATUS_MERIT i, s.reg .LN_STATUS_MERIT i, none, none, none⟩)) s
    s.stillDue 0 10 rest

/-- Then seif directions, whose temperature is the third trigger of R413. -/
def State.calSeif (s : State) : State :=
  ((List.range 512).filter fun k => decide (2 ≤ s.seifState (k / 2) (k % 2) ∧ s.seifState (k / 2) (k % 2) ≤ 4) && s.calMoved 1 k).foldl
    (fun (s : State) k => s.seifRemeasure (k / 2) (k % 2) 0 3) s

/-- CAL_CHECK: every 1,000 ticks of tick count, unless SYS_CAL.EN is 0 (R50, R604); `resid` are the aligners' residuals. -/
def doCalCheck (found : List LaneCal) (resid : List (Nat × Nat)) (s : State) : State :=
  let n := s.clk.tickCount
  if s.clk.cycle ≠ 0 ∨ n % 1000 ≠ 0 ∨ s.sys.calAt = n + 1 ∨ s.startState ≠ 3 then s
  else
    let s := { s with sys := { s.sys with calAt := n + 1 } }
    if !s.flag .SYS_CAL_EN then s
    else
      let s := (s.calLanes found).calSeif
      let s := if s.calMoved 2 0 then (if s.itmCal then s else s.itmCalRequest 3).stillDue 2 6 [0] else s
      ((List.range 16).filter fun k => s.calMoved 3 k).foldl (fun (s : State) k =>
        s.outCal k (s.temp 8) (((resid.find? fun x => x.1 == k).map Prod.snd).getD 0)) s

def execCalCheck (found : List LaneCal) (resid : List (Nat × Nat)) (s : State) : Res := run (doCalCheck found resid) s

end Machine
end Sys2Proof
end

