-- ==== Sys2Proof/Machine/RegRead.lean ====
section
/-!
DEFINITION. Register reads (R5, R6, R619-R625): where an address lies, who reaches it, what each field reads as, the read
latches, and the reads that have effects.
-/
namespace Sys2Proof
namespace Machine

/-! ### Addresses (R81, R82, R620) -/

/-- The index of the register at address `a` in the group of field `f`, if `a` is one of its addresses. -/
def Fld.at_ (f : Fld) (a : Nat) : Option Nat :=
  let d := f.desc
  let o := a - d.base
  let i := o / d.s1
  let r := o % d.s1
  let j := r / d.s2
  if d.base ≤ a ∧ i < d.c1 ∧ j < d.c2 ∧ r % d.s2 = 0 then some (i * d.c2 + j) else none

/-- Registers of a numbered group that the spec gives no meaning: number 0 of HST_PUNT_MAP and of HST_VF_PERM (R109, R126). -/
def fldExists (f : Fld) (i : Nat) : Bool :=
  match f with
  | .HST_PUNT_MAP_EN | .HST_PUNT_MAP_FUNC | .HST_PUNT_MAP_CQ | .HST_VF_PERM_CAIRN | .HST_VF_PERM_CHK | .HST_VF_PERM_INJECT
  | .HST_VF_PERM_COMMIT | .HST_VF_PERM_TABLES => i != 0
  | .OBS_U_CYC_CYCLES | .OBS_U_OVF_OVF | .OBS_U_CLEAR_CNT => unitExists i
  | .OBS_U_CNT_VALUE | .OBS_U_SEL_ALL | .OBS_U_SEL_KIND | .OBS_U_SEL_ITEM | .OBS_U_SEL_SUB | .OBS_U_IDX_IDX => unitExists (i / 8)
  | _ => true

/-- The fields of the register at address `a`, most significant first; of a pair, at the address of its _LO. -/
def fieldsAt (a : Nat) : List (Fld × Nat) :=
  (fieldsOf a).filterMap fun f => match f.at_ a with
    | some i => if fldExists f i then some (f, i) else none
    | none => none

/-- The fields are those of a _LO/_HI pair. -/
def isPair (l : List (Fld × Nat)) : Bool := l.any fun x => x.1.desc.pair

/-- The pair whose _HI lies at `a`. -/
def hiOf (a : Nat) : List (Fld × Nat) :=
  let l := fieldsAt (a - 4)
  if 4 ≤ a ∧ isPair l then l else []

/-! ### Reach (R592, R596, R606, R622) -/

/-- Registers that MCTP WRITE32 may write (R606). -/
def bmcWrites (a : Nat) : Bool := a / 0x100000 == 2 || a == 0x208 || a == 0x20C || a == 0x224

/-- Registers that playa mode serves (R596). -/
def playaServes (a : Nat) : Bool :=
  a / 0x100000 == 0 || a / 0x100000 == 2 || (decide (0x300400 ≤ a) && decide (a < 0x300418)) || (decide (0x4000000 ≤ a) && decide (a < 0x5000000))

/-- Identity `who` reaches address `a`. -/
def State.reaches (s : State) (who a : Nat) (write : Bool) : Bool :=
  let path :=
    if a < 0x4000000 then
      who == 0 || decide (16 ≤ who ∧ who < 20) || who == 22 || (who == 21 && (!write || bmcWrites a))
    else decide (who < 16) && s.fnOk who && blockOf a == (if a < 0x5000000 then 0x40 else 0x60) + who
  let started := s.flag .SYS_STATUS_READY || s.flag .SYS_STATUS_PLAYA
  path && !s.sys.held && (!s.sys.warm || started || decide (0x4000000 ≤ a) || a / 0x100000 == 0) &&
    (!s.flag .SYS_STATUS_PLAYA || playaServes a)

/-! ### What a field reads as (R7) -/

/-- Flows pinned (R239). -/
def State.pinned (s : State) : Nat := (s.cls.place.filter fun x => x.2.state == 3).length

/-- Pointers in the slice caches (R283). -/
def State.cachedPtrs (s : State) : Nat := s.oas.cache.foldl (fun n x => n + ptrCount x.2) 0

/-- Ticks a candidate still has to qualify; 0 when it does not qualify (R456). -/
def State.qualLeft (s : State) (i : Nat) : Nat :=
  if s.reg .REF_C_STATUS_STATE i = 2 then
    min (2 ^ 24 - 1) (tget 0 s.ref.qualAt i + s.reg .REF_C_QUAL_TICKS i - s.clk.tickCount)
  else 0

/-- What field `f` of index `i` reads as: the pending value of a staged field (R7), 0 for a pulse, what State keeps under its
own name, or the register's value. -/
def State.view (s : State) (f : Fld) (i : Nat) : Nat :=
  match f with
  | .SYS_TICK_TICK => s.clk.tick
  | .SYS_TICK_COUNT_COUNT => s.clk.tickCount
  -- no image runs in the ROM state and in playa mode (R627)
  | .SYS_FW_RUN_VERSION => if s.startState = 0 ∨ s.flag .SYS_STATUS_PLAYA then 0 else s.reg .SYS_FW_RUN_VERSION
  | .SYS_GEN_CUR => s.sys.genSeq % 4
  | .SYS_GEN_PEND => s.pendSeq % 4
  | .SYS_GEN_ARMED => b2n (s.sys.timed.any Timed.armed)
  | .SYS_GEN_HELD => b2n (s.heldCount != 0)
  | .SYS_GEN_DRAIN_FRAMES => s.drainOf i
  | .PAIR_STATUS_UNIT => s.reg .SYS_STRAPS_UNIT_ID
  | .MBX_LOCK_PEEK_GRANTED => 0
  | .MBX_LOCK_PEEK_ABANDONED => if (s.lockHolder i).isSome then 0 else s.reg .MBX_LOCK_ABANDONED i
  | .MBX_LOCK_PEEK_HELD => b2n (s.lockHolder i).isSome
  | .MBX_LOCK_PEEK_OWNER => (s.lockHolder i).getD 0
  | .CHK_UNIT_POLY_POLY => s.reg .CHK_UNIT_POLY_POLY i % 2 ^ s.reg .CHK_UNIT_CFG_WIDTH i
  | .CHK_UNIT_INIT_INIT => s.reg .CHK_UNIT_INIT_INIT i % 2 ^ s.reg .CHK_UNIT_CFG_WIDTH i
  | .EGR_EXP_LEVEL_LEVEL => unsgn 32 (s.bucketNow i / bucketUnit)
  | .EGR_PACED_FLOWS => s.pacedFlows
  | .CLS_VERSIONS_USED => min 0x7FFF (s.versionsUsed / 4)
  | .CLS_VERSIONS_HELD => s.heldCount
  | .CLS_PINS_PINS => s.pinned
  | .TME_SLEW_LEFT_LEFT => unsgn 32 (s.tme.slewLeft.tdiv (2 ^ 24 : Nat))
  | .REF_C_STATUS_QUAL_LEFT => s.qualLeft i
  -- the offset of slot 12 is the servo's value (R432)
  | .REF_SLOT_OFS_PPB => if i = 12 then s.reg .TME_SERVO_FREQ_FREQ else s.reg f i
  | .OBS_U_CYC_CYCLES => s.reg .OBS_U_CYC_CYCLES i + (s.clk.cycle - tget 0 s.obs.cycFrom i)
  | .OAS_FREE_RING => ptrCount s.oas.ring
  | .OAS_ONDIE_REFILL => ptrCount s.oas.refill
  | .OAS_ONDIE_CACHED => s.cachedPtrs
  | _ => match f.desc.kind with
    | .pulse => 0
    | .staged => s.pendReg f i
    | _ => s.reg f i

/-- The word of a register, or the 64-bit value of a pair. -/
def State.regWord (s : State) (l : List (Fld × Nat)) : Nat :=
  l.foldl (fun w x => w + s.view x.1 x.2 % 2 ^ x.1.width * 2 ^ x.1.desc.lo) 0

/-! ### Reads (R5, R6, R375, R82, R395, R402, R527, R536) -/

/-- A read of a _LO: the _HI is latched for the path. -/
def State.readLo (s : State) (who a key w : Nat) : State :=
  ({ s with hiLatch := tset none key (some (a, w / 2 ^ 32 % 2 ^ 32)) s.hiLatch } : State).emit (.readValue who a (w % 2 ^ 32))

/-- A read of the _HI at `a`: the half that the path has latched, which empties the latch, or the live one. -/
def State.readHi (s : State) (who a key w : Nat) : State :=
  match tget none s.hiLatch key with
  | some (b, h) =>
    if b + 4 = a then ({ s with hiLatch := tdel key s.hiLatch } : State).emit (.readValue who a h)
    else s.emit (.readValue who a (w / 2 ^ 32 % 2 ^ 32))
  | none => s.emit (.readValue who a (w / 2 ^ 32 % 2 ^ 32))

/-- The word of the register at `a` as path `who` reads it: what another path writes in the same CORE cycle shows in the next
one (R626). -/
def State.wordFor (s : State) (who a : Nat) (l : List (Fld × Nat)) : Nat :=
  match (s.wrotes a).reverse.find? fun x => x.1 != Machine.pathOf who with
  | some x => x.2.2.2.2.2
  | none => s.regWord l

/-- A read without effects of its own. -/
def State.readPlain (s : State) (who a : Nat) : State :=
  let l := fieldsAt a
  let w := s.wordFor who a l
  if isPair l then s.readLo who a (latchKey who a) w
  else if l ≠ [] then s.emit (.readValue who a w)
  else if hiOf a ≠ [] then s.readHi who a (latchKey who a) (s.wordFor who (a - 4) (hiOf a))
  else s.emit (.readValue who a 0)

/-- The counter page of a function (R561): the copy of unit u's counters, 0 where it is not permitted. -/
def State.readCounterPage (s : State) (who a : Nat) : State :=
  let o := (a - 0x5000000) % 0x10000 - 0x100
  let u := o / 0x80
  let r := o % 0x80
  let b := 0x301000 + 0x100 * u + r
  if !bit (s.reg .OBS_USER_READ_FUNCS) who || !bit (s.reg .OBS_USER_UNITS_UNITS) u || !unitExists u || decide (0x68 ≤ r) then
    s.emit (.readValue who a 0)
  else
    let l := fieldsAt b
    let w := s.regWord l
    if isPair l then s.readLo who a (latchKey who a) w
    else if l ≠ [] then s.emit (.readValue who a w)
    else s.readHi who a (latchKey who a) (s.regWord (hiOf b))

/-- A register read by identity `who`, with the effects it has; what it returns ends the transcript but for what it sends. -/
def State.readReg (s : State) (who a : Nat) : State :=
  if !s.reaches who a false ∨ a % 4 ≠ 0 then s.emit (.readValue who a 0)
  else if 0x500010 ≤ a ∧ a < 0x500020 ∧ who ≠ 0 then s.emit (.readValue who a 0)
  else if a = 0x500010 then doTimeLatchRead s
  else if 0x5000000 ≤ a ∧ a % 0x10000 = 0 then doTimeSnapshotRead who s
  else if 0x5000000 ≤ a ∧ 0x100 ≤ a % 0x10000 then s.readCounterPage who a
  else match fieldsAt a with
    | (.TME_INST_TXS_VALID, i) :: _ => doTxsPop i s
    | (.TME_TIO_IN_VALID, n) :: _ => doTioInPop n s
    | (.MBX_CH_DATA_WORD, i) :: _ => doMessageRead who (i / 16) (i % 16) s
    | (.MBX_LOCK_GRANTED, k) :: _ => doLockAcquire [who] k s
    | _ => s.readPlain who a

/-- LO_READ: a read of a _LO, or of any register that has no half (R5). -/
def execLoRead (who addr : Nat) (s : State) : Res := run (fun s => s.readReg who addr) s

/-- HI_READ (R5). -/
def execHiRead (who addr : Nat) (s : State) : Res := run (fun s => s.readReg who addr) s

/-- The value that the last read returned. -/
def State.lastRead (s : State) : Nat :=
  (s.out.findSome? fun o => match o with | .readValue _ _ v => some v | _ => none).getD 0

end Machine
end Sys2Proof
end

