-- ==== Sys2Proof/Machine/RegWrite.lean ====
section
/-!
DEFINITION. Register writes (R5-R7, R62, R622-R625): each field by its kind, what the chapters add to a write, the halves of
a pair, and the commands of the management endpoint (R606).
-/
namespace Sys2Proof
namespace Machine

/-! ### Values that read back as another (the field tables) -/

/-- The value a field takes when `v` is written to it. -/
def State.norm (s : State) (f : Fld) (i v : Nat) : Nat :=
  let least1 := max 1 v
  match f with
  | .SYS_BUDGET_BULK_SHARE => min 4096 v
  -- bit 11 of SCOPE is reserved (R6, R57)
  | .SYS_COMMIT_SCOPE => setBits v 11 11 0
  | .SYS_CAL_DELTA | .MBX_XWAIT_TICKS | .SEIF_ITM_N_N | .REF_SLEW_LIMIT_D0 | .REF_SLEW_LIMIT_D1 | .OUT_CFG_ALIGN_RATE
  | .PAIR_CFG_JOIN_WAIT | .LN_LADDER_ATTEMPTS | .SPE_CFG_JUMP | .SPE_CFG_RESYNC => least1
  | .HST_EV_SEV_SEV => ofLE ((le 4 v).map fun b =>
      let n (x : Nat) := if 5 ≤ x % 8 then x / 8 * 8 + 4 else x
      n (b % 16) + 16 * n (b / 16))
  | .OBS_DUMP_CFG_PERIOD | .SPE_SWEEP_TICKS => max 100 v
  | .OBS_DUMP_UNITS_UNITS => [5, 7, 9, 11].foldl (fun v k => setBits v k k 0) v
  | .CHK_UNIT_CFG_WIDTH => max 3 (min 64 v)
  | .CHK_UNIT_POLY_POLY | .CHK_UNIT_INIT_INIT => v % 2 ^ s.reg .CHK_UNIT_CFG_WIDTH i
  | .SEIF_CFG_AVG => min 10 v
  | .PAIR_CFG_RANK => min 14 v
  | .PRT_PFC_QUANTA => if v = 0 then 0xFFFF else v
  | .EGR_SCHED_PMAC => v % 2 ^ 15
  | .EGR_WGT_WEIGHT => ofLE ((le 4 v).map (max 1))
  | _ => v

/-! ### Frozen fields (R7, R62) -/

/-- The block of a frozen field is idle (R83, R185, R211, R250, R428, R456, R478, R507, R519, R567). -/
def State.idleFor (s : State) (f : Fld) (i : Nat) : Bool :=
  let noRank (n : Nat) : Bool := s.reg .REF_C_CTRL_RANK n == 0 && s.reg .REF_C_CTRL_RANK (13 + n) == 0
  match f with
  | .LN_CFG_POL_TX_INV | .LN_CFG_POL_RX_INV => decide (s.laneState i ≤ 1)
  -- the RAW state leaves to DOWN when RAW is written 0 (R174; DESIGN CHOICE, log entry 29)
  | .LN_CFG_RAW => !isMywyn i && (decide (s.laneState i ≤ 1) || s.laneState i == 10)
  | .LN_CFG_TRAIN | .LN_CFG_PRBS | .LN_CFG_FIXED_RUNG | .LN_CFG_ATTEMPTS => !isMywyn i && decide (s.laneState i ≤ 1)
  | .PRT_MPCFG_MP1 => !s.flag .PRT_MODE_ADMIN_UP 257
  | .PRT_MPCFG_MP0 => !s.flag .PRT_MODE_ADMIN_UP 256
  | .PRT_MAXLEN_MAXLEN | .PRT_PREEMPT_VERIFY | .PRT_PREEMPT_ADD_FRAG | .PRT_PREEMPT_VERIFY_MS => !s.flag .PRT_MODE_ADMIN_UP i
  | .CLS_SEED_L2_SEED | .CLS_SEED_L3_SEED | .CLS_SEED_FLOW_SEED => (List.range 256).all fun p => !s.flag .PRT_MODE_ADMIN_UP p
  | .CHK_CFG_CAIRN_UNIT => !s.flag .OBS_CAIRN_CTRL_EN
  | .CHK_UNIT_CFG_REFIN | .CHK_UNIT_CFG_REFOUT | .CHK_UNIT_CFG_FINAL_INV | .CHK_UNIT_CFG_WIDTH | .CHK_UNIT_POLY_POLY
  | .CHK_UNIT_INIT_INIT => s.unitFree i
  | .REF_PORTSLOT_PORT => noRank i
  | .REF_IN_CFG_PPS | .REF_IN_CFG_FREQ_HZ => noRank (8 + i)
  | .OUT_SYN1_FREQ => (List.range 8).all fun n => !(s.outEn n && s.flag .OUT_CLK_CFG_SRC n)
  | .OUT_CLK_CFG_SHARED => !s.outEn i
  | .OUT_TIO_CFG_SHARED => !s.outEn (8 + i)
  | .PAIR_CFG_INBAND | .PAIR_CFG_CHK_TX | .PAIR_CFG_CHK_RX | .PAIR_INBAND_PORT | .PAIR_INBAND_MAC_MAC => s.pairState == 0
  | .OBS_DUMP_CFG_PORTS | .OBS_DUMP_CFG_FLOWS | .OBS_DUMP_UNITS_UNITS | .OBS_DUMP_BASE_ADDR | .OBS_DUMP_SLOTS_SLOTS
  | .OBS_FLOW_BASE_ADDR => !s.flag .OBS_DUMP_CFG_EN && !s.flag .OBS_DUMP_STATUS_BUSY
  | .OBS_SAMP_CFG_JITTER | .OBS_SAMP_CFG_LOG2 | .OBS_SAMP_CFG_MAX_TICK | .OBS_SAMP_FILTER_PORT_EN | .OBS_SAMP_FILTER_CLASS_EN
  | .OBS_SAMP_FILTER_CLASS | .OBS_SAMP_FILTER_PORT | .OBS_SAMP_BASE_ADDR | .OBS_SAMP_SIZE_LOG2_SIZE => !s.flag .OBS_SAMP_CFG_EN i
  | .SEIF_ITM_SRC_START_FALL | .SEIF_ITM_SRC_START | .SEIF_ITM_SRC_STOP_FALL | .SEIF_ITM_SRC_STOP_SRC | .SEIF_ITM_N_N
  | .SEIF_ITM_WIN_NS | .SEIF_ITM_TIMEOUT_NS => !s.flag .SEIF_ITM_STATUS_BUSY && !s.flag .SEIF_ITM_STATUS_CAL_BUSY
  | .HST_DB_BASE_ADDR => !s.flag .HST_FN_CTRL_RUN i
  | .HST_EVQ_BASE_ADDR | .HST_EVQ_CTRL_LOG2_SIZE | .HST_EVQ_CTRL_VECTOR => !s.flag .HST_EVQ_CTRL_EN i
  | .HST_SQ_BASE_ADDR | .HST_SQ_CTRL_LOG2_SIZE => !s.flag .HST_SQ_CTRL_EN i
  | .HST_CQ_BASE_ADDR | .HST_CQ_CTRL_PUNT | .HST_CQ_CTRL_SLOT | .HST_CQ_CTRL_LOG2_SIZE | .HST_CQ_CTRL_VECTOR => !s.flag .HST_CQ_CTRL_EN i
  | _ => true

/-- The rejection event of a discarded frozen write to field `f`, index `i`, at address `a`. -/
def State.frozenEvent (s : State) (f : Fld) (i a : Nat) : State :=
  let off := a % 0x100000
  match blockOf a with
  | 3 => s.ev 236 [(4, off), (1, 2)]
  | 4 => s.ev 216 [(2, match f with | .CHK_CFG_CAIRN_UNIT => 0xFFFF | _ => i), (4, off)]
  | 6 => s.ev 169 [(4, off)]
  | 7 => s.ev 187 [(4, off)]
  | 8 => s.ev 197 [(4, off), (1, 1)]
  | 9 => s.ev 212 [(1, 2), (4, off)]
  | 0xA => s.evLow 9 i [(4, a - 0xA00000)]
  | 0xC => s.evLow 39 (match f with | .PRT_MPCFG_MP0 => 256 | .PRT_MPCFG_MP1 => 257 | _ => i) [(4, off)]
  | 0xD => s.ev 56 [(4, off)]
  | 0xF => s.ev 92 [(4, off)]
  | _ =>
    let o := a % 0x4000
    let fn := (a - 0x4000000) / 0x4000
    let no := if 0x2000 ≤ o then 0x100 + i % 256 else if 0x1000 ≤ o then i % 256 else if o < 0x20 then 0xFFFF else 0x200
    s.evFn 244 fn [(2, fn), (2, no), (4, o)]

/-- The register of a port that is absorbed: it keeps its reset value (R190). -/
def State.absorbedReg (s : State) (f : Fld) (i : Nat) : Bool :=
  match f with
  | .PRT_MAXLEN_MAXLEN | .PRT_PREEMPT_VERIFY | .PRT_PREEMPT_ADD_FRAG | .PRT_PREEMPT_VERIFY_MS | .PRT_PFC_QUANTA
  | .PRT_HOLD_LIMIT | .PRT_VENT_EN | .PRT_VENT_TICKS => s.flag .PRT_MODE_ABSORBED i
  | _ => false

/-- Write the bits of `m` of a word `v` to one field by its kind (R7). -/
def State.storeField (s : State) (f : Fld) (i v m a : Nat) : State :=
  let d := f.desc
  let vf := bits v d.hi d.lo
  let mf := bits m d.hi d.lo
  let merge (old : Nat) : Nat := s.norm f i (old - (old &&& mf) + (vf &&& mf))
  if mf = 0 ∨ s.absorbedReg f i then s
  else match d.kind with
    | .live => s.setReg f i (merge (s.reg f i))
    | .staged => s.setPend f i (merge (s.pendReg f i))
    | .frozen =>
      let new := merge (s.reg f i)
      if new = s.reg f i then s
      else if s.idleFor f i then s.setReg f i new
      else s.frozenEvent f i a
    | .clear1 | .sticky => s.clearBits f i (vf &&& mf)
    | .set1 => s.setReg f i (s.reg f i ||| (vf &&& mf))
    | .status | .pulse => s

/-- Write the fields of a register in order, the frozen ones first: their block is judged as it was before the write (R62). -/
def State.storeFields (s : State) (l : List (Fld × Nat)) (v m a : Nat) : State :=
  (l.filter (fun x => x.1.desc.kind == .frozen) ++ l.filter fun x => x.1.desc.kind != .frozen).foldl
    (fun (s : State) x => s.storeField x.1 x.2 v m a) s

/-! ### What the chapters add -/

/-- PRT_MPCFG (R183, R210): a management port goes down, or its lane starts bring-up at the rung of its mode. -/
def State.mpFollow (s : State) (p old : Nat) : State :=
  let new := if p = 256 then s.reg .PRT_MPCFG_MP0 else s.reg .PRT_MPCFG_MP1
  if new = old then s
  else
    let s := ((s.portDown p 2).laneAdminDown p).setRegs
      [(.PRT_DLY_RX, p, Config.dieDelay (512 + new) 0), (.PRT_DLY_TX, p, Config.dieDelay (512 + new) 1)]
    if new = 0 then s else s.portLaneStart p (mpRung new)

/-- Registers of TME that only the servo's owner writes without a row of their own (R383). -/
def State.ownerWrite (s : State) (who off : Nat) (f : State → State) : State :=
  if who = s.servoOwner then f s else s.ownerRefused who off

/-- A write of one register, or of both halves of a pair, at address `a`: `v` in the bits of `m`. `data` is what an action
reads from outside: the board table, or the shadow's entries. -/
def State.storeReg (s : State) (who a v m : Nat) (data : List Line) : State :=
  let l := fieldsAt a
  let old := s.regWord l
  let w := old - (old &&& m) + (v &&& m)
  let fld (f : Fld) : Nat := bits w f.desc.hi f.desc.lo
  let is (f : Fld) : Bool := fld f == 1
  let pul (f : Fld) : Nat := bits (v &&& m) f.desc.hi f.desc.lo
  let go (f : Fld) : Bool := pul f == 1
  let plain := s.storeFields l v m a
  match l with
  | (.SYS_COMMIT_GO, _) :: _ =>
    if go .SYS_COMMIT_GO then doSysCommit (is .SYS_COMMIT_AT) (is .SYS_COMMIT_TABLES) (fld .SYS_COMMIT_SCOPE) s else plain
  | (.SYS_START_CLEAR, _) :: _ => if go .SYS_START_CLEAR ∨ !startWriter who then doStartClear who s else s
  | (.SYS_RESET_GO, _) :: _ =>
    if !startWriter who then s.startRefused who
    else if !go .SYS_RESET_GO then plain
    else if is .SYS_RESET_KIND then doSysResetCold who plain
    else doSysResetWarm who plain
  | (.SYS_BLOCK_RESET_BLOCK, _) :: _ => doSysBlockReset (pul .SYS_BLOCK_RESET_BLOCK) s
  | (.MBX_CTRL_LOCKED, _) :: _ => if go .MBX_CTRL_LOCK then doBindLock who s else s
  | (.MBX_DB_SET_BITS, _) :: _ => doDoorbellRing who (pul .MBX_DB_SET_BITS) s
  | (.MBX_DB_PEND_BITS, r) :: _ => s.bellClear who r (pul .MBX_DB_PEND_BITS)
  | (.MBX_DB_MASK_BITS, r) :: _ => doDoorbellMaskWrite who r (fld .MBX_DB_MASK_BITS) s
  | (.MBX_CH_BIND_VALID, n) :: _ =>
    if w = old ∧ !s.flag .MBX_CTRL_LOCKED ∧ (who = 0 ∨ who = 16) then s
    else doChannelBind who n (is .MBX_CH_BIND_VALID) (fld .MBX_CH_BIND_SENDER) (fld .MBX_CH_BIND_RECEIVER) (fld .MBX_CH_BIND_REMOTE) s
  | (.MBX_CH_CTRL_FLUSH, n) :: _ => if go .MBX_CH_CTRL_FLUSH then doFlush who n plain else plain
  | (.MBX_CH_DATA_WORD, i) :: _ => doMessageWordWrite who (i / 16) (i % 16) (fld .MBX_CH_DATA_WORD) s
  | (.MBX_LOCK_GRANTED, k) :: _ => if go .MBX_LOCK_RELEASE then doLockRelease who k s else s
  | (.OBS_SAMP_CFG_EN, k) :: t => doSamplerEnable k (is .OBS_SAMP_CFG_EN) (s.storeFields t v m a)
  | (.OBS_CAIRN_CTRL_EN, _) :: _ => doCairnEnableWrite (is .OBS_CAIRN_CTRL_EN) s
  | (.OBS_CAIRN_CFG_INTERVAL, _) :: _ => doCairnIntervalWrite (fld .OBS_CAIRN_CFG_INTERVAL) s
  | (.OBS_U_SEL_ALL, i) :: _ => doCounterSelect (i / 8) (i % 8) false w s
  | (.OBS_U_IDX_IDX, i) :: _ => doCounterSelect (i / 8) (i % 8) true w s
  | (.OBS_U_CLEAR_CNT, u) :: _ => doCounterClear u (pul .OBS_U_CLEAR_CNT) s
  | (.CHK_UNIT_TEST_GO, n) :: _ => if go .CHK_UNIT_TEST_GO then doSelfTest n s else s
  -- CHK_UNITn_CLEAR is written where CHK_UNITn_ALIVE3 is read
  | (.CHK_UNIT_ALIVE_COUNT, i) :: t =>
    if t.any fun x => x.1 == .CHK_UNIT_CLEAR_CTX then doAliveClear (i / 4) (pul .CHK_UNIT_CLEAR_CTX) s else plain
  | (.CHK_UNIT_SKIPPED_COUNT, n) :: _ =>
    if v &&& m = 0xFFFFFFFF then s.setReg .CHK_UNIT_SKIPPED_COUNT n (s.hwBits .CHK_UNIT_SKIPPED_COUNT n) else s
  | (.TME_CFG_COMPAT, _) :: _ => doTmeCfgWrite who (is .TME_CFG_COMPAT) (is .TME_CFG_SERVO_OWNER) s
  -- a port that becomes MASTER sends from the next instant of its schedule on (R390)
  | (.TME_PORT_CFG_INST, p) :: _ =>
    if plain.portState p = 2 ∧ s.portState p ≠ 2 then
      { plain with tme := { plain.tme with lastSync := tset 0 p (max (tget 0 plain.tme.lastSync p) (plain.grains + 1)) plain.tme.lastSync } }
    else plain
  | (.TME_TRACE_SET, _) :: _ => s.ownerWrite who 8 fun _ => plain.judgeTraceable
  | (.TME_INCR_INCR, _) :: _ => s.ownerWrite who 0x20 fun s =>
      if s.compat then s.compatRefused 3
      else { plain with
        tme := { plain.tme with touched := true }, sys := { plain.sys with selfScope := plain.sys.selfScope ||| 2 ^ 5 } }
  | (.TME_SLEW_AMT_AMOUNT, _) :: _ => doSlewWrite who (fld .TME_SLEW_AMT_AMOUNT) s
  | (.TME_SLEW_RATE_PPB, _) :: _ => s.ownerWrite who 0x2C fun _ => plain
  | (.TME_SERVO_FREQ_FREQ, _) :: _ => doServoFreqWrite who (some (fld .TME_SERVO_FREQ_FREQ)) none s
  | (.TME_SERVO_CTRL_VALID, _) :: _ =>
    doServoFreqWrite who none (some (is .TME_SERVO_CTRL_VALID, fld .TME_SERVO_CTRL_TIMEOUT)) s
  | (.SEIF_ITM_CTRL_GO, _) :: _ =>
    let cont := is .SEIF_ITM_CTRL_CONT
    let s := if go .SEIF_ITM_CTRL_STOP then doItmStop cont s else s
    if go .SEIF_ITM_CTRL_GO then doItmGo cont s else s.setReg .SEIF_ITM_CTRL_CONT 0 (b2n cont)
  | (.SEIF_ITM_CAL_GO, _) :: _ => if go .SEIF_ITM_CAL_GO then doItmCalGo s else s
  | (.LN_TABLE_CTRL_RELOAD, _) :: _ => if go .LN_TABLE_CTRL_RELOAD then doReload data.flatten s else s
  | (.CLS_PLACE_QUERY_GO, _) :: _ => if go .CLS_PLACE_QUERY_GO then doPlaceQuery (fld .CLS_PLACE_QUERY_FLOW) s else plain
  | (.CIS_ARB_CFG_WEIGHT, n) :: _ =>
    doArbCfgWrite n (fld .CIS_ARB_CFG_WEIGHT) (fld .CIS_ARB_CFG_BURST) (fld .CIS_ARB_CFG_WAIT_LIMIT) s
  | (.OAS_TIMING_CELLS, _) :: _ => doTimingCellsWrite (fld .OAS_TIMING_CELLS) s
  | (.OAS_REFILL_HIGH, _) :: _ => doRefillWrite (fld .OAS_REFILL_HIGH) (fld .OAS_REFILL_LOW) s
  | (.OAS_CELL_QUERY_GO, _) :: _ => if go .OAS_CELL_QUERY_GO then doCellQuery (fld .OAS_CELL_QUERY_CELL) s else plain
  | (.EGR_TLOAD_GO, _) :: _ =>
    if go .EGR_TLOAD_GO then doTload (is .EGR_TLOAD_TABLE) (is .EGR_TLOAD_HOLD) (fld .EGR_TLOAD_COUNT) (fld .EGR_TLOAD_FIRST) data s
    else plain
  | (.EGR_EXP_RATE, p) :: _ => (s.setBucket p (s.bucketNow p)).storeFields l v m a
  | (.SPE_QUERY_GO, _) :: _ => if go .SPE_QUERY_GO then doSpeQuery (fld .SPE_QUERY_PAIR) s else plain
  | (.SPE_RESET_GO, _) :: _ => if go .SPE_RESET_GO then doSpeReset (fld .SPE_RESET_PAIR) s else plain
  | (.SPE_PROBE_EN, _) :: _ => doSkewProbe (is .SPE_PROBE_EN) (fld .SPE_PROBE_PAIR) s
  | (.PRT_MPCFG_MP1, _) :: _ => (plain.mpFollow 256 (s.reg .PRT_MPCFG_MP0)).mpFollow 257 (s.reg .PRT_MPCFG_MP1)
  | (.LN_CFG_TRAIN, i) :: _ =>
    if plain.laneState i = 10 ∧ !isMywyn i ∧ !plain.flag .LN_CFG_RAW i then plain.laneAdminDown i
    else if plain.reg .LN_CFG_PRBS i = s.reg .LN_CFG_PRBS i then plain else plain.setReg .LN_PRBS_ERR_ERRORS i 0
  | (.OUT_CLK_CFG_EN, n) :: _ => plain.outFollow n
  | (.PAIR_CFG_EN, _) :: _ =>
    if bits m 31 31 = 0 ∧ bits m 27 24 = 0 then plain
    else { plain with sys := { plain.sys with selfScope := plain.sys.selfScope ||| 2 ^ 9 } }
  | (.HST_SHADOW_BASE_ADDR, _) :: _ | (.HST_SHADOW_CTRL_EN, _) :: _ =>
    { plain with sys := { plain.sys with selfScope := plain.sys.selfScope ||| 2 ^ 1 } }
  | (.HST_KICK_KICK, fn) :: _ => if go .HST_KICK_KICK then doKick fn s else s
  | (.HST_FN_CTRL_RUN, fn) :: _ =>
    let s := doFnRunWrite fn (is .HST_FN_CTRL_RUN) s
    if go .HST_FN_CTRL_QUIESCE then doQuiesce fn s else s
  | (.HST_EVQ_CTRL_EN, fn) :: t =>
    let s := s.storeFields t v m a
    if is .HST_EVQ_CTRL_EN then doRingEnable fn 2 0 s else doRingDisable fn 2 0 s
  | (.HST_SQ_CTRL_EN, i) :: t =>
    let s := s.storeFields t v m a
    if is .HST_SQ_CTRL_EN then doRingEnable (i / 256) 0 (i % 256) s else doRingDisable (i / 256) 0 (i % 256) s
  | (.HST_CQ_CTRL_EN, i) :: t =>
    let s := s.storeFields t v m a
    if is .HST_CQ_CTRL_EN then doRingEnable (i / 256) 1 (i % 256) s
    else if s.flag .HST_CQ_CTRL_EN i then doRingDisable (i / 256) 1 (i % 256) s
    else s
  | _ => plain

/-! ### Writes (R5, R601, R624) -/

/-- The bits that byte enables `be` select. -/
def beMask (be : Nat) : Nat := (List.range 4).foldl (fun a k => if bit be k then a + 0xFF * 256 ^ k else a) 0

/-- A write wakes a lowered subsystem of BAR0, and takes effect once it is active (R601). -/
def State.wakeFor (s : State) (a : Nat) : State :=
  if a < 0x4000000 ∧ s.reg .SYS_WAKE_SUB_STATE (blockOf a) ≠ 0 then s.setSub (blockOf a) 0 else s

/-- The bits of a register that a write stores: those of its live, staged and frozen fields. -/
def storedBits (l : List (Fld × Nat)) : Nat :=
  l.foldl (fun n x => match x.1.desc.kind with
    | .live | .staged | .frozen => n ||| (2 ^ x.1.width - 1) * 2 ^ x.1.desc.lo
    | _ => n) 0

/-- The write of the lowest port among some. -/
def lowestWrite (l : List (Nat × Nat × Nat × Nat × Nat × Nat)) : Nat × Nat × Nat × Nat × Nat × Nat :=
  l.foldl (fun b x => if x.1 < b.1 then x else b) (l.headD (7, 0, 0, 0, 0, 0))

/-- The writes of lower ports than `who` that the register at `a` has seen in this CORE cycle (R626). -/
def State.lowerWrites (s : State) (who a : Nat) : List (Nat × Nat × Nat × Nat × Nat × Nat) :=
  (s.wrotes a).filter fun x => decide (x.1 < Machine.pathOf who)

/-- Store a write. Of the writes of one register in one CORE cycle that of the lowest port comes last, and its value stands
(R626). -/
def State.storeOrdered (s : State) (who a v m : Nat) (data : List Line) : State :=
  let l := fieldsAt a
  let old := s.regWord l
  let earlier := s.lowerWrites who a
  let low := lowestWrite earlier
  let t := s.storeReg who a v m data
  let t := if earlier = [] ∨ t.regWord l = old then t
    else t.storeReg low.2.1 a low.2.2.2.1 (low.2.2.2.2.1 &&& storedBits l) []
  t.noteWrite who a v m old

/-- A 32-bit write of `v` with byte enables `be` by identity `who` at address `a`. The _LO of a pair is held for the path; the
_HI applies both halves as one write, or the upper one alone (R5). -/
def State.writeReg (s : State) (who a v be : Nat) (data : List Line) : State :=
  let l := fieldsAt a
  let v := v % 2 ^ 32
  let key := latchKey who a
  if !s.reaches who a true ∨ a % 4 ≠ 0 then s
  else if isPair l then { s with loHold := tset none key (some (a, be % 16 * 2 ^ 32 + v)) s.loHold }
  else if l ≠ [] then (s.wakeFor a).storeOrdered who a v (beMask be) data
  else if hiOf a ≠ [] then
    match tget none s.loHold key with
    | some (b, x) =>
      if b + 4 = a then
        (({ s with loHold := tdel key s.loHold } : State).wakeFor a).storeOrdered who b (v * 2 ^ 32 + x % 2 ^ 32)
          (beMask be * 2 ^ 32 + beMask (x / 2 ^ 32)) data
      else (s.wakeFor a).storeOrdered who (a - 4) (v * 2 ^ 32) (beMask be * 2 ^ 32) data
    | none => (s.wakeFor a).storeOrdered who (a - 4) (v * 2 ^ 32) (beMask be * 2 ^ 32) data
  else s

/-- LO_WRITE (R5). -/
def execLoWrite (who addr v be : Nat) (s : State) : Res := runReset (fun s => s.writeReg who addr v be []) s

/-- HI_WRITE (R5). -/
def execHiWrite (who addr v be : Nat) (s : State) : Res := runReset (fun s => s.writeReg who addr v be []) s

/-- REGISTER_WRITE (R7). A reset that the write requests resets the clock too. -/
def execRegisterWrite (who addr v be : Nat) (data : List Line) (s : State) : Res := runReset (fun s => s.writeReg who addr v be data) s

/-! ### The management endpoint (R606) -/

/-- The endpoint answers from the ROM state onward. -/
def State.mctpAnswer (s : State) (ty cmd : Nat) (d : List Nat) : State := if s.sys.held then s else s.emit (.mctp ty cmd d)

/-- MCTP_READ32 of a BAR0 offset, as identity 21. -/
def doMctpRead32 (off : Nat) (s : State) : State :=
  if s.sys.held then s
  else if 0x4000000 ≤ off then s.mctpAnswer 0x7F 1 (0 :: le 4 0)
  else
    let s := s.readReg 21 off
    s.mctpAnswer 0x7F 1 (0 :: le 4 s.lastRead)

def execMctpRead32 (off : Nat) (s : State) : Res := run (doMctpRead32 off) s

/-- MCTP_WRITE32 of a BAR0 offset, as identity 21; any other offset is answered with an error. -/
def doMctpWrite32 (off v : Nat) (s : State) : State :=
  if s.sys.held then s
  else if bmcWrites off ∧ off < 0x4000000 then (s.mctpAnswer 0x7F 2 [0]).writeReg 21 off v 15 []
  else s.mctpAnswer 0x7F 2 [1]

def execMctpWrite32 (off v : Nat) (s : State) : Res := runReset (doMctpWrite32 off v) s

/-- SET_ENDPOINT_ID: a reassignment releases the BMC's locks (R539). -/
def doSetEndpointId (eid : Nat) (s : State) : State :=
  if s.sys.held then s
  else
    let old := s.sys.mctpEid
    let e := eid % 256
    let s : State := { s with sys := { s.sys with mctpEid := e } }
    let s := if old ≠ 0 ∧ old ≠ e then s.abandon 21 else s
    s.mctpAnswer 0 1 [0, 0, e, 0]

def execSetEndpointId (eid : Nat) (s : State) : Res := run (doSetEndpointId eid) s

/-- GET_ENDPOINT_ID. -/
def execGetEndpointId (s : State) : Res := run (fun s => s.mctpAnswer 0 2 [0, s.sys.mctpEid, 0, 0]) s

/-- GET_MCTP_VERSION_SUPPORT of message type `ty`: the version number is a free value (log entry 11). -/
def execGetMctpVersionSupport (ty : Nat) (s : State) : Res :=
  run (fun s => (s.mctpAnswer 0 4 ([0, 1] ++ le 4 (Config.freeField (s.freeCtr + ty)))).fresh) s

/-- GET_MESSAGE_TYPE_SUPPORT: the vendor-defined type beside the control messages. -/
def execGetMessageTypeSupport (s : State) : Res := run (fun s => s.mctpAnswer 0 5 [0, 1, 0x7F]) s

end Machine
end Sys2Proof
end

