-- ==== Sys2Proof/Machine/Fetch.lean ====
section
/-!
DEFINITION. Commands that have been fetched and wait (R93-R96), completions that are posted, and reads of host memory that
come back.
-/
namespace Sys2Proof
namespace Machine

/-- The header and the specification of a row of the opcode table. -/
def specOf : Instr → Option (Hdr × Spec)
  | .nop h => some (h, specNop)
  | .commitAt h inst scope tick sec ns grain => some (h, specCommitAt h inst scope tick sec ns grain)
  | .flowAdd h flow check crc r => some (h, specFlowAdd h flow check crc r)
  | .flowDel h flow => some (h, specFlowDel h flow)
  | .flowMod h flow check crc r => some (h, specFlowMod h flow check crc r)
  | .flowBulk h first count delete => some (h, specFlowBulk h first count delete)
  | .groupSet h group list lines g ls => some (h, specGroupSet h group list lines g ls)
  | .placeHint h flow cache repl => some (h, specPlaceHint h flow cache repl)
  | .portSet h port width rate fec flags mask => some (h, specPortSet h port width rate fec flags mask)
  | .laneTrain h lane mode arg count => some (h, specLaneTrain h lane mode arg count)
  | .laneSweep h lane mode count addr len => some (h, specLaneSweep h lane mode count addr len)
  | .laneSlip h lane bits dir => some (h, specLaneSlip lane bits dir)
  | .timeSetIncr h units incr ppb => some (h, specTimeSetIncr units incr ppb)
  | .timeStep h abs delta sec ns grain => some (h, specTimeStep abs delta sec ns grain)
  | .tioSet h x => some (h, specTioSet x)
  | .refSet h d n rank revert soft hard qual bw => some (h, specRefSet d n rank revert soft hard qual bw)
  | .outAlign h mask => some (h, specOutAlign mask)
  | .pairSwap h => some (h, specPairSwap)
  | .pairCopy h all => some (h, specPairCopy h all)
  | .chkRun h u addr len => some (h, specChkRun h u addr len)
  | .cairnExport h area seq count addr len => some (h, specCairnExport h area seq count addr len)
  | .cairnClearFirst h confirm => some (h, specCairnClearFirst confirm)
  | .scrub h targets => some (h, specScrub h targets)
  | .auditNow h reclaim => some (h, specAuditNow reclaim)
  | .setWakeBudget h sub target wakeNs => some (h, specSetWakeBudget sub target wakeNs)
  | .opSuspend h handle => some (h, specOpControl h 0xA0 1 handle)
  | .opResume h handle => some (h, specOpControl h 0xA1 2 handle)
  | .opCancel h handle => some (h, specOpControl h 0xA2 3 handle)
  | .fwUpdate h activate addr len => some (h, specFwUpdate h activate addr len)
  | .pktInject h addr len port queue flags launchNs launchGrain buf =>
    some (h, specPktInject h addr len port queue flags launchNs launchGrain buf)
  | _ => none

/-- A waiting command starts, unless its fence, or one before it in its ring, still holds it back; `blocked` names the rings
held back so far. -/
def State.startOne (x : State × List (Nat × Nat)) (w : Waiting) : State × List (Nat × Nat) :=
  let s := x.1
  match specOf w.instr with
  | none => x
  | some (h, sp) =>
    if x.2.contains (w.fn, w.sq) then x
    else if h.fence ∧ s.ringBusy w.fn w.sq w.id then (s, (w.fn, w.sq) :: x.2)
    else
      let s : State := { s with hst := { s.hst with waiting := s.hst.waiting.filter fun v => v.id != w.id } }
      (s.begin h sp w.id w.early, x.2)

/-- While command execution runs, the waiting commands that can start do so, in fetch order (R48, R94, R96). -/
def State.startWaiting (s : State) : State :=
  if s.execWindow then (s.hst.waiting.foldl State.startOne (s, [])).1 else s

/-- COMPLETION_POST on completion ring `cq` of `fn` (R95, R98-R100): the next entry due is written when there is room; a fence
that waited for it is passed. -/
def doCompletionPost (fn cq : Nat) (s : State) : State :=
  let k := ring fn cq
  match s.nextCompletion fn cq with
  | none => s
  | some c =>
    if !s.flag .HST_CQ_CTRL_EN k then (s.discardCq fn cq).startWaiting
    else if s.cqRoom k then
      match c.res with
      | some r => (s.postEntry c r).startWaiting
      | none => s
    else s.showCqFull k

def execCompletionPost (fn cq : Nat) (s : State) : Res := run (doCompletionPost fn cq) s

/-- A kicked read is in flight no longer. -/
def State.kickDone (s : State) (fn : Nat) : State := { s with hst := { s.hst with kicked := tdel fn s.hst.kicked } }

/-- HOST_READ_RETURN (R89, R96, R120). -/
def doHostReadReturn (r : ReadBack) (s : State) : State :=
  match r with
  | .tails fn db =>
    if tget 0 s.hst.kicked fn ≠ 1 then s
    else
      let s := s.kickDone fn
      match db with
      | none => s.dmaError fn (s.reg .HST_DB_BASE_ADDR fn * 4096) 1
      | some d => if s.flag .HST_FN_CTRL_RUN fn then s.doorbell fn d 0xFFFF else s
  | .descriptors _ => s.startWaiting
  | .failed fn what addr sq =>
    let s := if what = 1 then s.kickDone fn else s
    let s := s.dmaError fn addr what
    if what = 2 then s.stopSq fn sq 3 else s

def execHostReadReturn (r : ReadBack) (s : State) : Res := run (doHostReadReturn r) s

end Machine
end Sys2Proof
end

