-- ==== Sys2Proof/Machine/Tick.lean ====
section
/-!
DEFINITION. The sandglass tick (ch. 02): how time runs within it, a step of time, the capture at its quiet window, and the
boundary that ends it with the events and the work of CORE cycle 0.
-/
namespace Sys2Proof
namespace Machine

/-! ### Time within a tick (R48) -/

/-- Time runs to CORE cycle `c` of the tick, if that lies ahead. -/
def State.runTo (s : State) (c : Nat) : State := s.runTime (min c s.clk.tickLen - s.clk.cycle)

/-- Time leaves CORE cycle 0: what is due there takes place first, if its own command has not come (R48, R66, R70, R116, R278). -/
def State.leaveBoundary (s : State) : State :=
  if s.clk.cycle = 0 then
    State.still (fun s => (doSweepDue (doComparatorRetire (doComparatorArm (doGenerationSwitch s)))).opsSettled) s
  else s

/-! ### A step of time (R47, R141, R379) -/

/-- The accumulator after a step: DELTA added, or SEC, NS and GRAIN set with the fraction below the grain clear (R379). -/
def StepReq.apply (r : StepReq) (acc : Nat) : Nat :=
  if r.absolute then r.full * 2 ^ 24 else ((acc : Int) + r.delta * (2 ^ 24 : Nat)).toNat

/-- The multiple of 1,000 ns at which the boundary after a step falls: the next one, or the one after it when that lies less
than 500 ns ahead (the case under R47). -/
def boundaryAfterStep (acc : Nat) : Nat :=
  let next := 1000 * cdiv acc (1000 * 2 ^ 40)
  if next * 2 ^ 40 - acc < 500 * 2 ^ 40 then next + 1000 else next

/-- The clock at a step: time, the tick number, and how long the tick still lasts. -/
def State.stepClock (s : State) (r : StepReq) : State :=
  let acc := r.apply s.clk.acc
  let s : State := { s with clk := { s.clk with acc := acc, tick := acc / 2 ^ 40 / 1000 } }
  { s with clk := { s.clk with tickLen := s.clk.cycle + ticksTo s (boundaryAfterStep acc) } }

/-- Tick numbers whose boundary the step has skipped (R651): from `old` to the one the step has reached, and the next one where
the boundary to come begins the one after it. -/
def skippedBy (old new acc : Nat) : List (Nat × Nat) :=
  let first := boundaryAfterStep acc / 1000
  if old + 1 ≤ first - 1 ∧ old ≤ new then [(old + 1, first - 1)] else if new + 1 < first then [(new + 1, first - 1)] else []

/-- Spans of elapsed time that are kept as instants follow the step, which is no part of them: pauses and their refresh,
token buckets, the midpoints of seif windows, the waits of delay requests, the watch of an opened output, and the last edge
stamped at a pin. -/
def State.spansStepped (s : State) (d : Int) : State :=
  let f (t : Tab Nat) : Tab Nat := t.map fun (x : Nat × Nat) => (x.1, ((x.2 : Int) + d).toNat)
  { s with
    prt := { s.prt with pauseEnd := f s.prt.pauseEnd, pauseFrom := f s.prt.pauseFrom, pauseTo := f s.prt.pauseTo, refresh := f s.prt.refresh }
    egr := { s.egr with
      bucketAt := f s.egr.bucketAt
      wire := s.egr.wire.map fun (x : Nat × List Leaving) => (x.1, x.2.map fun l => { l with since := ((l.since : Int) + d).toNat }) }
    outp := { s.outp with
      pins := s.outp.pins.map fun (x : Nat × OutPin) => (x.1, { x.2 with opened := if x.2.opened = 0 then 0 else ((x.2.opened : Int) + d).toNat }) }
    tme := { s.tme with
      nextDreq := f s.tme.nextDreq, nextPdelay := f s.tme.nextPdelay
      pins := s.tme.pins.map fun (x : Nat × Tio) => (x.1, { x.2 with last := if x.2.last = 0 then 0 else ((x.2.last : Int) + d).toNat }) }
    seif := { s.seif with
      due := s.seif.due.map fun (x : Nat × Nat × SeifWindow) => (x.1, ((x.2.1 : Int) + d).toNat, x.2.2)
      dirs := s.seif.dirs.map fun (x : Nat × SeifDir) => (x.1, { x.2 with at_ := ((x.2.at_ : Int) + d).toNat }) } }

/-- A timed set whose instant a forward step has passed retires at the second boundary after the step (the case under R74). -/
def Timed.stepped (t : Timed) (old new count : Nat) : Timed :=
  if old < t.instant ∧ t.instant ≤ new then { t with notBefore := count + 2 } else t

/-- What a step records and tells, from the state before its clock change (R379, R75), and what follows it. -/
def State.stepWork (s : State) (r : StepReq) (oldAcc oldTick : Nat) : State :=
  let old : Nat := oldAcc / 2 ^ 24
  let d : Int := (s.grains : Int) - old
  let s : State := { s with
    sys := { s.sys with
      skipped := s.sys.skipped ++ skippedBy oldTick s.clk.tick s.clk.acc
      timed := s.sys.timed.map fun t => t.stepped old s.grains s.clk.tickCount }
    tme := { s.tme with
      step := s.tme.step.filter (fun q => q.id != r.id), stepped := s.tme.stepped ++ [(r.id, oldTick, s.clk.tick)], steps := s.tme.steps + 1, lastStep := d
      lastSync := (List.range 256).map fun p => (p, s.grains + 1) } }
  let s := (s.setRegs [(.TME_STATUS_STEPPED, 0, 1), (.TME_STEP_LAST_GRAINS, 0, unsgn 64 d), (.TME_STEP_TICK_TICK, 0, s.clk.tick)]).countReg
    .TME_STATUS_STEPS 0 1
  let s := s.ev 144 [(8, unsgn 64 d), (6, s.clk.tick)]
  let s := s.ev 251 [(1, 2), (6, oldTick), (6, s.clk.tick), (4, unsgn 32 (d.tdiv 65536))]
  let s := ((s.tally1 5 8 0).fig fun f => { f with step := true }).abortHandover
  let s := (s.spansStepped d).gatesStepped
  doComparatorArm ((List.range 8).foldl (fun (s : State) n => s.tioStep n old) s)

/-- Steps that fall due: those accepted in an earlier tick, in the order of their acceptance (R141). -/
def State.stepsDue (s : State) : List StepReq := s.tme.step.filter fun r => decide (r.since < s.clk.tickCount)

/-- One step takes effect (R379); a comparator whose boundary it skips is armed at it, or found to have no room (R70, R73). -/
def State.stepOnce (s : State) (r : StepReq) : State := State.still (fun t => t.stepWork r s.clk.acc s.clk.tick) (s.stepClock r)

/-- What has waited for a later CORE cycle goes on in one that time reaches (R262, R288). -/
def State.cyclePassed (s : State) : State := State.still State.coreWork s

/-- CORE cycle 16: the steps that are due take effect, and the commands that waited for command execution start (R48, R379). -/
def State.atExec (s : State) : State := State.still State.startWaiting (s.stepsDue.foldl State.stepOnce s)

def doTimeStepApply (s : State) : State :=
  if s.sys.held ∨ s.stepsDue.isEmpty ∨ 16 < s.clk.cycle then s else (s.leaveBoundary.runTo 16).cyclePassed.atExec

/-- TIME_STEP_APPLY: at CORE cycle 16 of the tick after acceptance, time is stepped and the tick renumbered. -/
def execTimeStepApply (s : State) : Res := runTick doTimeStepApply s

/-! ### The quiet window, and time without commands (R48, R58) -/

/-- Command execution has begun: CORE cycle 16 has been reached. -/
def State.reachExec (s : State) : State := if s.clk.cycle < 16 then (s.leaveBoundary.runTo 16).cyclePassed.atExec else s

/-- The capture of this tick has been made. -/
def State.captureMade (s : State) : Bool := s.sys.capAt == s.clk.tickCount + 1

/-- The CORE cycle of the long-operation shares: 256 before the quiet window (R48, R135). -/
def State.shareCycle (s : State) : Nat := s.clk.tickLen - 320

/-- LONG_OP_SHARE: time reaches the cycle of the shares, and each running bulk takes its share of the tick, once, in slot order
(R54, R135); `reads` are the shadow entries read for each slot, in index order. -/
def doLongOpShare (reads : List (Nat × List FlowRead)) (s : State) : State :=
  if s.sys.held ∨ s.shareCycle < s.clk.cycle ∨ s.hst.sharedAt = s.clk.tickCount + 1 then s
  else
    let s := s.reachExec
    State.still (fun s => s.sharesTaken reads) (s.runTo s.shareCycle).cyclePassed

def execLongOpShare (reads : List (Nat × List FlowRead)) (s : State) : Res := runTick (doLongOpShare reads) s

/-- QUIET_WINDOW_CAPTURE: time reaches the last 64 CORE cycles of the tick, and every block in scope captures its staged set
(R48, R58, R59). -/
def doQuietWindowCapture (s : State) : State :=
  if s.sys.held ∨ s.captureMade then s
  else
    let s := s.reachExec
    State.still State.capture (s.runTo (s.clk.tickLen - 64)).cyclePassed

def execQuietWindowCapture (s : State) : Res := runTick doQuietWindowCapture s

/-- Time passes while no command is there: one CORE cycle, but for the boundary, which TICK_BOUNDARY makes. -/
def doIdle (s : State) : State :=
  if s.sys.held ∨ s.clk.tickLen ≤ s.clk.cycle + 1 then s
  else
    let s := (s.leaveBoundary.runTime 1).cyclePassed
    let s := if s.clk.cycle = 16 then s.atExec else s
    if s.clk.cycle + 64 = s.clk.tickLen ∧ !s.captureMade then State.still State.capture s else s

/-! ### The events of a tick (R613-R618) -/

/-- Bit of the PF's mask for event `e`, and the VF it is routed to (0: none), as in force in the tick (R618). -/
def State.evMasked (s : State) (e : Nat) : Bool := bit (tget 0 s.hst.evMask (e / 32)) (e % 32)
def State.evRouted (s : State) (e : Nat) : Nat := tget 0 s.hst.evRoute (e / 8) / 16 ^ (e % 8) % 16

/-- What function `f` receives of source `e`'s account: count, severity and detail (R613, R616). -/
def State.evFor (s : State) (e : Nat) (a : EvAcc) (f : Nat) : Option (Nat × Nat × List Nat) :=
  if f = 0 then (if s.evMasked e then none else some (a.count, a.sev, a.detail))
  else if s.evRouted e = f ∨ e = 240 then some (a.count, a.sev, a.detail)
  else if 241 ≤ e ∧ e ≤ 247 then (a.byFn.find? fun x => x.1 == f).map fun x => x.2
  else none

/-- The entries of the tick, in ascending event number, into every ring that receives them; then the rings signal, and the
routing registers apply to the next tick (R105, R613, R618). -/
def State.writeEvents (s : State) : State :=
  let l := s.evAcc
  let tick := s.clk.tick
  let s := l.foldl (fun (s : State) x => (List.range 16).foldl (fun (s : State) f =>
    match s.evFor x.1 x.2 f with
    | some (n, sev, d) => s.evqWrite f x.1 sev n tick d
    | none => s) s) { s with evAcc := [] }
  let words (f : Fld) (n : Nat) : Tab Nat := (List.range n).foldl (fun t m => tset 0 m (s.reg f m) t) []
  ({ s with hst := { s.hst with
      evMask := words .HST_EV_MASK_MASK 8, evRoute := words .HST_EV_ROUTE_FUNC 32, evSev := words .HST_EV_SEV_SEV 32 } } : State).evqSignals

/-- Ticks in which a priority is paused (R213, R554). -/
def State.pausedTick (s : State) : State :=
  (List.range 258).foldl (fun (s : State) p =>
    if s.reg .PRT_PFC_XOFF_RX p = 0 then s
    else (List.range 8).foldl (fun (s : State) prio =>
      if s.paused p prio then (s.portCount p (27 + prio) 1).tally 12 6 1 (prio + 1) 0 p 1 else s) s) s

/-- What the tick that ends leaves behind. -/
def State.endTick (s : State) : State := s.puntTick.cqHeldTick.pausedTick.writeEvents

/-! ### The work of CORE cycle 0 (R48) -/

/-- A switch, or a retirement, was due at the boundary before and has waited for one more tick (R68, R71). -/
def State.switchWaited (s : State) : Bool :=
  s.sys.switchDue || (match s.sys.timed with
    | some t => t.armed && decide (t.instant + 1000 * 65536 ≤ s.outp.accAt / 2 ^ 24) && decide (t.notBefore ≤ s.clk.tickCount)
    | none => false)

/-- Tick `n` begins: it is skipped no longer (R651). -/
def tickBegun (n : Nat) (l : List (Nat × Nat)) : List (Nat × Nat) :=
  l.flatMap fun r =>
    if n < r.1 ∨ r.2 < n then [r]
    else (if r.1 < n then [(r.1, n - 1)] else []) ++ (if n < r.2 then [(n + 1, r.2)] else [])

/-- E251 of an overrun (R49): the old and new tick numbers and the CORE cycles still outstanding. -/
def State.overrunTick (s : State) (old n : Nat) : State :=
  if n = 0 then s else (s.ev 251 [(1, 1), (6, old), (6, s.clk.tick), (4, n)]).tally1 0 7 0

/-- The switch the device makes itself for unheld updates falls due (R67, R73, R74). -/
def State.autoSwitch (s : State) : State :=
  if s.sys.switchDue ∨ !s.sys.unheldAny ∨ s.sys.noAuto ∨ s.sys.timed.isSome then s
  else { s with sys := { s.sys with switchDue := true, switchAuto := true } }

/-- The staged sets that were captured apply, and the commit is settled; `old` is the tick number that has ended, `waited`
whether a due switch has waited through it (R47, R59, R67, R68). -/
def State.applyTick (s : State) (old overrun : Nat) (waited : Bool) : State :=
  let s : State := { s with sys := { s.sys with
    skipped := tickBegun s.clk.tick s.sys.skipped, budget := 4096, refused := [], refusedUpd := 0, timedTick := false } }
  let s : State := { s with hst := { s.hst with fetched := [], turn := s.hst.turn.map fun (x : Nat × Nat × Nat) => (x.1, x.2.1, 8) } }
  let s := if waited then
      (({ s with sys := { s.sys with stall := s.sys.stall + 1 } } : State).countReg .SYS_GEN_STALL_TICKS 0 1).tally1 0 8 0
    else s
  ((s.overrunTick old overrun).applyCaptured.settleCommit).autoSwitch

/-- PORT_SETs accepted in the tick apply (R138, R190). -/
def State.applyPortSets (s : State) : State :=
  let l := s.prt.sets
  l.foldl (fun (s : State) x => s.applyPortSet x) { s with prt := { s.prt with sets := [] } }

/-- A TIME_STEP completes at the boundary that ends the tick of its step (R141). -/
def State.stepEnds (s : State) : State :=
  s.tme.stepped.foldl (fun (s : State) x => s.complete x.1 stOK (le 8 x.2.1 ++ le 8 x.2.2))
    { s with tme := { s.tme with stepped := [] } }

/-- Every subsystem's own work at the boundary, `cycles` after the last one. -/
def State.boundaryWork (s : State) (x : BoundaryIn) (cycles : Nat) : State :=
  let s := (s.xoTick cycles).applyPortSets.opsTick.stepEnds.sweepTick
  let s := if s.switchReady then s else s.boundaryUpdates
  let s := x.raw.foldl State.rawReading (x.lanes.foldl State.laneReading s)
  let s := ((s.tempTick x.temps).stackTemp x.stack).seifTick
  let s := s.creditTick.outTick cycles
  let s := s.mbxTick.speTick.holdTick.gateTick
  let s := s.pairTick.obsTick
  let s := (s.countCycles cycles).cairnTick
  let s := s.powerTick.judgeTraceable.itmAge.cqAgeTick
  { s with
    tme := { s.tme with agentQ := 0 }, cls := { s.cls with snoops := 0 }
    swc := { s.swc with hostNext := s.swc.hostNext - cycles } }

/-- Time runs to the boundary: to the end of the tick as it was known, and on while a slew that changed in it keeps the
multiple of 1,000 ns ahead (R46, R47). -/
def State.runToEnd (s : State) : State :=
  let s := s.runTo s.clk.tickLen
  let next := 1000 * (s.clk.tick + 1)
  if s.taiNs < next then s.runTime (ticksTo s next) else s

/-- The clock at the boundary: the tick number follows time, the count rises by one (R46, R47). -/
def Clock.advance (c : Clock) : Clock :=
  { c with tick := c.acc / 2 ^ 40 / 1000, tickCount := c.tickCount + 1, cycle := 0 }

/-- The length of the tick that begins (R48). -/
def State.setTickLen (s : State) : State :=
  { s with clk := { s.clk with tickLen := ticksTo s (1000 * (s.clk.tick + 1)) } }

/-- TICK_BOUNDARY. -/
def doTickBoundary (x : BoundaryIn) (s : State) : State :=
  if s.sys.held then s
  else
    let s := (doQuietWindowCapture s).runToEnd
    let old := s.clk.tick
    let cycles := s.clk.cycle
    let waited := s.switchWaited
    let s := State.still State.endTick s
    let s := { s with clk := s.clk.advance }
    let s := State.still (fun s => s.applyTick old x.overrun waited) s
    State.still (fun s => s.boundaryWork x cycles) s.setTickLen

def execTickBoundary (x : BoundaryIn) (s : State) : Res := runTick (doTickBoundary x) s

end Machine
end Sys2Proof
end

