-- ==== Sys2Proof/Machine/Dispatch.lean ====
section
/-!
DEFINITION. The dispatcher: one arm per command, each a direct call of its meaning.
-/
namespace Sys2Proof
namespace Machine

/-- The effect of a command on everything but the queue (R7, R122, and the rule of each row). -/
def exec (i : Instr) (s : State) : Host.Outcome State Fault Refusal :=
  match i with
  | .nop h => Sys2Proof.Machine.execNop h s
  | .commitAt h inst scope tick sec ns grain => Sys2Proof.Machine.execCommitAt h inst scope tick sec ns grain s
  | .flowAdd h flow check crc r => Sys2Proof.Machine.execFlowAdd h flow check crc r s
  | .flowDel h flow => Sys2Proof.Machine.execFlowDel h flow s
  | .flowMod h flow check crc r => Sys2Proof.Machine.execFlowMod h flow check crc r s
  | .flowBulk h first count delete => Sys2Proof.Machine.execFlowBulk h first count delete s
  | .groupSet h group list lines g ls => Sys2Proof.Machine.execGroupSet h group list lines g ls s
  | .placeHint h flow cache repl => Sys2Proof.Machine.execPlaceHint h flow cache repl s
  | .portSet h port width rate fec flags mask => Sys2Proof.Machine.execPortSet h port width rate fec flags mask s
  | .laneTrain h lane mode arg count => Sys2Proof.Machine.execLaneTrain h lane mode arg count s
  | .laneSweep h lane mode count addr len => Sys2Proof.Machine.execLaneSweep h lane mode count addr len s
  | .laneSlip h lane bits dir => Sys2Proof.Machine.execLaneSlip h lane bits dir s
  | .timeSetIncr h units incr ppb => Sys2Proof.Machine.execTimeSetIncr h units incr ppb s
  | .timeStep h abs delta sec ns grain => Sys2Proof.Machine.execTimeStep h abs delta sec ns grain s
  | .tioSet h x => Sys2Proof.Machine.execTioSet h x s
  | .refSet h d n rank revert soft hard qual bw => Sys2Proof.Machine.execRefSet h d n rank revert soft hard qual bw s
  | .outAlign h mask => Sys2Proof.Machine.execOutAlign h mask s
  | .pairSwap h => Sys2Proof.Machine.execPairSwap h s
  | .pairCopy h all => Sys2Proof.Machine.execPairCopy h all s
  | .chkRun h u addr len => Sys2Proof.Machine.execChkRun h u addr len s
  | .cairnExport h area seq count addr len => Sys2Proof.Machine.execCairnExport h area seq count addr len s
  | .cairnClearFirst h confirm => Sys2Proof.Machine.execCairnClearFirst h confirm s
  | .scrub h targets => Sys2Proof.Machine.execScrub h targets s
  | .auditNow h reclaim => Sys2Proof.Machine.execAuditNow h reclaim s
  | .setWakeBudget h sub target wakeNs => Sys2Proof.Machine.execSetWakeBudget h sub target wakeNs s
  | .opSuspend h handle => Sys2Proof.Machine.execOpSuspend h handle s
  | .opResume h handle => Sys2Proof.Machine.execOpResume h handle s
  | .opCancel h handle => Sys2Proof.Machine.execOpCancel h handle s
  | .fwUpdate h activate addr len => Sys2Proof.Machine.execFwUpdate h activate addr len s
  | .pktInject h addr len port queue flags launchNs launchGrain buf => Sys2Proof.Machine.execPktInject h addr len port queue flags launchNs launchGrain buf s
  | .mctpRead32 off => Sys2Proof.Machine.execMctpRead32 off s
  | .mctpWrite32 off v => Sys2Proof.Machine.execMctpWrite32 off v s
  | .setEndpointId eid => Sys2Proof.Machine.execSetEndpointId eid s
  | .getEndpointId => Sys2Proof.Machine.execGetEndpointId s
  | .getMctpVersionSupport ty => Sys2Proof.Machine.execGetMctpVersionSupport ty s
  | .getMessageTypeSupport => Sys2Proof.Machine.execGetMessageTypeSupport s
  | .sysCommit at_ tables scope => Sys2Proof.Machine.execSysCommit at_ tables scope s
  | .sysResetWarm who => Sys2Proof.Machine.execSysResetWarm who s
  | .sysResetCold who => Sys2Proof.Machine.execSysResetCold who s
  | .sysBlockReset mask => Sys2Proof.Machine.execSysBlockReset mask s
  | .startClear who => Sys2Proof.Machine.execStartClear who s
  | .kick fn => Sys2Proof.Machine.execKick fn s
  | .fnRunWrite fn v => Sys2Proof.Machine.execFnRunWrite fn v s
  | .quiesce fn => Sys2Proof.Machine.execQuiesce fn s
  | .ringEnable fn kind n => Sys2Proof.Machine.execRingEnable fn kind n s
  | .ringDisable fn kind n => Sys2Proof.Machine.execRingDisable fn kind n s
  | .timeSnapshotRead f => Sys2Proof.Machine.execTimeSnapshotRead f s
  | .timeLatchRead => Sys2Proof.Machine.execTimeLatchRead s
  | .loRead who addr => Sys2Proof.Machine.execLoRead who addr s
  | .hiRead who addr => Sys2Proof.Machine.execHiRead who addr s
  | .loWrite who addr v be => Sys2Proof.Machine.execLoWrite who addr v be s
  | .hiWrite who addr v be => Sys2Proof.Machine.execHiWrite who addr v be s
  | .slewWrite who amount => Sys2Proof.Machine.execSlewWrite who amount s
  | .txsPop ix => Sys2Proof.Machine.execTxsPop ix s
  | .tioInPop n => Sys2Proof.Machine.execTioInPop n s
  | .tmeCfgWrite who compat owner => Sys2Proof.Machine.execTmeCfgWrite who compat owner s
  | .servoFreqWrite who freq ctrl => Sys2Proof.Machine.execServoFreqWrite who freq ctrl s
  | .reload table => Sys2Proof.Machine.execReload table s
  | .cellQuery c => Sys2Proof.Machine.execCellQuery c s
  | .refillWrite high low => Sys2Proof.Machine.execRefillWrite high low s
  | .timingCellsWrite cells => Sys2Proof.Machine.execTimingCellsWrite cells s
  | .placeQuery flow => Sys2Proof.Machine.execPlaceQuery flow s
  | .arbCfgWrite n weight burst limit => Sys2Proof.Machine.execArbCfgWrite n weight burst limit s
  | .tload table hold count first entries => Sys2Proof.Machine.execTload table hold count first entries s
  | .speQuery pair => Sys2Proof.Machine.execSpeQuery pair s
  | .speReset pair => Sys2Proof.Machine.execSpeReset pair s
  | .skewProbe en pair => Sys2Proof.Machine.execSkewProbe en pair s
  | .itmGo cont => Sys2Proof.Machine.execItmGo cont s
  | .itmStop cont => Sys2Proof.Machine.execItmStop cont s
  | .itmCalGo => Sys2Proof.Machine.execItmCalGo s
  | .selfTest n => Sys2Proof.Machine.execSelfTest n s
  | .aliveClear n ctx => Sys2Proof.Machine.execAliveClear n ctx s
  | .doorbellRing who bits => Sys2Proof.Machine.execDoorbellRing who bits s
  | .doorbellMaskWrite who r mask => Sys2Proof.Machine.execDoorbellMaskWrite who r mask s
  | .channelBind who n valid sender receiver remote => Sys2Proof.Machine.execChannelBind who n valid sender receiver remote s
  | .bindLock who => Sys2Proof.Machine.execBindLock who s
  | .messageWordWrite who n w v => Sys2Proof.Machine.execMessageWordWrite who n w v s
  | .messageRead who n w => Sys2Proof.Machine.execMessageRead who n w s
  | .flush who n => Sys2Proof.Machine.execFlush who n s
  | .lockAcquire who k => Sys2Proof.Machine.execLockAcquire who k s
  | .lockRelease who k => Sys2Proof.Machine.execLockRelease who k s
  | .counterSelect u k idx w => Sys2Proof.Machine.execCounterSelect u k idx w s
  | .counterClear u mask => Sys2Proof.Machine.execCounterClear u mask s
  | .samplerEnable k en => Sys2Proof.Machine.execSamplerEnable k en s
  | .cairnEnableWrite en => Sys2Proof.Machine.execCairnEnableWrite en s
  | .cairnIntervalWrite v => Sys2Proof.Machine.execCairnIntervalWrite v s
  | .registerWrite who addr v be data => Sys2Proof.Machine.execRegisterWrite who addr v be data s
  | .flr fn => Sys2Proof.Machine.execFlr fn s
  | .pcieLinkDown kind ltssm => Sys2Proof.Machine.execPcieLinkDown kind ltssm s
  | .hstLink rate width ltssm => Sys2Proof.Machine.execHstLink rate width ltssm s
  | .vfEnable n => Sys2Proof.Machine.execVfEnable n s
  | .msixUnmask fn v => Sys2Proof.Machine.execMsixUnmask fn v s
  | .tickBoundary x => Sys2Proof.Machine.execTickBoundary x s
  | .quietWindowCapture => Sys2Proof.Machine.execQuietWindowCapture s
  | .generationSwitch => Sys2Proof.Machine.execGenerationSwitch s
  | .generationStall => Sys2Proof.Machine.execGenerationStall s
  | .generationRetire n => Sys2Proof.Machine.execGenerationRetire n s
  | .comparatorArm => Sys2Proof.Machine.execComparatorArm s
  | .comparatorRetire => Sys2Proof.Machine.execComparatorRetire s
  | .doorbellPoll fn db => Sys2Proof.Machine.execDoorbellPoll fn db s
  | .completionPost fn cq => Sys2Proof.Machine.execCompletionPost fn cq s
  | .cqInterrupt fn cq => Sys2Proof.Machine.execCqInterrupt fn cq s
  | .longOpShare reads => Sys2Proof.Machine.execLongOpShare reads s
  | .longOpDone slot r => Sys2Proof.Machine.execLongOpDone slot r s
  | .suspendTimeout slot => Sys2Proof.Machine.execSuspendTimeout slot s
  | .timeStepApply => Sys2Proof.Machine.execTimeStepApply s
  | .slewDone => Sys2Proof.Machine.execSlewDone s
  | .servoTimeout => Sys2Proof.Machine.execServoTimeout s
  | .frameHead x => Sys2Proof.Machine.execFrameHead x s
  | .furtherCellRequest id => Sys2Proof.Machine.execFurtherCellRequest id s
  | .cellRetry id => Sys2Proof.Machine.execCellRetry id s
  | .frameEnd id x => Sys2Proof.Machine.execFrameEnd id x s
  | .flowMissDone ix lineBad => Sys2Proof.Machine.execFlowMissDone ix lineBad s
  | .windowReadDone id line record unread => Sys2Proof.Machine.execWindowReadDone id line record unread s
  | .missQueueRoom p => Sys2Proof.Machine.execMissQueueRoom p s
  | .mergeQueueRoom p => Sys2Proof.Machine.execMergeQueueRoom p s
  | .caravanQueueRoom sl => Sys2Proof.Machine.execCaravanQueueRoom sl s
  | .copyStart p x => Sys2Proof.Machine.execCopyStart p x s
  | .copyEnd p x => Sys2Proof.Machine.execCopyEnd p x s
  | .pauseFrameReceive p isPfc quanta all => Sys2Proof.Machine.execPauseFrameReceive p isPfc quanta all s
  | .pauseExpiry p prio => Sys2Proof.Machine.execPauseExpiry p prio s
  | .xoffRefresh p prio => Sys2Proof.Machine.execXoffRefresh p prio s
  | .holdRelease p prio => Sys2Proof.Machine.execHoldRelease p prio s
  | .holdLimit p prio sending => Sys2Proof.Machine.execHoldLimit p prio sending s
  | .ventStart p prio => Sys2Proof.Machine.execVentStart p prio s
  | .preemptVerify p kind => Sys2Proof.Machine.execPreemptVerify p kind s
  | .pacerRelease k => Sys2Proof.Machine.execPacerRelease k s
  | .gateChange p => Sys2Proof.Machine.execGateChange p s
  | .gateListSwap p => Sys2Proof.Machine.execGateListSwap p s
  | .syncSend p => Sys2Proof.Machine.execSyncSend p s
  | .followUpSend p => Sys2Proof.Machine.execFollowUpSend p s
  | .delayReqSend p => Sys2Proof.Machine.execDelayReqSend p s
  | .pdelayReqSend p => Sys2Proof.Machine.execPdelayReqSend p s
  | .delayRespSend p => Sys2Proof.Machine.execDelayRespSend p s
  | .pdelayRespSend p => Sys2Proof.Machine.execPdelayRespSend p s
  | .twostepEntryAge => Sys2Proof.Machine.execTwostepEntryAge s
  | .esmcPduReceive port ssm tlv => Sys2Proof.Machine.execEsmcPduReceive port ssm tlv s
  | .esmcTimeout k => Sys2Proof.Machine.execEsmcTimeout k s
  | .esmcInfoSend => Sys2Proof.Machine.execEsmcInfoSend s
  | .esmcEventSend => Sys2Proof.Machine.execEsmcEventSend s
  | .injectLaunch => Sys2Proof.Machine.execInjectLaunch s
  | .refetchDone t ix r => Sys2Proof.Machine.execRefetchDone t ix r s
  | .refetchRetry t ix => Sys2Proof.Machine.execRefetchRetry t ix s
  | .scrubPass damaged => Sys2Proof.Machine.execScrubPass damaged s
  | .arbContest w => Sys2Proof.Machine.execArbContest w s
  | .freeRingReadDone bad line => Sys2Proof.Machine.execFreeRingReadDone bad line s
  | .sweepDue => Sys2Proof.Machine.execSweepDue s
  | .sweepMarkDone => Sys2Proof.Machine.execSweepMarkDone s
  | .sweepEnd => Sys2Proof.Machine.execSweepEnd s
  | .sweepTimeout => Sys2Proof.Machine.execSweepTimeout s
  | .placeInterval => Sys2Proof.Machine.execPlaceInterval s
  | .fillReadDone flow ok => Sys2Proof.Machine.execFillReadDone flow ok s
  | .placeTimeout flow => Sys2Proof.Machine.execPlaceTimeout flow s
  | .directoryRereadDone flow ok => Sys2Proof.Machine.execDirectoryRereadDone flow ok s
  | .speSweep => Sys2Proof.Machine.execSpeSweep s
  | .auditComplete u egress => Sys2Proof.Machine.execAuditComplete u egress s
  | .chkJobDone n data fault => Sys2Proof.Machine.execChkJobDone n data fault s
  | .chkWait n => Sys2Proof.Machine.execChkWait n s
  | .dumpDue => Sys2Proof.Machine.execDumpDue s
  | .dumpWriteDone => Sys2Proof.Machine.execDumpWriteDone s
  | .flowPassDone bad => Sys2Proof.Machine.execFlowPassDone bad s
  | .cairnIntervalClose => Sys2Proof.Machine.execCairnIntervalClose s
  | .cairnMirrorProgramDone ok => Sys2Proof.Machine.execCairnMirrorProgramDone ok s
  | .tioPulseEdge n => Sys2Proof.Machine.execTioPulseEdge n s
  | .tioInputEdge n rising g => Sys2Proof.Machine.execTioInputEdge n rising g s
  | .seifBeat p d sample => Sys2Proof.Machine.execSeifBeat p d sample s
  | .seifWindowEnd p d back => Sys2Proof.Machine.execSeifWindowEnd p d back s
  | .seifLost p d freq => Sys2Proof.Machine.execSeifLost p d freq s
  | .itmStartEdge cycle tap src => Sys2Proof.Machine.execItmStartEdge cycle tap src s
  | .itmStopEdge cycle tap src => Sys2Proof.Machine.execItmStopEdge cycle tap src s
  | .itmWinExpiry => Sys2Proof.Machine.execItmWinExpiry s
  | .itmTimeout => Sys2Proof.Machine.execItmTimeout s
  | .itmCalDone y temp => Sys2Proof.Machine.execItmCalDone y temp s
  | .refGateEnd l => Sys2Proof.Machine.execRefGateEnd l s
  | .refSignalLoss x => Sys2Proof.Machine.execRefSignalLoss x s
  | .refSignalReturn n => Sys2Proof.Machine.execRefSignalReturn n s
  | .candidateQualified d n => Sys2Proof.Machine.execCandidateQualified d n s
  | .historySecond => Sys2Proof.Machine.execHistorySecond s
  | .xoPpbUpdate => Sys2Proof.Machine.execXoPpbUpdate s
  | .xoTrustExpiry => Sys2Proof.Machine.execXoTrustExpiry s
  | .dpllLockDetect x => Sys2Proof.Machine.execDpllLockDetect x s
  | .dpllAcqTimeout d => Sys2Proof.Machine.execDpllAcqTimeout d s
  | .dpllNarrowStep d => Sys2Proof.Machine.execDpllNarrowStep d s
  | .dpllPhaseLoss x => Sys2Proof.Machine.execDpllPhaseLoss x s
  | .synthLockLoss mask line => Sys2Proof.Machine.execSynthLockLoss mask line s
  | .bypassReturn n => Sys2Proof.Machine.execBypassReturn n s
  | .outDivLoad => Sys2Proof.Machine.execOutDivLoad s
  | .alignMoveDone n resid => Sys2Proof.Machine.execAlignMoveDone n resid s
  | .outGateChange n v => Sys2Proof.Machine.execOutGateChange n v s
  | .calCheck found resid => Sys2Proof.Machine.execCalCheck found resid s
  | .thermalTrip => Sys2Proof.Machine.execThermalTrip s
  | .avsDeviation x => Sys2Proof.Machine.execAvsDeviation x s
  | .subsystemWake u byWrite => Sys2Proof.Machine.execSubsystemWake u byWrite s
  | .claimFrameReceive sync claim tail => Sys2Proof.Machine.execClaimFrameReceive sync claim tail s
  | .claimSourceExpiry src => Sys2Proof.Machine.execClaimSourceExpiry src s
  | .claimMismatch => Sys2Proof.Machine.execClaimMismatch s
  | .heartbeatBoundary => Sys2Proof.Machine.execHeartbeatBoundary s
  | .joinWaitExpiry => Sys2Proof.Machine.execJoinWaitExpiry s
  | .heartbeatFrameReceive m check alive => Sys2Proof.Machine.execHeartbeatFrameReceive m check alive s
  | .mywynMessageReceive lane m check alive => Sys2Proof.Machine.execMywynMessageReceive lane m check alive s
  | .markerAlignmentLoss k => Sys2Proof.Machine.execMarkerAlignmentLoss k s
  | .epochBoundary => Sys2Proof.Machine.execEpochBoundary s
  | .epochApply => Sys2Proof.Machine.execEpochApply s
  | .epochDiscard => Sys2Proof.Machine.execEpochDiscard s
  | .handoverInstant => Sys2Proof.Machine.execHandoverInstant s
  | .handoverEnd => Sys2Proof.Machine.execHandoverEnd s
  | .driverWatch n => Sys2Proof.Machine.execDriverWatch n s
  | .mbxDataSend n => Sys2Proof.Machine.execMbxDataSend n s
  | .mbxDataReceive ch src tog words => Sys2Proof.Machine.execMbxDataReceive ch src tog words s
  | .mbxAckReceive ch => Sys2Proof.Machine.execMbxAckReceive ch s
  | .mbxNakReceive ch => Sys2Proof.Machine.execMbxNakReceive ch s
  | .mbxDoorbellReceive bits => Sys2Proof.Machine.execMbxDoorbellReceive bits s
  | .mbxResend n => Sys2Proof.Machine.execMbxResend n s
  | .xwaitDetect a b => Sys2Proof.Machine.execXwaitDetect a b s
  | .lockHoldExpiry k => Sys2Proof.Machine.execLockHoldExpiry k s
  | .jtagTapReset => Sys2Proof.Machine.execJtagTapReset s
  | .laneSignalDetect ix => Sys2Proof.Machine.execLaneSignalDetect ix s
  | .laneSignalLoss ix lockOnly => Sys2Proof.Machine.execLaneSignalLoss ix lockOnly s
  | .ladderBlockSend ix => Sys2Proof.Machine.execLadderBlockSend ix s
  | .ladderBlockReceive ix b => Sys2Proof.Machine.execLadderBlockReceive ix b s
  | .laneRungChange ix => Sys2Proof.Machine.execLaneRungChange ix s
  | .dmePageReceive ix resolved trained x => Sys2Proof.Machine.execDmePageReceive ix resolved trained x s
  | .rungTimeout ix hwFail => Sys2Proof.Machine.execRungTimeout ix hwFail s
  | .backoffExpiry ix => Sys2Proof.Machine.execBackoffExpiry ix s
  | .portUp p => Sys2Proof.Machine.execPortUp p s
  | .powerOn => Sys2Proof.Machine.execPowerOn s
  | .railFault => Sys2Proof.Machine.execRailFault s
  | .resetPin => Sys2Proof.Machine.execResetPin s
  | .internalResetRelease => Sys2Proof.Machine.execInternalResetRelease s
  | .romDone sel a b => Sys2Proof.Machine.execRomDone sel a b s
  | .xoDetectTimeout => Sys2Proof.Machine.execXoDetectTimeout s
  | .verifyDone okA okB => Sys2Proof.Machine.execVerifyDone okA okB s
  | .hbmTrainingDone ok => Sys2Proof.Machine.execHbmTrainingDone ok s
  | .firmwareReady => Sys2Proof.Machine.execFirmwareReady s
  | .notReadyTimeout => Sys2Proof.Machine.execNotReadyTimeout s
  | .startRetry => Sys2Proof.Machine.execStartRetry s
  | .failedCountReset => Sys2Proof.Machine.execFailedCountReset s
  | .watchdogExpiry c => Sys2Proof.Machine.execWatchdogExpiry c s
  | .xoLoss => Sys2Proof.Machine.execXoLoss s
  | .hostReadReturn r => Sys2Proof.Machine.execHostReadReturn r s
  | .mirrorEraseDone => Sys2Proof.Machine.execMirrorEraseDone s
  | .dpll0XoLockTimeout => Sys2Proof.Machine.execDpll0XoLockTimeout s
  | .thermalHoldRelease => Sys2Proof.Machine.execThermalHoldRelease s
  | .hbmInterfaceError channel kind => Sys2Proof.Machine.execHbmInterfaceError channel kind s

end Machine
end Sys2Proof
end

