-- ==== Sys2Proof/Safety.lean ====
section
/-!
DEFINITION. The terms in which claims about the block are stated: what a command's completing means, when a descriptor is
fetched and started at once, and the invariant of the clock.
-/
namespace Sys2Proof
namespace Machine

/-- The command answers a next state, and that state is as `P` says. -/
def Completes (i : Instr) (s : State) (P : State → Prop) : Prop := ∃ t, exec i s = .next t ∧ P t

/-- Registers of the accounts that every command may add to: the programmable counters (R546-R549). -/
def Fld.isAccount (f : Fld) : Bool := f == .OBS_U_CNT_VALUE || f == .OBS_U_OVF_OVF

/-- The state without the registers, and without the accounts that every command may add to: the events of the tick
(R613), Cairn's figures of them (R570), the guard counters (R39), and the model's note of what hardware has set in the CORE
cycle (R8). -/
def State.body (s : State) : State :=
  { s with
    regs := []
    hw := HwSets.none_
    guards := []
    evAcc := []
    cairn := { s.cairn with evt := [], sevCnt := [], figs := Figs.zero } }

/-- The states agree in everything but the accounts: in every field of State, and in what every register field of every
index reads. -/
def Agree (t x : State) : Prop :=
  t.body = x.body ∧ ∀ f i, Fld.isAccount f = false → i < 8192 → t.reg f i = x.reg f i

/-- The command answers a next state, which agrees with `x` but for the queue and the clock, and those are unchanged: what
`x` does not change is unchanged. -/
def Yields (i : Instr) (s x : State) : Prop := ∃ t, exec i s = .next t ∧ Agree t { x with pending := s.pending, clk := s.clk }

/-- Event source `e` has an occurrence in the tick's account (R613). -/
def State.raised (s : State) (e : Nat) : Prop := (tget EvAcc.zero s.evAcc e).count ≠ 0

/-- The state in which a descriptor's checks are made: it has been fetched. -/
def State.fetched (s : State) (h : Hdr) (sp : Spec) : State := s.fetch h sp.opc

/-- A descriptor with header `h` is fetched now and starts at once, and every check of R124 passes (R52, R86, R92-R96, R124). -/
def Starts (s : State) (h : Hdr) (sp : Spec) : Prop :=
  s.fetchable h.fn h.sq = true ∧ s.cqUsable h.fn h.cq = true ∧ tget 0 s.hst.fetched h.fn < fetchBudget ∧
    (s.fetched h sp).execWindow = true ∧ ((s.fetched h sp).hst.waiting.any fun w => sameRing w h.fn h.sq) = false ∧
    (h.fence = true → (s.fetched h sp).ringBusy h.fn h.sq s.hst.nextId = false) ∧
    (s.fetched h sp).acceptance h sp.opc (s.fetched h sp).wrapNs (sp.chk (s.fetched h sp)) = none

/-- The state in which the work of a started descriptor is done: its entry updates are charged (R53). -/
def State.charged (s : State) (h : Hdr) (sp : Spec) : State :=
  let u := s.fetched h sp
  { u with sys := { u.sys with budget := u.sys.budget - (sp.chk u).updates } }

/-- Every fetched command with this id has this outcome: it is due, or already posted or (QUIET) dropped (R90, R95). -/
def State.outcomeOf (s : State) (id : Nat) (r : Cpl) : Prop := ∀ c ∈ s.hst.cmds, c.id = id → c.res = some r

/-- Fields whose reading does something (R375, R395, R402, R527, R536). -/
def readActs (f : Fld) : Bool := f ∈ [.TME_INST_TXS_VALID, .TME_TIO_IN_VALID, .MBX_CH_DATA_WORD, .MBX_LOCK_GRANTED]

/-- Fields whose register does something when it is written, beyond holding the value. -/
def writeActs (f : Fld) : Bool :=
  f ∈ [
    .SYS_COMMIT_GO, .SYS_START_CLEAR, .SYS_RESET_GO, .SYS_BLOCK_RESET_BLOCK, .MBX_CTRL_LOCKED, .MBX_DB_SET_BITS,
    .MBX_DB_PEND_BITS, .MBX_DB_MASK_BITS, .MBX_CH_BIND_VALID, .MBX_CH_CTRL_FLUSH, .MBX_CH_DATA_WORD,
    .MBX_LOCK_GRANTED, .OBS_SAMP_CFG_EN, .OBS_CAIRN_CTRL_EN, .OBS_CAIRN_CFG_INTERVAL, .OBS_U_SEL_ALL, .OBS_U_IDX_IDX,
    .OBS_U_CLEAR_CNT, .CHK_UNIT_TEST_GO, .CHK_UNIT_CLEAR_CTX, .CHK_UNIT_SKIPPED_COUNT, .TME_CFG_COMPAT,
    .TME_TRACE_SET, .TME_INCR_INCR, .TME_SLEW_AMT_AMOUNT, .TME_SLEW_RATE_PPB, .TME_SERVO_FREQ_FREQ,
    .TME_SERVO_CTRL_VALID, .SEIF_ITM_CTRL_GO, .SEIF_ITM_CAL_GO, .LN_TABLE_CTRL_RELOAD, .CLS_PLACE_QUERY_GO,
    .CIS_ARB_CFG_WEIGHT, .OAS_TIMING_CELLS, .OAS_REFILL_HIGH, .OAS_CELL_QUERY_GO, .EGR_TLOAD_GO, .EGR_EXP_RATE,
    .SPE_QUERY_GO, .SPE_RESET_GO, .SPE_PROBE_EN, .PRT_MPCFG_MP1, .LN_CFG_TRAIN, .OUT_CLK_CFG_EN, .PAIR_CFG_EN,
    .HST_SHADOW_BASE_ADDR, .HST_SHADOW_CTRL_EN, .HST_KICK_KICK, .HST_FN_CTRL_RUN, .HST_EVQ_CTRL_EN, .HST_SQ_CTRL_EN,
    .HST_CQ_CTRL_EN, .TME_PORT_CFG_INST]

/-- A write of `v` in the bits of `m` of the plain register at `a` by `who`: each field by its kind; and where a lower port has
written it in the CORE cycle, that port's value stands in the bits it wrote (R7, R62, R626). -/
def State.stored (s : State) (who a : Nat) (l : List (Fld × Nat)) (v m : Nat) : State :=
  let low := lowestWrite (s.lowerWrites who a)
  let t := s.storeFields l v m a
  if s.lowerWrites who a = [] ∨ t.regWord l = s.regWord l then t
  else t.storeFields l low.2.2.2.1 (low.2.2.2.2.1 &&& storedBits l) a

/-- A command that only time makes (ch. 02): a boundary, the quiet window, a step of time. -/
def movesTime (i : Instr) : Bool :=
  match i with
  | .tickBoundary _ | .quietWindowCapture | .timeStepApply | .longOpShare _ => true
  | _ => false

/-- The commands that can reset the part: reset requests and causes, and register writes, which may be writes of SYS_RESET
(R585, R587, R588). -/
def mayRestart (i : Instr) : Bool :=
  match i with
  | .powerOn | .railFault | .resetPin | .internalResetRelease | .thermalTrip | .thermalHoldRelease
  | .sysResetWarm _ | .sysResetCold _ | .watchdogExpiry _ | .xoLoss
  | .registerWrite _ _ _ _ _ | .loWrite _ _ _ _ | .hiWrite _ _ _ _ | .mctpWrite32 _ _ => true
  | _ => false

/-- The blocks that no reset of the whole part spares, but for the time engine, the references, the outputs, the host
interface, the check units and the recorder. -/
def State.blocksStart (t : State) : Prop :=
  t.hiLatch = [] ∧ t.loHold = [] ∧ t.store = [] ∧ t.ln = Ln.start ∧ t.prt = Prt.start ∧ t.cls = Cls.start ∧ t.oas = Oas.start ∧
    t.swc = Swc.start ∧ t.egr = Egr.start ∧ t.spe = Spe.start ∧ t.seif = Seif.start ∧ t.pair = Pair.start ∧ t.mbx = Mbx.start ∧
    t.obs = Obs.start

/-- The fields that say why and how the last start began. -/
def reasonField (f : Fld) : Bool :=
  f ∈ [.SYS_START_REASON_CAUSE, .SYS_START_REASON_SWITCHED, .SYS_START_REASON_FALLBACK]

/-- Fields that need not read their reset value after a cold reset: the island's, those that show the start, and those that
show the check units' queues, which hold Cairn's records again. -/
def resetKeeps (f : Fld) : Bool :=
  aonField f || f ∈ [.SYS_STATUS_START, .CHK_UNIT_STATUS_BUSY, .CHK_UNIT_STATUS_CTX, .CHK_UNIT_STATUS_USER, .CHK_UNIT_STATUS_QUEUED]

/-- The clock is in order: the tick number does not run ahead of time, and the tick is a whole number of the spans after
which a TIME and a CORE edge coincide, and has not been left behind (R16, R46, R48). -/
def Clock.ok (c : Clock) : Prop := 1000 * c.tick ≤ c.acc / 2 ^ 40 ∧ 16 ∣ c.tickLen ∧ c.cycle ≤ c.tickLen

end Machine
end Sys2Proof
end

