-- ==== Sys2Proof/Certificates/Slice0/Obligations.lean ====
section
/-!
DEFINITION. The statements for the provers, in the order of OBLIGATIONS.json: the step and its clock; the opcodes of Igzozel;
the register rows; then the rows of every other family, each with the state it leaves; and rules of spec/ about the machine.
`Yields i s x` says that `exec i s` answers a next state that is `x` but for the accounts of events, counters and figures.
-/
open Sys2Proof Sys2Proof.Machine

/-- A step takes the command at the front of the queue and is `exec` of it on the state with the queue's rest. The queue is the
model's own (log entry 1). -/
def Obligations.StepRunsFrontCommand : Prop :=
  ∀ (c : Instr) (rest : List Instr) (s : State), s.pending = c :: rest → step s = exec c { s with pending := rest }

/-- What a step does when no command waits: the model's choice (log entry 1). It never makes the boundary. -/
def Obligations.IdleStepPassesOneCycle : Prop :=
  ∀ s : State, s.pending = [] → ∃ t, step s = .next t ∧ t.pending = [] ∧
    (s.sys.held = true ∨ s.clk.tickLen ≤ s.clk.cycle + 1 → t = s) ∧
    (s.sys.held = false → s.clk.cycle + 1 < s.clk.tickLen → t.clk.cycle = s.clk.cycle + 1 ∧ t.clk.tickCount = s.clk.tickCount)

/-- The state after reset meets the invariant of the clock. -/
def Obligations.ClockOkAtReset : Prop := Clock.ok State.reset.clk

/-- Whatever command a step runs, a boundary, a step of time and a reset among them, the clock stays in order. -/
def Obligations.StepKeepsClockOk : Prop :=
  ∀ s t : State, Clock.ok s.clk → step s = .next t → Clock.ok t.clk

/-- No command touches the queue of waiting commands (the model's own field, log entry 1). -/
def Obligations.StepConsumesOneCommand : Prop :=
  ∀ s t : State, step s = .next t → t.pending = s.pending.tail

/-- Time moves by the boundary, the quiet window, the shares of long operations and a step of time alone; a reset may restart it. -/
def Obligations.OnlyTimeRowsMoveClock : Prop :=
  ∀ (i : Instr) (s t : State), exec i s = .next t → movesTime i = false →
    t.clk = s.clk ∨ (mayRestart i = true ∧ t.clk = Clock.start)

/-- R64, with its frame: the pending generation sees the new version, an older one what it saw, and other entries are untouched. -/
def Obligations.UpdateWritesPendingGeneration : Prop :=
  ∀ (s : State) (t i : Nat) (val : Option Line) (held : Bool), i < 2 ^ 23 →
    s.pendSeq = s.sys.genSeq + 1 ∧
    (∀ g, s.pendSeq ≤ g → (s.update t i val held).lookup t i g = some ⟨s.pendSeq, val, held, 0, 0, 0⟩) ∧
    (∀ g, g < s.pendSeq → (s.update t i val held).lookup t i g = s.lookup t i g) ∧
    (∀ t' i' g, i' < 2 ^ 23 → (t', i') ≠ (t, i) → (s.update t i val held).lookup t' i' g = s.lookup t' i' g)

/-- R91, for every Igzozel command: the state is that after the fetch, with TICK_PAST due. -/
def Obligations.PassedValidTimeDoesNothing : Prop :=
  ∀ (i : Instr) (h : Hdr) (sp : Spec) (s : State), specOf i = some (h, sp) →
    s.fetchable h.fn h.sq = true → s.cqUsable h.fn h.cq = true → tget 0 s.hst.fetched h.fn < fetchBudget →
    (s.fetched h sp).execWindow = true → (s.fetched h sp).hst.waiting.any (fun w => sameRing w h.fn h.sq) = false →
    (h.fence = true → (s.fetched h sp).ringBusy h.fn h.sq s.hst.nextId = false) → (s.fetched h sp).mayIssue h.fn sp.opc = true → h.validNs ≠ 0 →
    0 < sgn 32 ((s.fetched h sp).wrapNs + 2 ^ 32 - h.validNs % 2 ^ 32) →
    Yields i s ((s.fetched h sp).complete s.hst.nextId stTICKPAST [])

/-- R124, in the order of its checks, for every Igzozel command, and R92 for its ring. -/
def Obligations.RefusedCommandsDoNothing : Prop :=
  ∀ (i : Instr) (h : Hdr) (sp : Spec) (s : State), specOf i = some (h, sp) → s.fetchable h.fn h.sq = true →
    (s.cqUsable h.fn h.cq = false → h.fn < 16 → h.sq < 32 →
      (∃ t, exec i s = .next t ∧ t.raised 244 ∧ t.reg .HST_SQ_STATUS_INDEX (ring h.fn h.sq) = s.reg .HST_SQ_STATUS_INDEX (ring h.fn h.sq)) ∧
      Yields i s (s.setReg .HST_SQ_STATUS_ERR (ring h.fn h.sq) 2)) ∧
    (s.cqUsable h.fn h.cq = true → tget 0 s.hst.fetched h.fn < fetchBudget →
      (s.fetched h sp).execWindow = true → (s.fetched h sp).hst.waiting.any (fun w => sameRing w h.fn h.sq) = false →
      (h.fence = true → (s.fetched h sp).ringBusy h.fn h.sq s.hst.nextId = false) →
      let f := s.fetched h sp
      let bad := h.rsvd || (h.hold && !holdValid sp.opc) || (sp.chk f).badField
      (f.mayIssue h.fn sp.opc = false → Yields i s (f.complete s.hst.nextId stBADOPCODE [])) ∧
      (f.mayIssue h.fn sp.opc = true → validPassed (f.wrapNs) h.validNs = false →
        (bad = true → Yields i s (f.complete s.hst.nextId stBADFIELD [])) ∧
        (bad = false → f.standby = true → standbyRefused sp.opc = true → Yields i s (f.complete s.hst.nextId stNOTOWNER [])) ∧
        (bad = false → (f.standby = false ∨ standbyRefused sp.opc = false) → f.reg .SYS_STATUS_PLAYA = 1 →
          sp.opc ≠ 0x01 → sp.opc ≠ 0xB0 → sp.opc ≠ 0x70 → Yields i s (f.complete s.hst.nextId stFROZEN []))))

/-- R47: what the two registers show, what a boundary does to both numbers, and that nothing else raises the count. -/
def Obligations.TickCountRisesByOnePerBoundary : Prop :=
  (∀ s : State, s.view .SYS_TICK_TICK 0 = s.clk.tick ∧ s.view .SYS_TICK_COUNT_COUNT 0 = s.clk.tickCount) ∧
  (∀ (s : State) (x : BoundaryIn), s.sys.held = false →
    ∃ t, exec (.tickBoundary x) s = .next t ∧ t.clk.tickCount = s.clk.tickCount + 1 ∧
      1000 * t.clk.tick ≤ t.clk.acc / 2 ^ 40 ∧ t.clk.acc / 2 ^ 40 < 1000 * (t.clk.tick + 1)) ∧
  (∀ s t : State, step s = .next t →
    t.clk.tickCount = s.clk.tickCount ∨
    (t.clk.tickCount = s.clk.tickCount + 1 ∧ ∃ x rest, s.pending = .tickBoundary x :: rest) ∨
    (t.clk = Clock.start ∧ ∃ i rest, s.pending = i :: rest ∧ mayRestart i = true))

/-- What the commands that end at once, or wait for a boundary, do. -/
def Obligations.ShortCommandsComplete : Prop :=
  (∀ (s : State) (h : Hdr), Starts s h specNop → Yields (.nop h) s ((s.charged h specNop).complete s.hst.nextId stOK [])) ∧
  (∀ (s : State) (h : Hdr) (handle opc kind : Nat) (i : Instr),
    (i = .opSuspend h handle ∧ opc = 0xA0 ∧ kind = 1) ∨ (i = .opResume h handle ∧ opc = 0xA1 ∧ kind = 2) ∨
      (i = .opCancel h handle ∧ opc = 0xA2 ∧ kind = 3) →
    Starts s h (specOpControl h opc kind handle) →
    Yields i s
      (let u := s.charged h (specOpControl h opc kind handle)
       let o := u.op (handle % 32)
       if 1 ≤ o.state ∧ o.state ≤ 3 then u.setOp (handle % 32) { o with reqs := o.reqs ++ [(kind, s.hst.nextId)] }
       else u.complete s.hst.nextId stOK [])) ∧
  (∀ (s : State) (h : Hdr) (flow cache repl : Nat), Starts s h (specPlaceHint h flow cache repl) →
    Yields (.placeHint h flow cache repl) s
      (let u := s.charged h (specPlaceHint h flow cache repl)
       let p := u.placement flow
       let q : Placement := { p with
         cacheHint := cache
         replHint := repl
         state := if p.state = 2 ∧ cache = 2 then 3 else if p.state = 3 ∧ cache ≠ 2 then 2 else p.state
         demote := p.demote && cache != 2 }
       let v := u.setPlacement flow q
       let owed := (if cache = 3 ∧ q.state = 2 then [(flow, 1)] else []) ++ (if repl ≠ p.plan.repl then [(flow, 3)] else [])
       let x := ({ v with cls := { v.cls with todo := v.cls.todo ++ owed } } : State).placeMoves
       x.completePlace s.hst.nextId flow x.sys.genSeq))

/-- The table commands write the pending generation; HOLD decides when they complete. -/
def Obligations.TableCommandsComplete : Prop :=
  (∀ (s : State) (h : Hdr) (i : Instr) (sp : Spec) (flow crc : Nat) (check : Bool) (r : FlowRead),
    (i = .flowAdd h flow check crc r ∧ sp = specFlowAdd h flow check crc r) ∨
      (i = .flowMod h flow check crc r ∧ sp = specFlowMod h flow check crc r) →
    Starts s h sp →
    Yields i s
      (let e := hostLine r.flow
       let u := (s.charged h sp).update tFlow flow (some e) h.hold
       let v := if flowKeyLoad e then u.update (flowKeyTable e) (flowAnchor e) (some (hostLine r.key)) h.hold else u
       let x := v.placeLoad flow e
       if h.hold then x.completePlace s.hst.nextId flow x.pendSeq else x.awaitSwitch (some (s.hst.nextId, some flow)))) ∧
  (∀ (s : State) (h : Hdr) (flow : Nat), Starts s h (specFlowDel h flow) →
    Yields (.flowDel h flow) s
      (let e := (s.charged h (specFlowDel h flow)).anchoring flow
       let u := (s.charged h (specFlowDel h flow)).update tFlow flow none h.hold
       let x := if flowKeyLoad e then u.update (flowKeyTable e) (flowAnchor e) none h.hold else u
       if h.hold then x.complete s.hst.nextId stOK [] else x.awaitSwitch (some (s.hst.nextId, none)))) ∧
  (∀ (s : State) (h : Hdr) (group list lines : Nat) (g : HostRead) (ls : List HostRead),
    Starts s h (specGroupSet h group list lines g ls) →
    Yields (.groupSet h group list lines g ls) s
      (let u := (s.charged h (specGroupSet h group list lines g ls)).update tGroup group (some (hostLine g)) h.hold
       let x := (List.range lines).foldl
         (fun (s : State) k => s.update tList (list + k) (some (hostLine (ls.getD k .error))) h.hold) u
       if h.hold then x.complete s.hst.nextId stOK [] else x.awaitSwitch (some (s.hst.nextId, none))))

/-- The eight long operations take a slot and are answered LONG_ACCEPTED. -/
def Obligations.LongCommandsAreAccepted : Prop :=
  (∀ (s : State) (h : Hdr) (first count k : Nat) (delete : Bool), Starts s h (specFlowBulk h first count delete) →
    (s.charged h (specFlowBulk h first count delete)).freeSlot h.fn = some k →
    Yields (.flowBulk h first count delete) s
      ((s.charged h (specFlowBulk h first count delete)).acceptOp h s.hst.nextId 0x13 [first, count, b2n delete, 0, 0] k)) ∧
  (∀ (s : State) (h : Hdr) (lane i mode arg count k : Nat), laneIndex lane = some i → Starts s h (specLaneTrain h lane mode arg count) →
    (s.charged h (specLaneTrain h lane mode arg count)).freeSlot h.fn = some k →
    Yields (.laneTrain h lane mode arg count) s
      (let u := (s.charged h (specLaneTrain h lane mode arg count)).acceptOp h s.hst.nextId 0x21 [i] k
       u.laneStart i (trainMethod i mode arg) arg arg (if count = 0 then u.attemptsDefault i else count) (k + 1))) ∧
  (∀ (s : State) (h : Hdr) (lane i mode count addr len k : Nat), laneIndex lane = some i →
    Starts s h (specLaneSweep h lane mode count addr len) →
    (s.charged h (specLaneSweep h lane mode count addr len)).freeSlot h.fn = some k →
    Yields (.laneSweep h lane mode count addr len) s
      (let u := s.charged h (specLaneSweep h lane mode count addr len)
       u.acceptOp h s.hst.nextId 0x22 [i, mode, count, addr, len, u.reg .LN_RXEQ_CTLE_PEAK i, u.reg .LN_RXEQ_CTLE_DC i] k)) ∧
  (∀ (s : State) (h : Hdr) (all : Bool) (k : Nat), Starts s h (specPairCopy h all) →
    (s.charged h (specPairCopy h all)).freeSlot h.fn = some k →
    Yields (.pairCopy h all) s
      (let u := (s.charged h (specPairCopy h all)).acceptOp h s.hst.nextId 0x51 [b2n all] k
       if u.mywynUp then u.startEpoch all (some k) else u)) ∧
  (∀ (s : State) (h : Hdr) (u addr len n k : Nat), Starts s h (specChkRun h u addr len) →
    (s.charged h (specChkRun h u addr len)).bindUnit u = n →
    (s.charged h (specChkRun h u addr len)).freeSlot h.fn = some k →
    Yields (.chkRun h u addr len) s
      (((s.charged h (specChkRun h u addr len)).acceptOp h s.hst.nextId 0x60 [n, addr, len] k).queueJob n 5 15 (.run k))) ∧
  (∀ (s : State) (h : Hdr) (area seq count addr len k : Nat), Starts s h (specCairnExport h area seq count addr len) →
    (s.charged h (specCairnExport h area seq count addr len)).freeSlot h.fn = some k →
    Yields (.cairnExport h area seq count addr len) s
      (let u := (s.charged h (specCairnExport h area seq count addr len)).acceptOp h s.hst.nextId 0x70 [area, count, addr] k
       u.setOp k { u.op k with next := seq })) ∧
  (∀ (s : State) (h : Hdr) (targets k : Nat), Starts s h (specScrub h targets) →
    (s.charged h (specScrub h targets)).freeSlot h.fn = some k →
    Yields (.scrub h targets) s ((s.charged h (specScrub h targets)).acceptOp h s.hst.nextId 0x80 [targets] k)) ∧
  (∀ (s : State) (h : Hdr) (activate : Bool) (addr len k : Nat), Starts s h (specFwUpdate h activate addr len) →
    (s.charged h (specFwUpdate h activate addr len)).freeSlot h.fn = some k →
    Yields (.fwUpdate h activate addr len) s
      (let u := s.charged h (specFwUpdate h activate addr len)
       ((u.acceptOp h s.hst.nextId 0xB0 [b2n activate, addr, len, u.updateSlot] k).setSlot u.updateSlot none).emit
         (.flash 3 (slotOffset u.updateSlot) [])))

/-- What the commands that wait for a boundary leave behind. -/
def Obligations.BoundaryCommandsAreAccepted : Prop :=
  (∀ (s : State) (h : Hdr) (scope tick sec ns grain : Nat), Starts s h (specCommitAt h false scope tick sec ns grain) →
    Yields (.commitAt h false scope tick sec ns grain) s
      (let u := s.charged h (specCommitAt h false scope tick sec ns grain)
       ({ u with sys := { u.sys with commit := some ⟨scope, some tick, true, some s.hst.nextId, h.tag, false⟩ } } : State).setReg
         .SYS_COMMIT_STATUS_PENDING 0 1)) ∧
  (∀ (s : State) (h : Hdr) (scope tick sec ns grain : Nat), Starts s h (specCommitAt h true scope tick sec ns grain) →
    Yields (.commitAt h true scope tick sec ns grain) s
      (let u := s.charged h (specCommitAt h true scope tick sec ns grain)
       let auto := u.sys.switchDue && u.sys.switchAuto
       let v : State := { u with sys := { u.sys with
         timed := some ⟨s.hst.nextId, h.tag, (sec * 10 ^ 9 + ns) * 65536 + grain, false, u.sys.unheld, 0⟩
         timedTick := true
         unheld := []
         switchDue := u.sys.switchDue && !auto
         switchAuto := false
         stall := if auto then 0 else u.sys.stall
         stallTold := u.sys.stallTold && !auto } }
       if auto then v.setReg .SYS_GEN_STALL_TICKS 0 0 else v)) ∧
  (∀ (s : State) (h : Hdr) (port width rate fec flags mask : Nat), Starts s h (specPortSet h port width rate fec flags mask) →
    Yields (.portSet h port width rate fec flags mask) s
      (let u := s.charged h (specPortSet h port width rate fec flags mask)
       { u with prt := { u.prt with
         sets := u.prt.sets ++ [⟨s.hst.nextId, port, width, rate, fec, bit flags 0, bit flags 1, bit flags 2, mask⟩] } })) ∧
  (∀ (s : State) (h : Hdr) (x : TioSet), Starts s h (specTioSet x) →
    Yields (.tioSet h x) s
      (let u := s.charged h (specTioSet x)
       let v := (((((u.setPend .TME_TIO_MODE_MODE x.pin x.mode).setPend .TME_TIO_WIDTH_NS x.pin x.width).setPend
         .TME_TIO_PER_NUM_NUM x.pin x.perNum).setPend .TME_TIO_PER_DEN_DEN x.pin x.perDen).setPend
         .TME_TIO_START_SEC_SEC x.pin x.startSec).setPend .TME_TIO_START_NS_NS x.pin x.startNs
       { v with
         tme := { u.tme with tios := u.tme.tios ++ [(s.hst.nextId, x)] }
         sys := { u.sys with selfScope := u.sys.selfScope ||| 2 ^ 5 } })) ∧
  (∀ (s : State) (h : Hdr) (d n rank : Nat) (revert : Bool) (soft hard qual bw : Nat),
    Starts s h (specRefSet d n rank revert soft hard qual bw) →
    Yields (.refSet h d n rank revert soft hard qual bw) s
      (let u := s.charged h (specRefSet d n rank revert soft hard qual bw)
       let i := d * 13 + n
       let v := (((((u.setPend .REF_C_CTRL_RANK i rank).setPend .REF_C_CTRL_REVERT i (b2n revert)).setPend
         .REF_C_SOFT_PPB i soft).setPend .REF_C_HARD_PPB i hard).setPend .REF_C_QUAL_TICKS i qual).setPend .REF_C_BW_MHZ i bw
       { v with
         ref := { u.ref with sets := u.ref.sets ++ [(s.hst.nextId, i)] }
         sys := { u.sys with selfScope := u.sys.selfScope ||| 2 ^ 7 } })) ∧
  (∀ (s : State) (h : Hdr) (units incr ppb : Nat), Starts s h (specTimeSetIncr units incr ppb) →
    Yields (.timeSetIncr h units incr ppb) s
      (let u := (s.charged h (specTimeSetIncr units incr ppb)).setPend .TME_INCR_INCR 0
         (if units = 0 then incr else (((2 ^ 41 : Int) * (10 ^ 9 + sgn 32 ppb) + 5 * 10 ^ 8) / 10 ^ 9).toNat)
       { u with
         tme := { u.tme with incrs := u.tme.incrs ++ [s.hst.nextId], touched := true }
         sys := { u.sys with selfScope := u.sys.selfScope ||| 2 ^ 5 } })) ∧
  (∀ (s : State) (h : Hdr) (abs delta sec ns grain : Nat), Starts s h (specTimeStep abs delta sec ns grain) →
    Yields (.timeStep h abs delta sec ns grain) s
      (let u := s.charged h (specTimeStep abs delta sec ns grain)
       { u with tme := { u.tme with
         step := u.tme.step ++ [⟨s.hst.nextId, abs == 1, sgn 64 delta, (sec * 10 ^ 9 + ns) * 65536 + grain, s.clk.tickCount⟩]
         touched := true } })) ∧
  (∀ (s : State) (h : Hdr) (mask : Nat), Starts s h (specOutAlign mask) →
    Yields (.outAlign h mask) s
      (let u := s.charged h (specOutAlign mask)
       { u with
         outp := { u.outp with reqs := u.outp.reqs ++ [⟨some s.hst.nextId, mask, false, false, 0, []⟩] }
         pair := { u.pair with aligned := u.pair.aligned ||| mask } })) ∧
  (∀ (s : State) (h : Hdr) (reclaim : Nat), Starts s h (specAuditNow reclaim) →
    Yields (.auditNow h reclaim) s
      (let u := s.charged h (specAuditNow reclaim)
       { u with oas := { u.oas with audits := u.oas.audits ++ [(s.hst.nextId, reclaim == 1)] } })) ∧
  (∀ (s : State) (h : Hdr) (confirm : Nat), Starts s h (specCairnClearFirst confirm) →
    Yields (.cairnClearFirst h confirm) s
      (let u := s.charged h (specCairnClearFirst confirm)
       { u with cairn := { u.cairn with clears := u.cairn.clears ++ [s.hst.nextId] } }))

/-- What the remaining short commands do. -/
def Obligations.SlipWakeSwapInjectComplete : Prop :=
  (∀ (s : State) (h : Hdr) (lane i bits dir : Nat), laneIndex lane = some i → Starts s h (specLaneSlip lane bits dir) →
    Yields (.laneSlip h lane bits dir) s
      (let u := s.charged h (specLaneSlip lane bits dir)
       let w := if isMywyn i ∨ 3 ≤ u.reg .LN_STATUS_RUNG i then 128 else 64
       let cum := sgn 16 (u.reg .LN_SLIP_CUM i) + (if dir = 0 then (bits : Int) else -(bits : Int))
       let v := unsgn 16 ((cum + (w / 2 : Nat)) % (w : Nat) - (w / 2 : Nat))
       (u.setReg .LN_SLIP_CUM i v).complete s.hst.nextId stOK (le 2 v))) ∧
  (∀ (s : State) (h : Hdr) (target ns : Nat), Starts s h (specSetWakeBudget false target ns) →
    Yields (.setWakeBudget h false target ns) s
      (let u := (s.charged h (specSetWakeBudget false target ns)).setReg .SYS_WAKE_BUDGET_PORT_NS target ns
       { u with sys := { u.sys with wakeCmds := u.sys.wakeCmds ++ [(s.hst.nextId, target)] } })) ∧
  (∀ (s : State) (h : Hdr) (target ns : Nat), Starts s h (specSetWakeBudget true target ns) →
    Yields (.setWakeBudget h true target ns) s
      (let u := s.charged h (specSetWakeBudget true target ns)
       { u with sys := { u.sys with
         subBudget := tset 0 target ns u.sys.subBudget
         wakeCmds := u.sys.wakeCmds ++ [(s.hst.nextId, 512 + target)] } })) ∧
  (∀ (s : State) (h : Hdr), Starts s h specPairSwap →
    Yields (.pairSwap h) s
      (let u := s.charged h specPairSwap
       let d := u.clk.tick
       let v := if u.joinsSwap then u
         else if u.active then u.decideHandover
         else ({ u with pair := { u.pair with
           handover := some ⟨d, secondBeat d, false, false, u.tme.steps, u.pair.peerSteps⟩ } } : State).sendHandover 1 (secondBeat d) d
       { v with pair := { v.pair with swaps := v.pair.swaps ++ [(s.hst.nextId, (v.pair.handover.map Handover.th).getD 0)] } })) ∧
  (∀ (s : State) (h : Hdr) (addr len port queue flags launchNs launchGrain : Nat) (bytes : List Nat),
    Starts s h (specPktInject h addr len port queue flags launchNs launchGrain (.ok bytes)) →
    Yields (.pktInject h addr len port queue flags launchNs launchGrain (.ok bytes)) s
      (let u := s.charged h (specPktInject h addr len port queue flags launchNs launchGrain (.ok bytes))
       let b := padTo len bytes
       let at_ : Int := ((u.taiNs : Int) + sgn 32 (launchNs + 2 ^ 32 - u.wrapNs)) * 65536 + launchGrain
       let late := bit flags 2 && decide (at_ < u.grains)
       let x : Inject := ⟨s.hst.nextId, h.fn, h.sq, bit flags 0, port, queue, bit flags 1, if bit flags 2 ∧ !late then at_.toNat else 0, late⟩
       let f : Frame := { Frame.none_ with
         port := if bit flags 0 then port else 258
         head := b.take 128
         rest := b.drop 128 ++ le 4 (crc32 b)
         len := len + 4
         ended := true
         stage := 0
         inject := some x }
       doInjectLaunch { u with swc := { u.swc with inject := u.swc.inject ++ [f] } })) ∧
  (∀ (s : State) (h : Hdr) (addr len port queue flags launchNs launchGrain : Nat),
    Starts s h (specPktInject h addr len port queue flags launchNs launchGrain .error) →
    Yields (.pktInject h addr len port queue flags launchNs launchGrain .error) s
      (let u := s.charged h (specPktInject h addr len port queue flags launchNs launchGrain .error)
       (({ u with hst := { u.hst with aer := tset 0 h.fn 1 u.hst.aer } } : State).setReg .HST_FN_STATUS_DMA_ERR h.fn
         (u.reg .HST_FN_STATUS_DMA_ERR h.fn ||| 1)).complete s.hst.nextId stHWFAULT []))

/-- Reads without effects of their own. -/
def Obligations.RegisterReadsComplete : Prop :=
  (∀ (i : Instr) (s : State) (who a : Nat), (i = .loRead who a ∨ i = .hiRead who a) → s.reaches who a false = true → a % 4 = 0 →
    a < 0x4000000 → (a < 0x500010 ∨ 0x500020 ≤ a) →
    ((fieldsAt a).all fun x => !readActs x.1) = true →
    (isPair (fieldsAt a) = false → fieldsAt a ≠ [] → Yields i s (s.emit (.readValue who a (s.wordFor who a (fieldsAt a))))) ∧
    (isPair (fieldsAt a) = true →
      Yields i s (({ s with
        hiLatch := tset none (latchKey who a) (some (a, s.wordFor who a (fieldsAt a) / 2 ^ 32 % 2 ^ 32)) s.hiLatch } : State).emit
          (.readValue who a (s.wordFor who a (fieldsAt a) % 2 ^ 32)))) ∧
    (fieldsAt a = [] → hiOf a ≠ [] → ∀ v, tget none s.hiLatch (latchKey who a) = some (a - 4, v) →
      Yields i s (({ s with hiLatch := tdel (latchKey who a) s.hiLatch } : State).emit (.readValue who a v))) ∧
    (fieldsAt a = [] → hiOf a ≠ [] → (∀ v, tget none s.hiLatch (latchKey who a) ≠ some (a - 4, v)) →
      Yields i s (s.emit (.readValue who a (s.wordFor who (a - 4) (hiOf a) / 2 ^ 32 % 2 ^ 32)))) ∧
    (fieldsAt a = [] → hiOf a = [] → Yields i s (s.emit (.readValue who a 0)))) ∧
  (∀ (s : State) (a : Nat), s.sys.held = false → s.reaches 21 a false = true → a % 4 = 0 → a < 0x4000000 →
    (a < 0x500010 ∨ 0x500020 ≤ a) → ((fieldsAt a).all fun x => !readActs x.1) = true → isPair (fieldsAt a) = false → fieldsAt a ≠ [] →
    Yields (.mctpRead32 a) s
      ((s.emit (.readValue 21 a (s.wordFor 21 a (fieldsAt a)))).emit (.mctp 0x7F 1 (0 :: le 4 (s.wordFor 21 a (fieldsAt a))))))

/-- Writes of registers that do nothing but hold values. -/
def Obligations.RegisterWritesComplete : Prop :=
  (∀ (i : Instr) (s : State) (who a v be : Nat), (i = .registerWrite who a v be [] ∨ i = .loWrite who a v be) →
    s.reaches who a true = true → a % 4 = 0 →
    ((fieldsAt a).all fun x => !writeActs x.1) = true → fieldsAt a ≠ [] →
    (isPair (fieldsAt a) = false →
      Yields i s ((s.wakeFor a).stored who a (fieldsAt a) (v % 2 ^ 32) (beMask be))) ∧
    (isPair (fieldsAt a) = true →
      Yields i s { s with loHold := tset none (latchKey who a) (some (a, be % 16 * 2 ^ 32 + v % 2 ^ 32)) s.loHold })) ∧
  (∀ (i : Instr) (s : State) (who a v be : Nat), (i = .registerWrite who a v be [] ∨ i = .hiWrite who a v be) →
    s.reaches who a true = true → a % 4 = 0 → fieldsAt a = [] → hiOf a ≠ [] →
    ((hiOf a).all fun x => !writeActs x.1) = true →
    (∀ x, tget none s.loHold (latchKey who a) = some (a - 4, x) →
      Yields i s ((({ s with loHold := tdel (latchKey who a) s.loHold } : State).wakeFor a).stored who (a - 4) (hiOf a)
        (v % 2 ^ 32 * 2 ^ 32 + x % 2 ^ 32) (beMask be * 2 ^ 32 + beMask (x / 2 ^ 32)))) ∧
    ((∀ x, tget none s.loHold (latchKey who a) ≠ some (a - 4, x)) →
      Yields i s ((s.wakeFor a).stored who (a - 4) (hiOf a) (v % 2 ^ 32 * 2 ^ 32) (beMask be * 2 ^ 32)))) ∧
  (∀ (s : State) (a v : Nat), s.sys.held = false → s.reaches 21 a true = true → a % 4 = 0 → a < 0x4000000 → bmcWrites a = true →
    ((fieldsAt a).all fun x => !writeActs x.1) = true → fieldsAt a ≠ [] → isPair (fieldsAt a) = false →
    Yields (.mctpWrite32 a v) s
      (((s.emit (.mctp 0x7F 2 [0])).wakeFor a).stored 21 a (fieldsAt a) (v % 2 ^ 32) (beMask 15)))

/-- The kinds of R7, for one field. -/
def Obligations.FieldWrittenByKind : Prop :=
  (∀ (s : State) (f : Fld) (i v m a : Nat), bits m f.desc.hi f.desc.lo = 0 ∨ s.absorbedReg f i = true → s.storeField f i v m a = s) ∧
  (∀ (s : State) (f : Fld) (i v m a : Nat), bits m f.desc.hi f.desc.lo ≠ 0 → s.absorbedReg f i = false →
    let new (old : Nat) := s.norm f i (old - (old &&& bits m f.desc.hi f.desc.lo) + (bits v f.desc.hi f.desc.lo &&& bits m f.desc.hi f.desc.lo))
    (f.desc.kind = .live → s.storeField f i v m a = s.setReg f i (new (s.reg f i))) ∧
    (f.desc.kind = .staged → s.storeField f i v m a = s.setPend f i (new (s.pendReg f i)) ∧
      (s.storeField f i v m a).reg f i = s.reg f i) ∧
    (f.desc.kind = .frozen → s.idleFor f i = true → s.storeField f i v m a = if new (s.reg f i) = s.reg f i then s else s.setReg f i (new (s.reg f i))) ∧
    (f.desc.kind = .frozen → s.idleFor f i = false → Agree (s.storeField f i v m a) s) ∧
    ((f.desc.kind = .sticky ∨ f.desc.kind = .clear1) →
      let w := bits v f.desc.hi f.desc.lo &&& bits m f.desc.hi f.desc.lo
      s.storeField f i v m a = s.setReg f i (s.reg f i - (s.reg f i &&& (w - (w &&& s.hwBits f i))))) ∧
    (f.desc.kind = .set1 →
      s.storeField f i v m a = s.setReg f i (s.reg f i ||| (bits v f.desc.hi f.desc.lo &&& bits m f.desc.hi f.desc.lo))) ∧
    ((f.desc.kind = .status ∨ f.desc.kind = .pulse) → s.storeField f i v m a = s))

/-- The control messages, and a commit by register. -/
def Obligations.EndpointAndCommitComplete : Prop :=
  (∀ (s : State) (eid : Nat), s.sys.held = false →
    Yields (.setEndpointId eid) s
      (let u : State := { s with sys := { s.sys with mctpEid := eid % 256 } }
       (if s.sys.mctpEid ≠ 0 ∧ s.sys.mctpEid ≠ eid % 256 then u.abandon 21 else u).emit (.mctp 0 1 [0, 0, eid % 256, 0]))) ∧
  (∀ s : State, s.sys.held = false → Yields .getEndpointId s (s.emit (.mctp 0 2 [0, s.sys.mctpEid, 0, 0]))) ∧
  (∀ (s : State) (ty : Nat), s.sys.held = false →
    Yields (.getMctpVersionSupport ty) s
      ((s.emit (.mctp 0 4 ([0, 1] ++ le 4 (Config.freeField (s.freeCtr + ty))))).fresh)) ∧
  (∀ s : State, s.sys.held = false → Yields .getMessageTypeSupport s (s.emit (.mctp 0 5 [0, 1, 0x7F]))) ∧
  (∀ (s : State) (at_ tables : Bool) (scope : Nat),
    Yields (.sysCommit at_ tables scope) s
      (let sc := setBits (scope % 2 ^ 19) 11 11 0
       let u := ((s.setReg .SYS_COMMIT_AT 0 (b2n at_)).setReg .SYS_COMMIT_TABLES 0 (b2n tables)).setReg .SYS_COMMIT_SCOPE 0 sc
       if s.flag .SYS_COMMIT_STATUS_PENDING then u
       else if s.commitAtOpen then u.setReg .SYS_COMMIT_STATUS_RESULT 0 4
       else ({ u with sys := { u.sys with
         commit := some ⟨sc, if at_ then some (s.reg .SYS_COMMIT_AT_TICK) else none, tables, none, 0, s.skipsCapture⟩ } } : State).setReg
           .SYS_COMMIT_STATUS_PENDING 0 1))

/-- R585's cold row. Cairn's records that waited for a check value are queued again, so the check units' queues are left out. -/
def Obligations.ColdResetClears : Prop :=
  ∀ (i : Instr) (s : State) (cause : Nat),
    (i = .railFault ∧ cause = 1) ∨ (i = .resetPin ∧ cause = 2) ∨
      ((∃ n, n < 16 ∧ 1000 < tget 0 s.sys.hot n) ∧ i = .thermalTrip ∧ cause = 6) ∨
      (∃ who, i = .sysResetCold who ∧ (who = 0 ∨ who = 16 ∨ who = 21) ∧ s.sys.held = false ∧ s.reg .SYS_START_REASON_COUNT < 3 ∧ cause = 3) →
    Completes i s fun t =>
      t.pending = s.pending ∧ t.clk = Clock.start ∧ t.blocksStart ∧ t.pend = [] ∧ t.hst = Hst.start ∧ t.tme = Tme.start ∧
      t.ref = Ref.start ∧ t.outp = Outp.start ∧ t.evAcc = [] ∧
      t.cairn = s.cairn ∧ t.reg .SYS_START_REASON_COUNT = s.reg .SYS_START_REASON_COUNT ∧
      t.reg .SYS_START_REASON_CAUSE = cause ∧ t.reg .SYS_STATUS_START = 0 ∧ t.sys.held = decide (cause ≠ 3) ∧
      (∀ f k, resetKeeps f = false → k < 8192 → t.reg f k = f.reset k)

/-- R585's warm row. -/
def Obligations.WarmResetKeeps : Prop :=
  ∀ (i : Instr) (s : State) (cause : Nat),
    (∃ who, i = .sysResetWarm who ∧ (who = 0 ∨ who = 16 ∨ who = 21) ∧ cause = 4) ∨
      (∃ c, i = .watchdogExpiry c ∧ c < 4 ∧ s.reg .SYS_STATUS_START = 3 ∧ s.sys.watchAt ≠ 0 ∧
        s.clk.tickCount + 1 ≤ s.sys.watchAt + 60000000 ∧ cause = 5) ∨
      (i = .xoLoss ∧ s.reg .SYS_STATUS_START = 3 ∧ cause = 7) →
    s.sys.held = false → s.reg .SYS_START_REASON_COUNT < 3 →
    Completes i s fun t =>
      t.pending = s.pending ∧ t.clk = s.clk ∧ t.blocksStart ∧ t.pend = [] ∧
      t.hst = { Hst.start with numVf := s.hst.numVf, linkRate := s.hst.linkRate, linkWidth := s.hst.linkWidth } ∧
      t.tme.slewLeft = s.tme.slewLeft ∧ t.cairn.first = s.cairn.first ∧ t.cairn.last = s.cairn.last ∧ t.cairn.mirror = s.cairn.mirror ∧
      t.reg .SYS_START_REASON_CAUSE = cause ∧ t.reg .SYS_STATUS_START = 0 ∧ t.sys.warm = true ∧ t.sys.held = false ∧
      t.reg .REF_DPLL_STATUS_STATE 0 = 4 ∧ t.reg .REF_DPLL_STATUS_STATE 1 = 4 ∧
      (∀ f k, f ∈ warmFields → reasonField f = false → k < 8192 → t.reg f k = s.reg f k)

/-- The rows that apply, release or request resets, but the cold and warm resets themselves. -/
def Obligations.ResetRowsComplete : Prop :=
  (∀ s : State, Completes .powerOn s fun t =>
    t.pending = s.pending ∧ t.clk = Clock.start ∧ t.blocksStart ∧ t.pend = [] ∧ t.hst = Hst.start ∧ t.tme = Tme.start ∧
    t.chk = Chk.start ∧ t.sys.held = true ∧ t.sys.rails = false ∧ t.cairn.boot = (s.cairn.boot + 1) % 65536 ∧
    t.cairn.mirror = s.cairn.mirror ∧ t.cairn.last = [] ∧
    t.reg .SYS_START_REASON_COUNT = s.reg .SYS_START_REASON_COUNT % 16 ∧ t.reg .SYS_BOOT_SELECT = s.reg .SYS_BOOT_SELECT % 2) ∧
  (∀ s : State, s.sys.held = true → s.sys.thermHold = false →
    Yields .internalResetRelease s
      (let mv := 700 + Config.avsTarget % 101
       let u := (s.setReg .SYS_STRAPS_UNIT_ID 0 (Config.strapUnit % 2)).setReg .SYS_STRAPS_MGMT_SEL 0 (Config.strapMgmt % 2)
       ((({ u with sys := { u.sys with rails := true, pinLow := false, held := false } } : State).setReg .SYS_AVS_TARGET_MV 0 mv).emit
         (.pin 3 0 mv)).beginStart (s.reg .SYS_START_REASON_CAUSE))) ∧
  (∀ s : State, s.sys.thermHold = true →
    Yields .thermalHoldRelease s
      (let u : State := { s with sys := { s.sys with thermHold := false } }
       if s.sys.rails = true ∧ s.sys.pinLow = false then ({ u with sys := { u.sys with held := false } } : State).beginStart 6 else u)) ∧
  (∀ (s : State) (c : Nat), s.reg .SYS_START_REASON_COUNT < 3 →
    s.beginStart c = (((s.setRegs [(.SYS_STATUS_READY, 0, 0), (.SYS_STATUS_PLAYA, 0, 0), (.SYS_START_REASON_SWITCHED, 0, 0),
      (.SYS_START_REASON_FALLBACK, 0, 0)]).setReg .SYS_STATUS_START 0 0).setReg .SYS_START_REASON_CAUSE 0 c).startBegins.showPins) ∧
  (∀ (s : State) (who : Nat), who = 0 ∨ who = 16 ∨ who = 21 →
    Yields (.startClear who) s
      (let u := s.setReg .SYS_START_REASON_COUNT 0 0
       ({ u with sys := { u.sys with recCopy := 1 - u.sys.recCopy } } : State).emit
         (.flash 0 (0x2000 + 0x1000 * s.sys.recCopy) (le 2 0 ++ le 2 s.cairn.boot)))) ∧
  (∀ (s : State) (c : Nat), c < 4 → s.reg .SYS_STATUS_START = 3 →
    (s.sys.watchAt = 0 ∨ s.sys.watchAt + 60000000 < s.clk.tickCount + 1) →
    Yields (.watchdogExpiry c) s (({ s with sys := { s.sys with watchAt := s.clk.tickCount + 1 } } : State).abandon (16 + c))) ∧
  (∀ s : State, Completes (.sysBlockReset 2) s fun t =>
    t.mbx = Mbx.start ∧ (∀ n, n < 8192 → t.reg .MBX_CH_STATUS_FULL n = 0 ∧ t.reg .MBX_LOCK_HELD n = 0 ∧
      t.reg .MBX_CH_BIND_VALID n = s.reg .MBX_CH_BIND_VALID n ∧ t.reg .MBX_CTRL_LOCKED n = s.reg .MBX_CTRL_LOCKED n)) ∧
  (∀ (s : State) (mask : Nat),
    Yields (.sysBlockReset mask) s
      (let u := if bit mask 0 then s.resetChk.dropHalves 4 else s
       let v := if bit mask 1 then u.resetMbx.dropHalves 2 else u
       if bit mask 2 then v.resetObs.dropHalves 3 else v))

/-- The rows of the start. -/
def Obligations.StartRowsComplete : Prop :=
  (∀ (s : State) (sel : Nat) (a b : Option Nat), s.reg .SYS_STATUS_START = 0 → s.sys.held = false →
    Yields (.romDone sel a b) s
      (let u := (((s.setReg .SYS_STATUS_START 0 1).setReg .SYS_BOOT_SELECT 0 sel).setReg .SYS_FW_VER_A_VERSION 0 (a.getD 0)).setReg
         .SYS_FW_VER_B_VERSION 0 (b.getD 0)
       { u with sys := { u.sys with xo := true, slotA := a, slotB := b } })) ∧
  (∀ (i : Instr) (s : State) (fail : Nat), s.sys.held = false →
    (s.sys.stateAt + 10000 ≤ s.clk.tickCount ∧ i = .xoDetectTimeout ∧ s.reg .SYS_STATUS_START = 0 ∧ fail = 4) ∨
      (s.sys.stateAt + 5000 ≤ s.clk.tickCount ∧ i = .dpll0XoLockTimeout ∧ s.reg .SYS_STATUS_START = 2 ∧ s.sys.warm = false ∧ fail = 4) ∨
      (s.sys.startAt + 2000000 ≤ s.clk.tickCount ∧ i = .notReadyTimeout ∧ s.reg .SYS_STATUS_START ≤ 2 ∧ fail = 2) ∨
      (i = .hbmTrainingDone false ∧ s.reg .SYS_STATUS_START = 2 ∧ fail = 3) ∨
      ((∃ c, c < 4 ∧ i = .watchdogExpiry c) ∧ s.reg .SYS_STATUS_START ≤ 2 ∧ fail = 5) →
    Yields i s (s.failStart fail)) ∧
  (∀ (s : State) (fail : Nat), s.reg .SYS_START_REASON_COUNT < 2 →
    s.failStart fail =
      (let u := (((s.setReg .SYS_STATUS_START 0 4).setReg .SYS_STATUS_READY 0 0).setReg .SYS_START_REASON_FAIL 0 fail).stateBegins.setReg
         .SYS_START_REASON_COUNT 0 (s.reg .SYS_START_REASON_COUNT + 1)
       ((({ u with sys := { u.sys with recCopy := 1 - u.sys.recCopy } } : State).emit
         (.flash 0 (0x2000 + 0x1000 * s.sys.recCopy) (le 2 (s.reg .SYS_START_REASON_COUNT + 1) ++ le 2 s.cairn.boot))).cairnStart).showPins)) ∧
  (∀ (s : State) (okA okB : Bool), s.reg .SYS_STATUS_START = 1 → s.sys.held = false →
    Yields (.verifyDone okA okB) s
      (let sel := s.reg .SYS_BOOT_SELECT
       let first := if s.reg .SYS_START_REASON_COUNT = 2 then 1 - sel else sel
       let version (k : Nat) := if k = 0 then s.sys.slotA else s.sys.slotB
       let passes (k : Nat) : Bool := (version k).isSome && (if k = 0 then okA else okB)
       let boot (k : Nat) : State := (((s.setReg .SYS_STATUS_START 0 2).setReg .SYS_START_REASON_SLOT 0 k).setReg
         .SYS_FW_RUN_VERSION 0 ((version k).getD 0)).stateBegins.itmCalRequest 1
       if passes first then boot first
       else if passes (1 - first) then (boot (1 - first)).setReg .SYS_START_REASON_FALLBACK 0 (b2n (first == sel))
       else (s.setReg .SYS_START_REASON_SLOT 0 3).failStart 1)) ∧
  (∀ s : State, s.reg .SYS_STATUS_START = 2 → s.sys.held = false →
    Yields (.hbmTrainingDone true) s
      (let u := s.setReg .CIS_STATUS_TRAINED 0 1
       u.oasFill (s.reg .OAS_TIMING_CELLS))) ∧
  (∀ s : State, s.reg .SYS_STATUS_START = 2 → s.sys.held = false → s.reg .SYS_START_REASON_SLOT = s.reg .SYS_BOOT_SELECT →
    s.reg .SYS_START_REASON_FALLBACK = 0 → s.sys.warm = false → s.reg .OBS_CAIRN_CTRL_EN = 0 →
    Yields .firmwareReady s
      (let u := (List.range 16).foldl (fun (s : State) n => s.calMark 3 n (s.temp 8))
         ((s.bindStart.setReg .SYS_STATUS_START 0 3).setReg .SYS_STATUS_READY 0 1)
       ({ u with sys := { u.sys with watchAt := 0, readyAt := u.clk.tickCount + 1 } } : State).showPins)) ∧
  (∀ (s : State) (n : Nat), n < 12 → s.reg .MBX_CTRL_LOCKED = 0 → (∀ k, k < 12 → s.reg .MBX_CH_STATUS_FULL k = 0) →
    let b := startBindings.getD n (0, 0, 0)
    s.bindStart.reg .MBX_CH_BIND_VALID n = 1 ∧ s.bindStart.reg .MBX_CH_BIND_SENDER n = b.1 ∧
      s.bindStart.reg .MBX_CH_BIND_RECEIVER n = b.2.1 ∧ s.bindStart.reg .MBX_CH_BIND_REMOTE n = b.2.2) ∧
  (∀ s : State, s.reg .SYS_STATUS_START = 4 → s.sys.held = false → s.sys.stateAt + 1000000 ≤ s.clk.tickCount →
    s.reg .SYS_START_REASON_COUNT < 3 →
    Yields .startRetry s (s.beginStart 8)) ∧
  (∀ s : State, s.reg .SYS_STATUS_START = 3 → s.sys.readyAt + 60000000 ≤ s.clk.tickCount + 1 →
    Yields .failedCountReset s
      (let u := s.setReg .SYS_START_REASON_COUNT 0 0
       ({ u with sys := { u.sys with recCopy := 1 - u.sys.recCopy } } : State).emit
         (.flash 0 (0x2000 + 0x1000 * s.sys.recCopy) (le 2 0 ++ le 2 s.cairn.boot))))

/-- The rows by which software controls a function and its rings. -/
def Obligations.FunctionRowsComplete : Prop :=
  (∀ (s : State) (fn : Nat), fn < 16 → fn ≤ s.hst.numVf → s.reg .HST_FN_CTRL_RUN fn = 1 →
    Yields (.kick fn) s (if tget 0 s.hst.kicked fn = 1 then s
      else ({ s with hst := { s.hst with kicked := tset 0 fn 1 s.hst.kicked } } : State).emit
        (.hostRead fn 1 (s.reg .HST_DB_BASE_ADDR fn * 4096)))) ∧
  (∀ (s : State) (fn : Nat), s.reg .HST_FN_CTRL_RUN fn ≠ 1 → Yields (.kick fn) s s) ∧
  (∀ (s : State) (fn : Nat) (v : Bool), fn ≤ s.hst.numVf →
    Yields (.fnRunWrite fn v) s
      (let u := s.setReg .HST_FN_CTRL_RUN fn (b2n v)
       if v = true ∧ s.reg .HST_FN_CTRL_RUN fn ≠ 1 then { u with hst := { u.hst with dbGen := tdel fn u.hst.dbGen } } else u)) ∧
  (∀ (s : State) (fn : Nat), fn ≤ s.hst.numVf →
    Yields (.quiesce fn) s
      (let u := s.setReg .HST_FN_CTRL_QUIESCE fn 1
       if s.hst.cmds.any fun c => c.fn == fn then u else (u.setReg .HST_FN_STATUS_QUIET fn 1).setReg .HST_FN_CTRL_QUIESCE fn 0)) ∧
  (∀ (s : State) (fn n : Nat), fn ≤ s.hst.numVf → n < 256 →
    let k := ring fn n
    (s.reg .HST_SQ_CTRL_EN k ≠ 1 → 6 ≤ s.reg .HST_SQ_CTRL_LOG2_SIZE k → s.reg .HST_SQ_CTRL_LOG2_SIZE k ≤ 16 →
      Yields (.ringEnable fn 0 n) s
        (let u := ((s.setReg .HST_SQ_CTRL_EN k 1).setReg .HST_SQ_STATUS_ERR k 0).setReg .HST_SQ_STATUS_INDEX k 0
         { u with hst := { u.hst with sqTail := tdel k u.hst.sqTail } })) ∧
    (s.reg .HST_SQ_CTRL_EN k ≠ 1 → s.reg .HST_SQ_CTRL_LOG2_SIZE k < 6 ∨ 16 < s.reg .HST_SQ_CTRL_LOG2_SIZE k →
      Yields (.ringEnable fn 0 n) s (s.setReg .HST_SQ_STATUS_ERR k 4)) ∧
    (s.reg .HST_CQ_CTRL_EN k ≠ 1 → 6 ≤ s.reg .HST_CQ_CTRL_LOG2_SIZE k → s.reg .HST_CQ_CTRL_LOG2_SIZE k ≤ 16 →
      s.reg .HST_CQ_CTRL_PUNT k ≠ 1 → s.vectorOk fn (s.reg .HST_CQ_CTRL_VECTOR k) = true →
      Yields (.ringEnable fn 1 n) s
        (let u := (((s.setReg .HST_CQ_CTRL_EN k 1).setReg .HST_CQ_STATUS_ERR k 0).setReg .HST_CQ_STATUS_INDEX k 0).setReg
           .HST_CQ_STATUS_FULL k 0
         { u with hst := { u.hst with
           lostVec := tdel k u.hst.lostVec
           cqHead := tdel k u.hst.cqHead, cqPhase := tdel k u.hst.cqPhase, cqUns := tdel k u.hst.cqUns, cqAge := tdel k u.hst.cqAge } })) ∧
    (Yields (.ringDisable fn 0 n) s (s.setReg .HST_SQ_CTRL_EN k 0)) ∧
    (Yields (.ringDisable fn 1 n) s (((s.setReg .HST_CQ_CTRL_EN k 0).setReg .HST_CQ_STATUS_FULL k 0).discardCq fn n))) ∧
  (∀ (s : State) (fn : Nat), fn ≤ s.hst.numVf → fn ≠ 0 ∨ s.hst.bootEvent = none → s.reg .HST_EVQ_CTRL_EN fn ≠ 1 →
    6 ≤ s.reg .HST_EVQ_CTRL_LOG2_SIZE fn → s.reg .HST_EVQ_CTRL_LOG2_SIZE fn ≤ 16 →
    s.vectorOk fn (s.reg .HST_EVQ_CTRL_VECTOR fn) = true →
    Yields (.ringEnable fn 2 0) s
      (let u := ((((s.setReg .HST_EVQ_CTRL_EN fn 1).setReg .HST_EVQ_STATUS_ERR fn 0).setReg .HST_EVQ_STATUS_INDEX fn 0).setReg
         .HST_EVQ_STATUS_FULL fn 0).setReg .HST_EVQ_STATUS_LOST fn 0
       { u with hst := { u.hst with
         lostVec := tdel (65536 + fn) u.hst.lostVec
         evqHead := tdel fn u.hst.evqHead, evqPhase := tdel fn u.hst.evqPhase, evqSeq := tdel fn u.hst.evqSeq
         evqOwed := tdel fn u.hst.evqOwed } })) ∧
  (∀ (s : State) (fn : Nat), fn ≤ s.hst.numVf →
    Yields (.ringDisable fn 2 0) s ((s.setReg .HST_EVQ_CTRL_EN fn 0).setReg .HST_EVQ_STATUS_FULL fn 0))

/-- The rows by which the host interface moves data. -/
def Obligations.RingRowsComplete : Prop :=
  (∀ (s : State) (fn : Nat) (d : Doorbell), fn ≤ s.hst.numVf → s.reg .HST_FN_CTRL_RUN fn = 1 → tget 0 s.hst.dbGen fn ≠ d.gen + 1 →
    Yields (.doorbellPoll fn (some d)) s (s.doorbell fn d d.lineMask) ∧
    tget 0 (s.doorbell fn d d.lineMask).hst.dbGen fn = d.gen + 1) ∧
  (∀ (s : State) (fn n tail head : Nat), fn < 16 → n < 256 → s.reg .HST_SQ_CTRL_EN (ring fn n) = 1 → s.reg .HST_SQ_STATUS_ERR (ring fn n) = 0 →
    s.reg .HST_CQ_CTRL_EN (ring fn n) ≠ 1 →
    (tail < 2 ^ s.reg .HST_SQ_CTRL_LOG2_SIZE (ring fn n) → s.tailWord fn ⟨n, tail, head⟩ =
      { s with hst := { s.hst with sqTail := tset 0 (ring fn n) tail s.hst.sqTail } }) ∧
    (2 ^ s.reg .HST_SQ_CTRL_LOG2_SIZE (ring fn n) ≤ tail → Agree (s.tailWord fn ⟨n, tail, head⟩) (s.setReg .HST_SQ_STATUS_ERR (ring fn n) 1))) ∧
  (∀ (s : State) (fn : Nat) (d : Doorbell), tget 0 s.hst.dbGen fn = d.gen + 1 → Yields (.doorbellPoll fn (some d)) s s) ∧
  (∀ (s : State) (fn : Nat), fn ≤ s.hst.numVf → s.reg .HST_FN_CTRL_RUN fn = 1 →
    Yields (.doorbellPoll fn none) s
      (({ s with hst := { s.hst with aer := tset 0 fn 1 s.hst.aer } } : State).setReg .HST_FN_STATUS_DMA_ERR fn
        (s.reg .HST_FN_STATUS_DMA_ERR fn ||| 1))) ∧
  (∀ (s : State) (fn : Nat) (d : Doorbell), tget 0 s.hst.kicked fn = 1 → s.reg .HST_FN_CTRL_RUN fn = 1 →
    Yields (.hostReadReturn (.tails fn (some d))) s
      (({ s with hst := { s.hst with kicked := tdel fn s.hst.kicked } } : State).doorbell fn d 0xFFFF)) ∧
  (∀ (s : State) (fn addr sq : Nat),
    Yields (.hostReadReturn (.failed fn 2 addr sq)) s
      ((({ s with hst := { s.hst with aer := tset 0 fn 1 s.hst.aer } } : State).setReg .HST_FN_STATUS_DMA_ERR fn
        (s.reg .HST_FN_STATUS_DMA_ERR fn ||| 1)).setReg .HST_SQ_STATUS_ERR (ring fn sq) 3)) ∧
  (∀ (s : State) (fn cq : Nat) (c : Cmd) (r : Cpl), s.nextCompletion fn cq = some c → c.res = some r →
    s.reg .HST_CQ_CTRL_EN (ring fn cq) = 1 → s.cqRoom (ring fn cq) = true →
    Yields (.completionPost fn cq) s (s.postEntry c r).startWaiting) ∧
  (∀ (s : State) (fn cq : Nat), s.nextCompletion fn cq = none → Yields (.completionPost fn cq) s s) ∧
  (∀ (s : State) (fn cq : Nat), tget 0 s.hst.cqUns (ring fn cq) ≠ 0 →
    max 1 (s.reg .HST_CQ_CTRL_COAL_COUNT (ring fn cq)) ≤ tget 0 s.hst.cqUns (ring fn cq) →
    Yields (.cqInterrupt fn cq) s
      (let u : State := { s with hst := { s.hst with
        cqUns := tdel (ring fn cq) s.hst.cqUns, cqAge := tdel (ring fn cq) s.hst.cqAge } }
       if tget 0 s.hst.lostVec (ring fn cq) = 1 then u else u.signal fn (s.reg .HST_CQ_CTRL_VECTOR (ring fn cq)))) ∧
  (∀ (s : State) (fn v : Nat),
    Yields (.msixUnmask fn v) s
      (let u : State := { s with hst := { s.hst with unmasked := tset 0 (fn * 64 + v) 1 s.hst.unmasked } }
       if tget 0 s.hst.vecPend (fn * 64 + v) = 1 then
         ({ u with hst := { u.hst with vecPend := tdel (fn * 64 + v) u.hst.vecPend } } : State).signal fn v
       else u))

/-- The rows that reset functions, and the link. -/
def Obligations.FunctionResetRowsComplete : Prop :=
  (∀ (s : State) (fn : Nat), fn ≠ 0 → fn ≤ s.hst.numVf → Yields (.flr fn) s (s.fnReset fn 1)) ∧
  (∀ (s : State) (fn : Nat), fn ≠ 0 → s.hst.numVf < fn → Yields (.flr fn) s s) ∧
  (∀ s : State, Yields (.flr 0) s (s.pfReset 2 1)) ∧
  (∀ (s : State) (ltssm : Nat), Yields (.pcieLinkDown 0 ltssm) s
    ((s.linkEvent 0 0 ltssm).pfReset 3 3)) ∧
  (∀ (s : State) (rate width ltssm : Nat), Agree (s.linkEvent rate width ltssm)
    { s with hst := { s.hst with linkRate := rate, linkWidth := width } }) ∧
  (∀ (s : State) (kind ltssm : Nat), kind ≠ 0 → Yields (.pcieLinkDown kind ltssm) s (s.pfReset 3 3)) ∧
  (∀ (s : State) (a b : Nat), (s.pfReset a b).hst.numVf = 0 ∧
    s.pfReset a b =
      (let u := (List.range s.hst.numVf).foldl (fun (u : State) i => u.fnReset (i + 1) a) { s with evAcc := [] }
       ({ u with hst := { u.hst with numVf := 0 } } : State).fnReset 0 b)) ∧
  (∀ (s : State) (fn cause : Nat), fn < 16 →
    let t := s.fnReset fn cause
    t.reg .HST_FN_CTRL_RUN fn = 0 ∧ t.reg .HST_EVQ_CTRL_EN fn = 0 ∧
      (∀ c ∈ t.hst.cmds, c.fn ≠ fn) ∧ (∀ c ∈ t.hst.finals, c.fn ≠ fn) ∧ t.hst.waiting = s.hst.waiting ∧
      t.hst.numVf = s.hst.numVf ∧ t.clk = s.clk ∧ t.store = s.store) ∧
  (∀ (s : State) (rate width ltssm : Nat), 1 ≤ rate → rate ≤ 4 → 1 ≤ width → width ≤ 3 → Yields (.hstLink rate width ltssm) s
    { s with hst := { s.hst with linkRate := rate, linkWidth := width } }) ∧
  (∀ (s : State) (rate width ltssm : Nat), rate = 0 ∨ 4 < rate ∨ width = 0 ∨ 3 < width → Yields (.hstLink rate width ltssm) s s) ∧
  (∀ (s : State) (n : Nat),
    Yields (.vfEnable n) s
      (let k := if s.reg .SYS_STATUS_PLAYA = 1 then 0 else min 15 n
       let u := ((List.range 15).filter fun i => decide (k ≤ i ∧ i < s.hst.numVf)).foldl (fun (u : State) i => u.fnReset (i + 1) 1) s
       ({ u with hst := { u.hst with numVf := k } } : State).vectorsLost)) ∧
  (∀ (s : State) (n : Nat), s.reg .SYS_STATUS_PLAYA ≠ 1 → s.hst.numVf ≤ min 15 n →
    Yields (.vfEnable n) s ({ s with hst := { s.hst with numVf := min 15 n } } : State).vectorsLost) ∧
  (∀ s : State, ∃ l, Agree s.vectorsLost { s with hst := { s.hst with lostVec := l } })

/-- Reads that latch or pop, and the writes of the servo and the slew. -/
def Obligations.TimeRegisterRowsComplete : Prop :=
  (∀ (s : State) (f : Nat),
    Yields (.timeSnapshotRead f) s
      ((({ s with hiLatch := tset none (latchKey f (0x5000000 + 0x10000 * f)) (some (0x5000000 + 0x10000 * f, s.clk.acc / 2 ^ 40 / 10 ^ 9 / 2 ^ 32)) s.hiLatch } : State).setRegs [(.HST_TS_SEC_SEC, f, s.clk.acc / 2 ^ 40 / 10 ^ 9), (.HST_TS_NS_NS, f, s.clk.acc / 2 ^ 40 % 10 ^ 9),
        (.HST_TS_FRAC_GRAIN, f, s.clk.acc / 2 ^ 24 % 65536), (.HST_TS_FRAC_TRACEABLE, f, b2n s.traceable),
        (.HST_TS_TICK_TICK, f, s.clk.tick)]).emit
        (.readValue f (0x5000000 + 0x10000 * f) (s.clk.acc / 2 ^ 40 / 10 ^ 9 % 2 ^ 32)))) ∧
  (∀ s : State,
    Yields .timeLatchRead s
      ((({ s with hiLatch := tset none (latchKey 0 0x500010) (some (0x500010, s.clk.acc / 2 ^ 40 / 10 ^ 9 / 2 ^ 32)) s.hiLatch } : State).setRegs [(.TME_TIME_SEC_SEC, 0, s.clk.acc / 2 ^ 40 / 10 ^ 9), (.TME_TIME_NS_NS, 0, s.clk.acc / 2 ^ 40 % 10 ^ 9),
        (.TME_TIME_FRAC_GRAIN, 0, s.clk.acc / 2 ^ 24 % 65536)]).emit
        (.readValue 0 0x500010 (s.clk.acc / 2 ^ 40 / 10 ^ 9 % 2 ^ 32)))) ∧
  (∀ (s : State) (compat owner : Bool), s.tme.touched = false → compat ≠ s.flag .TME_CFG_COMPAT → owner ≠ s.flag .TME_CFG_SERVO_OWNER →
    Yields (.tmeCfgWrite 0 compat owner) s
      ((s.setReg .TME_CFG_SERVO_OWNER 0 (b2n owner)).setReg .TME_CFG_COMPAT 0 (b2n compat))) ∧
  (∀ (s : State) (who : Nat) (compat owner : Bool), s.tme.touched = true → who ≠ 0 →
    Yields (.tmeCfgWrite who compat owner) s s) ∧
  (∀ (s : State) (who freq timeout : Nat) (valid : Bool), who = s.servoOwner →
    Yields (.servoFreqWrite who (some freq) (some (valid, timeout))) s
      (let u := s.setRegs [(.TME_SERVO_FREQ_FREQ, 0, freq), (.TME_SERVO_CTRL_VALID, 0, b2n valid), (.TME_SERVO_CTRL_TIMEOUT, 0, timeout)]
       { u with tme := { u.tme with servoAt := s.clk.tickCount } })) ∧
  (∀ (s : State) (who : Nat) (freq : Option Nat) (ctrl : Option (Bool × Nat)), who ≠ s.servoOwner →
    Yields (.servoFreqWrite who freq ctrl) s s) ∧
  (∀ (s : State) (who amount : Nat), who = s.servoOwner → s.reg .TME_CFG_COMPAT ≠ 1 →
    Yields (.slewWrite who amount) s
      (({ s with tme := { s.tme with slewLeft := sgn 32 amount * (2 ^ 24 : Nat) } } : State).setRegs
        [(.TME_SLEW_AMT_AMOUNT, 0, amount), (.TME_STATUS_SLEWING, 0, b2n (sgn 32 amount != 0))])) ∧
  (∀ (s : State) (who amount : Nat), who ≠ s.servoOwner ∨ s.reg .TME_CFG_COMPAT = 1 → Yields (.slewWrite who amount) s s) ∧
  (∀ (s : State) (i msg port seq stamp : Nat) (l : List (List Nat)), tget [] s.tme.txs i = [msg, port, seq, stamp] :: l →
    Yields (.txsPop i) s
      ((({ s with tme := { s.tme with txs := tset [] i l s.tme.txs } } : State).setRegs
        [(.TME_INST_TXS_VALID, i, 1), (.TME_INST_TXS_MSG, i, msg), (.TME_INST_TXS_PORT, i, port), (.TME_INST_TXS_SEQ, i, seq),
          (.TME_INST_TXS_NS_NS, i, stamp / 65536), (.TME_INST_TXS_GRAIN_GRAIN, i, stamp % 65536)]).emit
        (.readValue 0 (0x500110 + 0x40 * i) (2 ^ 31 + msg % 16 * 2 ^ 27 + port % 256 * 2 ^ 16 + seq % 65536)))) ∧
  (∀ (s : State) (i : Nat), tget [] s.tme.txs i = [] →
    Yields (.txsPop i) s
      ((s.setRegs [(.TME_INST_TXS_VALID, i, 0), (.TME_INST_TXS_MSG, i, 0), (.TME_INST_TXS_PORT, i, 0), (.TME_INST_TXS_SEQ, i, 0)]).emit
        (.readValue 0 (0x500110 + 0x40 * i) 0))) ∧
  (∀ (s : State) (n grain : Nat) (rising : Bool) (l : List (Bool × Nat)), (s.tio n).fifo = (rising, grain) :: l →
    Yields (.tioInPop n) s
      (((s.setTio n { s.tio n with fifo := l }).setRegs
        [(.TME_TIO_IN_VALID, n, 1), (.TME_TIO_IN_RISING, n, b2n rising), (.TME_TIO_IN_LEFT, n, l.length),
          (.TME_TIO_IN_SEC_SEC, n, grain * 2 ^ 24 / 2 ^ 40 / 10 ^ 9), (.TME_TIO_IN_NS_NS, n, grain * 2 ^ 24 / 2 ^ 40 % 10 ^ 9),
          (.TME_TIO_IN_FRAC_GRAIN, n, grain * 2 ^ 24 / 2 ^ 24 % 65536)]).emit
        (.readValue 0 (0x500224 + 0x40 * n) (2 ^ 31 + b2n rising * 2 ^ 30 + l.length)))) ∧
  (∀ (s : State) (n : Nat), (s.tio n).fifo = [] →
    Yields (.tioInPop n) s
      ((s.setRegs [(.TME_TIO_IN_VALID, n, 0), (.TME_TIO_IN_RISING, n, 0), (.TME_TIO_IN_LEFT, n, 0)]).emit
        (.readValue 0 (0x500224 + 0x40 * n) 0)))

/-- What happens to the slew, the servo, the two-step table and the TIO pins by themselves. -/
def Obligations.TimeEngineEventsComplete : Prop :=
  (∀ s : State, s.tme.slewLeft = 0 → s.reg .TME_STATUS_SLEWING = 1 → Yields .slewDone s (s.setReg .TME_STATUS_SLEWING 0 0)) ∧
  (∀ s : State, s.tme.slewLeft ≠ 0 → Yields .slewDone s s) ∧
  (∀ s : State, s.reg .TME_SERVO_CTRL_VALID = 1 → s.reg .TME_SERVO_CTRL_TIMEOUT ≠ 0 →
    s.reg .TME_SERVO_CTRL_TIMEOUT ≤ s.clk.tickCount - s.tme.servoAt →
    Yields .servoTimeout s (s.setReg .TME_SERVO_CTRL_VALID 0 0)) ∧
  (∀ s : State, s.clk.tickCount - s.tme.servoAt < s.reg .TME_SERVO_CTRL_TIMEOUT → Yields .servoTimeout s s) ∧
  (∀ s : State, Yields .twostepEntryAge s
    { s with tme := { s.tme with twoStep := s.tme.twoStep.filter fun e => decide (s.clk.tickCount - e.since < s.reg .TME_TWOSTEP_AGE) } }) ∧
  (∀ (s : State) (n : Nat), (s.tio n).highUntil ≠ 0 →
    ((s.tio n).highUntil : Int) ≤ s.grains + sgn 16 (s.reg .TME_TIO_DLY_PS n) * 65536 / 1000 + 32768 →
    s.reg .OUT_TIO_CFG_SHARED n ≠ 1 →
    Yields (.tioPulseEdge n) s ((s.setTio n { s.tio n with highUntil := 0 }).emit (.pin 2 n 0))) ∧
  (∀ (s : State) (n : Nat) (x : TioSet), (s.tio n).highUntil = 0 → (s.tio n).train = some x →
    (tioEdge x (s.tio n).after : Int) ≤ s.grains + sgn 16 (s.reg .TME_TIO_DLY_PS n) * 65536 / 1000 + 262144 →
    s.reg .OUT_TIO_CFG_SHARED n ≠ 1 →
    Yields (.tioPulseEdge n) s
      ((s.setTio n { s.tio n with after := tioEdge x (s.tio n).after + 1, highUntil := tioEdge x (s.tio n).after + x.width * 65536 }).emit
        (.pin 2 n 1))) ∧
  (∀ (s : State) (n grain : Nat) (rising : Bool),
    s.reg .TME_TIO_MODE_MODE n = 4 ∨ (s.reg .TME_TIO_MODE_MODE n = 2 ∧ rising = true) ∨ (s.reg .TME_TIO_MODE_MODE n = 3 ∧ rising = false) →
    (s.tio n).last = 0 ∨
      (s.tio n).last + 100 * 65536 ≤ ((grain : Int) + sgn 16 (s.reg .TME_TIO_DLY_PS n) * 65536 / 1000).toNat + 1 →
    Yields (.tioInputEdge n rising grain) s
      (if 16 ≤ (s.tio n).fifo.length then s
       else (s.setTio n { s.tio n with
         fifo := (s.tio n).fifo ++ [(rising, ((grain : Int) + sgn 16 (s.reg .TME_TIO_DLY_PS n) * 65536 / 1000).toNat)]
         last := ((grain : Int) + sgn 16 (s.reg .TME_TIO_DLY_PS n) * 65536 / 1000).toNat + 1 }).tioToC1)) ∧
  (∀ (s : State) (n grain : Nat) (rising : Bool),
    s.reg .TME_TIO_MODE_MODE n < 2 ∨ (s.reg .TME_TIO_MODE_MODE n = 2 ∧ rising = false) ∨ (s.reg .TME_TIO_MODE_MODE n = 3 ∧ rising = true) →
    Yields (.tioInputEdge n rising grain) s s)

/-- Free pointers, queries and the dust devil. -/
def Obligations.OasisRowsComplete : Prop :=
  (∀ (s : State) (c : Nat), c < 2 ^ 20 →
    Yields (.cellQuery c) s
      (let w := (s.cell c).metaWord (ptrHas c s.oas.marks)
       (s.setReg .OAS_CELL_QUERY_CELL 0 c).setRegs [(.OAS_CELL_RESULT_DONE, 0, 1), (.OAS_CELL_RESULT_STATE, 0, bits w 17 17),
        (.OAS_CELL_RESULT_HR, 0, bits w 14 14), (.OAS_CELL_RESULT_POOL, 0, bits w 16 15),
        (.OAS_CELL_RESULT_MARK, 0, bits w 5 5), (.OAS_CELL_RESULT_PAR_ERR, 0, b2n (!metaSound w)),
        (.OAS_CELL_RESULT_REF, 0, bits w 27 18), (.OAS_CELL_LINK_PORT, 0, bits w 13 6), (.OAS_CELL_LINK_NEXT, 0, bits w 47 28)])) ∧
  (∀ (s : State) (high low : Nat), high < 4096 → low < high →
    Yields (.refillWrite high low) s (State.refillWork 4096 (s.setRegs [(.OAS_REFILL_HIGH, 0, high), (.OAS_REFILL_LOW, 0, low)]))) ∧
  (∀ (s : State) (high low : Nat), high % 4096 ≤ low % 4096 → Yields (.refillWrite high low) s s) ∧
  (∀ (s : State) (cells : Nat), 256 ≤ cells → cells ≤ 65536 → cells ≠ s.reg .OAS_TIMING_CELLS → s.oasIdle = true →
    Yields (.timingCellsWrite cells) s ((s.setReg .OAS_TIMING_CELLS 0 cells).oasFill cells)) ∧
  (∀ (s : State) (cells : Nat), cells < 256 ∨ (65536 < cells ∧ cells < 2 ^ 20) ∨ s.oasIdle = false →
    Yields (.timingCellsWrite cells) s s) ∧
  (∀ (s : State) (line : Nat) (r : Ptrs) (rest : List Ptrs), s.oas.reads = r :: rest →
    Yields (.freeRingReadDone false line) s
      (let u := r.foldl (fun (u : State) x => (List.range x.2).foldl (fun (u : State) k => u.markCell (x.1 + k)) u) s
       State.refillWork 64 { u with oas := { u.oas with reads := rest, refill := ptrAppend u.oas.refill r } })) ∧
  (∀ (s : State) (line : Nat) (bad : Bool), s.oas.reads = [] → Yields (.freeRingReadDone bad line) s s) ∧
  (∀ s : State, s.clk.cycle = 0 → s.oas.due = true → s.reg .OAS_DUST_STATUS_STATE = 0 →
    Yields .sweepDue s
      (({ s with oas := { s.oas with marks := [], reclaim := false, began := s.clk.tickCount, due := false } } : State).setReg
        .OAS_DUST_STATUS_STATE 0 1)) ∧
  (∀ s : State, s.clk.cycle = 0 → s.oas.due = true → s.reg .OAS_DUST_STATUS_STATE ≠ 0 →
    Yields .sweepDue s { s with oas := { s.oas with due := false } }) ∧
  (∀ s : State, s.clk.cycle ≠ 0 ∨ s.oas.due = false → Yields .sweepDue s s) ∧
  (∀ s : State, s.reg .OAS_DUST_STATUS_STATE = 1 →
    Yields .sweepMarkDone s
      (({ s with oas := { s.oas with marks := s.oas.marks ++ s.reachable } } : State).setReg .OAS_DUST_STATUS_STATE 0 2)) ∧
  (∀ s : State, s.reg .OAS_DUST_STATUS_STATE = 2 →
    Yields .sweepEnd s
      (let un := gaps 0 (s.oas.marks.foldl (fun l r => insRange r l) [])
       let leaked := (s.oas.cells.filter fun x => x.2.state && ptrHas x.1 un).map Prod.fst
       let lost := (un.flatMap fun r => (List.range r.2).map (r.1 + ·)).filter fun c => !(s.cell c).state
       let u := if s.flag .OAS_DUST_RECLAIM || s.oas.reclaim then
           leaked.foldl (fun (u : State) c => (u.freeCell 0 c (u.cell c).port).setCell c Cell.fresh) s else s
       ((lost.foldl (fun (u : State) c => u.placePtr 0 c) u).setRegs [(.OAS_DUST_LEAKED_CELLS, 0, leaked.length),
         (.OAS_DUST_LOST_CELLS, 0, lost.length), (.OAS_DUST_STATUS_STATE, 0, 0)]).wrapReg .OAS_DUST_STATUS_SWEEPS 0 1)) ∧
  (∀ s : State, s.reg .OAS_DUST_STATUS_STATE = 1 → s.reg .OAS_DUST_PERIOD ≤ s.clk.tickCount - s.oas.began →
    Yields .sweepTimeout s (s.setReg .OAS_DUST_STATUS_STATE 0 0))

/-- Refetches, scrubbing and the arbiter. -/
def Obligations.StoreRowsComplete : Prop :=
  (∀ (s : State) (flow : Nat), flow < 2 ^ 23 →
    Yields (.placeQuery flow) s
      (let u := s.setReg .CLS_PLACE_QUERY_FLOW 0 flow
       let used := match u.lookup 3 flow u.sys.genSeq with | some v => v.val.isSome | none => false
       let p := u.placement flow
       let at_ := u.spotAt flow u.sys.genSeq
       (u.setReg .CLS_PLACE_RESULT_DONE 0 1).setRegs
         [(.CLS_PLACE_RESULT_STATE, 0, if used then p.state else 7), (.CLS_PLACE_RESULT_WHERE, 0, if used then b2n at_.cacheOut else 0),
          (.CLS_PLACE_RESULT_PIN, 0, if used then b2n (p.state == 3) else 0), (.CLS_PLACE_RESULT_BANK, 0, if used then at_.bank else 0),
          (.CLS_PLACE_RESULT_CHKU, 0, if used then min 31 at_.chku else 0), (.CLS_PLACE_RESULT_POOL, 0, if used then at_.pool else 0),
          (.CLS_PLACE_RESULT_REPL, 0, if used then u.replMode flow u.sys.genSeq else 0), (.CLS_PLACE_RESULT_GEN, 0, if used then at_.gen % 4 else 0)])) ∧
  (∀ (s : State) (t i : Nat) (v : Ver) (b : List Nat), (s.vers t i).getLast? = some v → v.state = 1 → t ≠ 5 →
    Yields (.refetchDone t i (.ok b)) s
      (let ok := if t ≤ 1 then keyValid (padTo 64 b) else if t = 3 then flowValid (padTo 64 b) else true
       let u := s.setVers t i ((s.vers t i).map fun w =>
         if w.gen = v.gen then { w with val := if ok then some (padTo 64 b) else none, state := 0, tries := 0, at_ := 0 } else w)
       if t = 3 then u.ask 5 (cisLine 0 (u.placement i).spot.slot) 1 else if t = 4 then u.ask 5 (cisLine 5 i) 1 else u)) ∧
  (∀ (s : State) (t i : Nat) (v : Ver), (s.vers t i).getLast? = some v → v.state = 1 →
    Yields (.refetchDone t i .error) s
      (let f := tget 0 s.hst.shadowOwner t - 1
       let u := s.setVers t i ((s.vers t i).map fun w => if w.gen = v.gen then { w with at_ := s.clk.tickCount + 1 } else w)
       ({ u with hst := { u.hst with aer := tset 0 f 1 u.hst.aer } } : State).setReg .HST_FN_STATUS_DMA_ERR f
         (s.reg .HST_FN_STATUS_DMA_ERR f ||| 1))) ∧
  (∀ (s : State) (t i f : Nat) (v : Ver), (s.vers t i).getLast? = some v → v.state = 1 → v.at_ ≠ 0 → v.at_ ≤ s.clk.tickCount →
    tget 0 s.hst.shadowOwner t ≠ 0 → v.tries < 8 → s.shadowOf t i = some f →
    Yields (.refetchRetry t i) s
      ((s.setVers t i ((s.vers t i).map fun u => if u.gen = v.gen then { v with tries := v.tries + 1, at_ := 0 } else u)).shadowRead t i f)) ∧
  (∀ (s : State) (t i : Nat) (v : Ver), (s.vers t i).getLast? = some v → v.state = 1 → v.at_ ≠ 0 → v.at_ ≤ s.clk.tickCount →
    tget 0 s.hst.shadowOwner t ≠ 0 → v.tries < 8 → s.shadowOf t i = none →
    Yields (.refetchRetry t i) s
      (s.setVers t i ((s.vers t i).map fun u => if u.gen = v.gen then { v with tries := v.tries + 1, at_ := s.clk.tickCount + 1 } else u))) ∧
  (∀ (s : State) (t i : Nat) (v : Ver), (s.vers t i).getLast? = some v → v.state = 1 → v.at_ ≠ 0 → v.at_ ≤ s.clk.tickCount → t ≠ 3 →
    tget 0 s.hst.shadowOwner t = 0 ∨ 8 ≤ v.tries →
    Yields (.refetchRetry t i) s
      (s.setVers t i ((s.vers t i).map fun u => if u.gen = v.gen then { v with state := 2, at_ := 0 } else u))) ∧
  (∀ (s : State) (t i : Nat) (v : Ver), (s.vers t i).getLast? = some v → v.state ≠ 1 ∨ v.at_ = 0 ∨ s.clk.tickCount < v.at_ →
    Yields (.refetchRetry t i) s s) ∧
  (∀ (s : State) (damaged : List (Nat × Nat × Nat)), s.reg .CLS_SCRUB_TICKS ≠ 0 → s.cls.scrubNext ≤ s.clk.tickCount →
    Yields (.scrubPass damaged) s
      (damaged.foldl (fun (u : State) x =>
          u.damage x.1 x.2.1 (match (u.vers x.1 x.2.1).reverse[x.2.2]? with | some v => v.gen | none => u.sys.genSeq))
        { s with cls := { s.cls with scrubNext := s.clk.tickCount + s.reg .CLS_SCRUB_TICKS } })) ∧
  (∀ (s : State) (n weight burst limit : Nat), n < 8 →
    Yields (.arbCfgWrite n weight burst limit) s
      (let u := s.setRegs [(.CIS_ARB_CFG_WEIGHT, n, weight), (.CIS_ARB_CFG_BURST, n, if burst % 16 = 0 then 1 else burst),
         (.CIS_ARB_CFG_WAIT_LIMIT, n, limit)]
       u.setReg .CIS_ARB_STAT_CREDIT n (unsgn 16 (max (-((2 * u.reg .CIS_ARB_CFG_WEIGHT n : Nat) : Int))
         (min (u.sreg .CIS_ARB_STAT_CREDIT n) (2 * u.reg .CIS_ARB_CFG_WEIGHT n : Nat)))))) ∧
  (∀ (s : State) (l : List Nat) (w : Nat) (forced : Bool),
    l = (List.range 8).filter (fun n => !(s.burstLines 1 (s.nextBanks n)).isEmpty) → s.arbWinner l = some (w, forced) →
    Yields (.arbContest none) s
      (let lines := s.burstLines 8 (s.nextBanks w)
       let u : State := { s with cls := { s.cls with asks := tset [] w (takeRun lines.length (tget [] s.cls.asks w)).2 s.cls.asks } }
       let u := lines.foldl (fun (u : State) b => u.bankAccess b)
         (l.foldl (fun (u : State) n =>
           if n = w then u.setReg .CIS_ARB_STAT_WAIT n 0 else u.countReg .CIS_ARB_STAT_WAIT n 1) u)
       u.setCredit w (u.credit w - lines.length)) ∧
    (∀ y : ArbWrite, y.n < 8 → Yields (.arbContest (some y)) s
      (let lines := s.burstLines 8 (s.nextBanks w)
       let u : State := { s with cls := { s.cls with asks := tset [] w (takeRun lines.length (tget [] s.cls.asks w)).2 s.cls.asks } }
       let u := lines.foldl (fun (u : State) b => u.bankAccess b)
         (l.foldl (fun (u : State) n =>
           if n = w then u.setReg .CIS_ARB_STAT_WAIT n 0 else u.countReg .CIS_ARB_STAT_WAIT n 1) u)
       let u := u.setRegs [(.CIS_ARB_CFG_WEIGHT, y.n, y.weight), (.CIS_ARB_CFG_BURST, y.n, if y.burst % 16 = 0 then 1 else y.burst),
         (.CIS_ARB_CFG_WAIT_LIMIT, y.n, y.limit)]
       let u := u.setCredit w (u.credit w - lines.length)
       u.setCredit y.n (u.credit y.n)))) ∧
  (∀ s : State, s.arbWinner ((List.range 8).filter fun n => !(s.burstLines 1 (s.nextBanks n)).isEmpty) = none →
    Yields (.arbContest none) s s ∧
    (∀ n weight burst limit, Yields (.arbContest (some ⟨n, weight, burst, limit⟩)) s (doArbCfgWrite n weight burst limit s))) ∧
  (∀ (s : State) (channel kind : Nat), Yields (.hbmInterfaceError channel kind) s s)

/-- Beats, windows and the interval meter. -/
def Obligations.SeifRowsComplete : Prop :=
  (∀ (s : State) (p d k : Nat), p < 256 → d < 2 → s.seifState p d = 1 →
    Yields (.seifBeat p d (some k)) s
      (let x := s.seifDir p d
       let y : Int := (125 * (k % 4096) : Nat)
       let y := match x.samples with | [] => y | z :: _ => z + phaseDiff y z
       ((s.setSeifDir p d { x with
         missed := 0, samples := (y :: x.samples).take s.windowBeats, beats := x.beats + 1, beat := true, at_ := s.grains }).setReg
           (phaseReg d) p (125 * (k % 4096))).seifValid p)) ∧
  (∀ (s : State) (p d : Nat), p < 256 → d < 2 → s.seifState p d ≠ 4 →
    Yields (.seifBeat p d none) s
      (s.setSeifDir p d { s.seifDir p d with
        missed := (s.seifDir p d).missed + 1, samples := [], beats := (s.seifDir p d).beats + 1 })) ∧
  (∀ (s : State) (p d back : Nat), p < 256 → d < 2 → 1 ≤ s.seifState p d → s.seifState p d ≤ 4 →
    (s.windowBeats ≤ (s.seifDir p d).samples.length → Yields (.seifWindowEnd p d back) s
      (let x := s.seifDir p d
       let o := s.seifDir p (1 - d)
       let u := s.setSeifDir p d { x with samples := [], last := x.samples }
       ({ u with seif := { u.seif with due := u.seif.due ++
         [(2 * p + d, s.grains - back, seifFit x.samples (o.samples ++ o.last) (Config.freeSlope s.freeCtr))] } } : State).fresh)) ∧
    ((s.seifDir p d).samples.length < s.windowBeats → Yields (.seifWindowEnd p d back) s s) ∧
    (4 ≤ (s.seifDir p d).missed → Yields (.seifLost p d false) s ((s.setSeifState p d 5).seifValid p)) ∧
    ((s.seifDir p d).missed < 4 → Yields (.seifLost p d false) s s) ∧
    ((∃ x ∈ s.seif.due, x.1 = 2 * p + d ∧ 200000 * 256 < x.2.2.freq.natAbs) →
      Yields (.seifLost p d true) s ((s.setSeifState p d 5).seifValid p))) ∧
  (∀ (s : State) (cont : Bool), s.reg .SEIF_ITM_STATUS_CAL_BUSY = 0 → s.reg .SEIF_ITM_STATUS_BUSY = 0 →
    Yields (.itmGo cont) s
      (({ s.setReg .SEIF_ITM_CTRL_CONT 0 (b2n cont) with seif := { s.seif with itm :=
        { Itm.idle with calDue := s.seif.itm.calDue, calTrig := s.seif.itm.calTrig } } } : State).setReg .SEIF_ITM_STATUS_BUSY 0 1)) ∧
  (∀ (s : State) (cont : Bool), s.reg .SEIF_ITM_STATUS_CAL_BUSY = 1 →
    Yields (.itmGo cont) s ((s.setReg .SEIF_ITM_CTRL_CONT 0 (b2n cont)).setItm { s.seif.itm with goDue := true })) ∧
  (∀ (s : State) (cont : Bool), s.reg .SEIF_ITM_STATUS_BUSY = 1 →
    Yields (.itmStop cont) s ((s.setReg .SEIF_ITM_CTRL_CONT 0 (b2n cont)).itmEnd 3)) ∧
  (∀ (s : State) (cont : Bool), s.reg .SEIF_ITM_STATUS_BUSY = 0 →
    Yields (.itmStop cont) s (s.setReg .SEIF_ITM_CTRL_CONT 0 (b2n cont))) ∧
  (∀ s : State, s.reg .SEIF_ITM_STATUS_CAL_BUSY = 0 → s.reg .SEIF_ITM_STATUS_BUSY = 0 →
    Yields .itmCalGo s ((s.setItm { s.seif.itm with calTrig := 2, calDue := none }).setReg .SEIF_ITM_STATUS_CAL_BUSY 0 1)) ∧
  (∀ s : State, s.reg .SEIF_ITM_STATUS_CAL_BUSY = 1 ∨ s.reg .SEIF_ITM_STATUS_BUSY = 1 →
    Yields .itmCalGo s (s.setItm { s.seif.itm with calDue := some 2 })) ∧
  (∀ (s : State) (c tap : Nat), s.reg .SEIF_ITM_STATUS_BUSY = 1 →
    let at_ := s.itmTime c tap
    let a := s.itmStartSrc
    let b := s.itmStopSrc
    (∀ e, s.seif.itm.stop = some e → at_ - e.2.2 ≤ nsPs8 (s.reg .SEIF_ITM_WIN_NS) →
      Yields (.itmStartEdge c tap a) s (s.itmInterval (c, tap, at_) e true)) ∧
    (s.seif.itm.stop = none → s.seif.itm.start = none →
      Yields (.itmStartEdge c tap a) s (s.setItm { s.seif.itm with start := some (c, tap, at_), startAt := s.xoNow })) ∧
    (∀ e, s.seif.itm.start = some e → at_ - e.2.2 ≤ nsPs8 (s.reg .SEIF_ITM_TIMEOUT_NS) →
      Yields (.itmStopEdge c tap b) s (s.itmInterval e (c, tap, at_) false)) ∧
    (s.seif.itm.stop = none → s.seif.itm.start = none →
      Yields (.itmStopEdge c tap b) s (s.setItm { s.seif.itm with stop := some (c, tap, at_), stopAt := s.xoNow })) ∧
    (s.seif.itm.stop ≠ none → s.seif.itm.stopAt + s.reg .SEIF_ITM_WIN_NS * (256 * 10 ^ 12) < s.xoNow →
      Yields .itmWinExpiry s (s.setItm { s.seif.itm with stop := none, ignored := s.seif.itm.ignored + 1 })) ∧
    (s.xoNow ≤ s.seif.itm.stopAt + s.reg .SEIF_ITM_WIN_NS * (256 * 10 ^ 12) → Yields .itmWinExpiry s s) ∧
    (s.xoNow ≤ s.seif.itm.startAt + s.reg .SEIF_ITM_TIMEOUT_NS * (256 * 10 ^ 12) → Yields .itmTimeout s s) ∧
    (s.seif.itm.start ≠ none → s.seif.itm.startAt + s.reg .SEIF_ITM_TIMEOUT_NS * (256 * 10 ^ 12) < s.xoNow →
      Yields .itmTimeout s
        (let u := s.setItm { s.seif.itm with
           start := none, timeouts := s.seif.itm.timeouts + 1, consec := s.seif.itm.consec + 1 }
         if 3 ≤ s.seif.itm.consec then u.itmEnd 2 else u))) ∧
  (∀ (s : State) (c tap src : Nat),
    (s.reg .SEIF_ITM_STATUS_BUSY = 0 ∨ src ≠ s.itmStartSrc → Yields (.itmStartEdge c tap src) s s) ∧
    (s.reg .SEIF_ITM_STATUS_BUSY = 0 ∨ src ≠ s.itmStopSrc → Yields (.itmStopEdge c tap src) s s)) ∧
  (∀ (s : State) (hits : List Nat) (refs : List Int) (temp : Int), s.reg .SEIF_ITM_STATUS_CAL_BUSY = 1 → s.seif.itm.calDue = none →
    s.seif.itm.goDue = false →
    Yields (.itmCalDone ⟨hits, refs⟩ temp) s
      (((({ s with seif := { s.seif with taps := hits } } : State).setRegs [(.SEIF_ITM_STATUS_CAL_BUSY, 0, 0),
        (.SEIF_ITM_CAL_RESID, 0, itmResidual refs), (.SEIF_ITM_CAL_TEMP, 0, unsgn 15 temp)]).calMark 2 0
        temp).setItm { s.seif.itm with goDue := false, calDue := none })) ∧
  (∀ (s : State) (a b : Nat × Nat × Int) (reversed : Bool), a.1 ≠ b.1 ∨ a.2.1 ≠ b.2.1 → s.seif.itm.n + 1 < s.reg .SEIF_ITM_N_N →
    let raw := (b.2.2 - Config.itmPath (s.reg .SEIF_ITM_SRC_STOP_SRC)) - (a.2.2 - Config.itmPath (s.reg .SEIF_ITM_SRC_START))
    let t := s.itmInterval a b reversed
    t.seif.itm.n = s.seif.itm.n + 1 ∧ t.seif.itm.sum = s.seif.itm.sum + s.itmResult raw ∧
      t.seif.itm.start = none ∧ t.seif.itm.stop = none)

/-- What identities do with doorbells, bindings and locks. -/
def Obligations.DoorbellLockRowsComplete : Prop :=
  (∀ (s : State) (who bits : Nat), ringPath who = true → Yields (.doorbellRing who bits) s (s.ringBell who bits)) ∧
  (∀ (s : State) (bits : Nat), Yields (.mbxDoorbellReceive bits) s (s.ringBell 20 bits)) ∧
  (∀ (s : State) (who bits r : Nat), bits % 2 ^ 32 ≠ 0 → r < 7 →
    (s.ringBell who bits).reg .MBX_DB_PEND_BITS r =
      if bellIds.getD r 0 = who then s.reg .MBX_DB_PEND_BITS r else (s.reg .MBX_DB_PEND_BITS r ||| bits % 2 ^ 32) % 2 ^ 32) ∧
  (∀ (s : State) (who r mask : Nat), r < 7 → bellIds.getD r 0 = who →
    Yields (.doorbellMaskWrite who r mask) s ((s.setReg .MBX_DB_MASK_BITS r mask).bellNotify r)) ∧
  (∀ (s : State) (who r mask : Nat), 7 ≤ r ∨ bellIds.getD r 0 ≠ who → Yields (.doorbellMaskWrite who r mask) s s) ∧
  (∀ (s : State) (who n sender receiver remote : Nat) (valid : Bool), n < 32 → s.reg .MBX_CTRL_LOCKED = 0 → who = 0 ∨ who = 16 →
    s.reg .MBX_CH_STATUS_FULL n = 0 → sender < 32 → receiver < 32 →
    (valid = true → chanPath sender = true ∧ chanPath receiver = true ∧ sender ≠ receiver) →
    Yields (.channelBind who n valid sender receiver remote) s
      (s.setRegs [(.MBX_CH_BIND_VALID, n, b2n valid), (.MBX_CH_BIND_SENDER, n, sender), (.MBX_CH_BIND_RECEIVER, n, receiver),
        (.MBX_CH_BIND_REMOTE, n, remote % 32)])) ∧
  (∀ (s : State) (who n sender receiver remote : Nat) (valid : Bool), s.reg .MBX_CTRL_LOCKED = 1 →
    Yields (.channelBind who n valid sender receiver remote) s s) ∧
  (∀ (s : State) (who : Nat), who = 0 ∨ who = 16 → Yields (.bindLock who) s (s.setReg .MBX_CTRL_LOCKED 0 1)) ∧
  (∀ (s : State) (who t : List Nat) (k w : Nat), k < 64 → s.reg .MBX_LOCK_HELD k = 0 →
    (tget (0, 0) s.mbx.freed k).1 ≠ s.coreCycle + 1 → lockPorts.filter (fun x => who.contains x) = w :: t →
    Yields (.lockAcquire who k) s
      (let u := (s.emit (.readValue w (lockAddr k) (2 ^ 31 + s.reg .MBX_LOCK_ABANDONED k * 2 ^ 30 + 2 ^ 29 + w * 2 ^ 24))).setRegs
         [(.MBX_LOCK_HELD, k, 1), (.MBX_LOCK_OWNER, k, w), (.MBX_LOCK_ABANDONED, k, 0)]
       t.foldl (fun (u : State) x => u.emit (.readValue x (lockAddr k) (2 ^ 29 + w * 2 ^ 24)))
         { u with mbx := { u.mbx with lockAt := tset 0 k (s.clk.tickCount + 1) s.mbx.lockAt, lockTold := tdel k s.mbx.lockTold } })) ∧
  (∀ (s : State) (who : List Nat) (k : Nat), k < 64 → s.reg .MBX_LOCK_HELD k = 1 →
    Yields (.lockAcquire who k) s
      ((lockPorts.filter fun x => who.contains x).foldl (fun (u : State) x =>
        u.emit (.readValue x (lockAddr k) (2 ^ 29 + s.reg .MBX_LOCK_OWNER k * 2 ^ 24))) s)) ∧
  (∀ (s : State) (who : List Nat) (k : Nat), k < 64 → s.reg .MBX_LOCK_HELD k = 0 → (tget (0, 0) s.mbx.freed k).1 = s.coreCycle + 1 →
    Yields (.lockAcquire who k) s
      ((lockPorts.filter fun x => who.contains x).foldl (fun (u : State) x =>
        u.emit (.readValue x (lockAddr k) (2 ^ 29 + (tget (0, 0) s.mbx.freed k).2 * 2 ^ 24))) s)) ∧
  (∀ (s : State) (k : Nat), k < 64 → s.reg .MBX_LOCK_HELD k = 1 →
    Yields (.lockRelease (s.reg .MBX_LOCK_OWNER k) k) s
      (let u := s.setRegs [(.MBX_LOCK_HELD, k, 0), (.MBX_LOCK_OWNER, k, 0), (.MBX_LOCK_ABANDONED, k, 0)]
       { u with mbx := { u.mbx with
         freed := tset (0, 0) k (s.coreCycle + 1, s.reg .MBX_LOCK_OWNER k) u.mbx.freed
         lockAt := tdel k u.mbx.lockAt, lockTold := tdel k u.mbx.lockTold } })) ∧
  (∀ (s : State) (who k : Nat), s.reg .MBX_LOCK_HELD k ≠ 1 ∨ s.reg .MBX_LOCK_OWNER k ≠ who → Yields (.lockRelease who k) s s) ∧
  (∀ s : State, Yields .jtagTapReset s ((s.abandon 22).emit (.idcode s.idcode))) ∧
  (∀ (s : State) (k : Nat), k < 64 → s.reg .MBX_LOCK_HELD k = 1 → s.reg .MBX_LOCK_HOLD_TICKS ≠ 0 → tget 0 s.mbx.lockTold k ≠ 1 →
    s.reg .MBX_LOCK_HOLD_TICKS ≤ s.clk.tickCount + 1 - tget 0 s.mbx.lockAt k →
    Yields (.lockHoldExpiry k) s { s with mbx := { s.mbx with lockTold := tset 0 k 1 s.mbx.lockTold } })

/-- Words, messages to and from the partner, and cross-waits. -/
def Obligations.MessageRowsComplete : Prop :=
  (∀ (s : State) (who n w v : Nat), n < 32 → w < 16 → s.reg .MBX_CH_BIND_VALID n = 1 → s.reg .MBX_CH_BIND_SENDER n = who →
    s.reg .MBX_CH_STATUS_FULL n = 0 → tget 0 s.mbx.emptied n ≠ s.coreCycle + 1 →
    Yields (.messageWordWrite who n w v) s
      (let u := s.setReg .MBX_CH_DATA_WORD (n * 16 + w) v
       if w = 15 then u.filled n else u)) ∧
  (∀ (s : State) (who n w v : Nat), s.reg .MBX_CH_BIND_VALID n ≠ 1 ∨ s.reg .MBX_CH_BIND_SENDER n ≠ who →
    Yields (.messageWordWrite who n w v) s s) ∧
  (∀ (s : State) (who n w v : Nat), n < 32 → w < 16 → s.reg .MBX_CH_BIND_VALID n = 1 → s.reg .MBX_CH_BIND_SENDER n = who →
    s.reg .MBX_CH_STATUS_FULL n = 1 ∨ tget 0 s.mbx.emptied n = s.coreCycle + 1 →
    Yields (.messageWordWrite who n w v) s
      { s with mbx := { s.mbx with refused := tset 0 n (tget 0 s.mbx.refused n + 1) s.mbx.refused } }) ∧
  (∀ (s : State) (who n w : Nat), n < 32 → w < 16 → s.reg .MBX_CH_BIND_VALID n = 1 → s.reg .MBX_CH_BIND_RECEIVER n = who →
    w ≠ 15 ∨ s.reg .MBX_CH_STATUS_FULL n ≠ 1 →
    Yields (.messageRead who n w) s
      (s.emit (.readValue who (0x200100 + 0x80 * n + 0x40 + 4 * w) (s.reg .MBX_CH_DATA_WORD (n * 16 + w))))) ∧
  (∀ (s : State) (who n : Nat), n < 32 → s.reg .MBX_CH_BIND_VALID n = 1 → s.reg .MBX_CH_BIND_RECEIVER n = who →
    s.reg .MBX_CH_STATUS_FULL n = 1 → s.reg .MBX_CH_BIND_SENDER n ≠ 20 →
    Yields (.messageRead who n 15) s
      ((s.emit (.readValue who (0x200100 + 0x80 * n + 0x40 + 4 * 15) (s.reg .MBX_CH_DATA_WORD (n * 16 + 15)))).noteEmptied n)) ∧
  (∀ (s : State) (n : Nat), n < 32 → (s.emptied n).reg .MBX_CH_STATUS_FULL n = 0 ∧ (s.noteEmptied n).reg .MBX_CH_STATUS_FULL n = 0 ∧
    tget 0 (s.noteEmptied n).mbx.emptied n = s.coreCycle + 1) ∧
  (∀ (s : State) (who n : Nat), n < 32 → s.reg .MBX_CH_BIND_VALID n = 1 → s.reg .MBX_CH_BIND_SENDER n = who →
    s.reg .MBX_CH_BIND_RECEIVER n = 20 →
    Yields (.flush who n) s
      ((({ s with mbx := { s.mbx with sending := tdel n s.mbx.sending } } : State).setReg .MBX_CH_STATUS_REMOTE_WAIT n 0).emptied n)) ∧
  (∀ (s : State) (n : Nat), n < 32 → s.reg .MBX_CH_STATUS_FULL n = 1 → tget 0 s.mbx.sending n = 1 →
    Yields (.mbxDataSend n) s
      (if s.mywynUp then s.mbxSend n true else { s with mbx := { s.mbx with sending := tset 0 n 3 s.mbx.sending } })) ∧
  (∀ (s : State) (n : Nat), n < 32 → s.reg .MBX_CH_STATUS_FULL n = 1 → s.mywynUp = true →
    (tget 0 s.mbx.sending n = 2 → s.clk.cycle = 0 → s.clk.tick % 64 = 0 → tget 0 s.mbx.resent n ≠ s.clk.tickCount + 1 →
      Yields (.mbxResend n) s
        (let u := s.mbxSend n false
         { u with mbx := { u.mbx with sending := tset 0 n 2 u.mbx.sending, resent := tset 0 n (s.clk.tickCount + 1) u.mbx.resent } })) ∧
    (tget 0 s.mbx.sending n = 2 → s.clk.cycle ≠ 0 ∨ s.clk.tick % 64 ≠ 0 ∨ tget 0 s.mbx.resent n = s.clk.tickCount + 1 →
      Yields (.mbxResend n) s s) ∧
    (tget 0 s.mbx.sending n = 3 → Yields (.mbxResend n) s (s.mbxSend n (!s.flag .MBX_CH_STATUS_REMOTE_WAIT n)))) ∧
  (∀ (s : State) (ch src tog : Nat) (words : List Nat), ch < 32 → tog < 2 → src < 32 → s.reg .MBX_CH_BIND_VALID ch = 1 →
    s.reg .MBX_CH_BIND_SENDER ch = 20 → tget 0 s.mbx.inTog ch ≠ tog + 1 → s.reg .MBX_CH_STATUS_FULL ch = 0 →
    s.reg .MBX_CH_BIND_RECEIVER ch ≠ 20 → s.reg .MBX_CH_CTRL_DB_EN ch = 0 →
    Yields (.mbxDataReceive ch src tog words) s
      (({ (List.range 16).foldl (fun (u : State) i => u.setReg .MBX_CH_DATA_WORD (ch * 16 + i) (words.getD i 0)) s with
        mbx := { s.mbx with inTog := tset 0 ch (tog + 1) s.mbx.inTog, inSrc := tset 0 ch src s.mbx.inSrc } } : State).setReg
        .MBX_CH_STATUS_FULL ch 1)) ∧
  (∀ (s : State) (ch : Nat), ch < 32 → s.reg .MBX_CH_BIND_RECEIVER ch = 20 → s.reg .MBX_CH_STATUS_REMOTE_WAIT ch = 1 →
    (∃ t, exec (.mbxAckReceive ch) s = .next t ∧ t.reg .MBX_CH_STATUS_FULL ch = 0 ∧ t.reg .MBX_CH_STATUS_REMOTE_WAIT ch = 0 ∧
      t.pending = s.pending ∧ t.clk = s.clk) ∧
    Yields (.mbxNakReceive ch) s
      { s with mbx := { s.mbx with sending := tset 0 ch 2 s.mbx.sending, nakTold := tset 0 ch 1 s.mbx.nakTold } }) ∧
  (∀ (s : State) (ch : Nat), ch < 32 → s.reg .MBX_CH_STATUS_REMOTE_WAIT ch ≠ 1 →
    Yields (.mbxAckReceive ch) s s ∧ Yields (.mbxNakReceive ch) s s) ∧
  (∀ (s : State) (a b : Nat), a < 32 → b < 32 → a ≠ b → s.mbxPair a b = true → max 1 (s.reg .MBX_XWAIT_TICKS) < s.bothOf a b →
    s.clk.cycle = 0 → min a b * 32 + max a b ∉ s.mbx.xwaits →
    Yields (.xwaitDetect a b) s (({ s with mbx := { s.mbx with
      xwaits := (min a b * 32 + max a b) :: s.mbx.xwaits } } : State).setRegs [(.MBX_CH_STATUS_XWAIT, a, 1), (.MBX_CH_STATUS_XWAIT, b, 1)]))

/-- Jobs and the alive counters. -/
def Obligations.CheckRowsComplete : Prop :=
  (∀ (s : State) (n : Nat), n < 16 → Yields (.selfTest n) s ((s.setReg .CHK_UNIT_TEST_DONE n 0).queueJob n 5 15 .selfTest)) ∧
  (∀ (s : State) (n ctx : Nat), n < 16 →
    Yields (.aliveClear n ctx) s (((List.range 16).filter fun k => bit ctx k).foldl (fun (u : State) k => u.clearAlive n k) s)) ∧
  (∀ (s : State) (n : Nat) (j : Job) (data : List Nat) (fault : Bool), s.jobOf n = some j → s.canStart j = true →
    (fault = true ∨ (j.begun + (s.jobLength j + 127) / 128 + 4 ≤ s.coreCycle ∧ ∀ k, j.use = .run k → s.jobLength j ≤ data.length)) →
    Yields (.chkJobDone n data fault) s ((s.jobEnds n j data fault).nextOnUnit n)) ∧
  (∀ (s : State) (n : Nat) (j : Job) (data : List Nat), s.jobOf n = some j → s.canStart j = false ∨ s.coreCycle < j.begun + (s.jobLength j + 127) / 128 + 4 →
    Yields (.chkJobDone n data false) s s) ∧
  (∀ (s : State) (n : Nat) (j : Job) (data : List Nat) (fault : Bool), n < 16 → j.use = .selfTest →
    Agree (s.jobEnds n j data fault)
      ((s.setReg .CHK_UNIT_LAST_VALUE n (s.chkValue n testString)).setRegs
        [(.CHK_UNIT_TESTV_VALUE, n, s.chkValue n testString), (.CHK_UNIT_TEST_DONE, n, 1)])) ∧
  (∀ (s : State) (n : Nat) (data : List Nat) (fault : Bool), s.jobOf n = none → Yields (.chkJobDone n data fault) s s) ∧
  (∀ (s : State) (n : Nat) (j : Job), s.reg .CHK_CFG_WAIT_WARN ≠ 0 →
    (s.jobsOf n).find? (fun j => !j.warned && decide (s.reg .CHK_CFG_WAIT_WARN ≤ s.clk.tickCount - j.since)) = some j →
    Yields (.chkWait n) s { s with chk := { s.chk with
      queue := tset [] n ((s.jobsOf n).map fun k => if k = j then { k with warned := true } else k) s.chk.queue } })

/-- Counters, dumps and samplers. -/
def Obligations.ObserverRowsComplete : Prop :=
  (∀ (s : State) (u k w : Nat), unitExists u = true → k < 8 → selectionOk u w = true →
    Yields (.counterSelect u k false w) s
      (({ s with obs := { s.obs with
        selChanged := tupd 0 u (· ||| 2 ^ k) s.obs.selChanged, selAt := tset 0 (u * 8 + k) (s.coreCycle + 1) s.obs.selAt } } : State).setRegs
        [(.OBS_U_SEL_ALL, u * 8 + k, bits w 31 31), (.OBS_U_SEL_KIND, u * 8 + k, bits w 30 29), (.OBS_U_SEL_ITEM, u * 8 + k, bits w 28 24),
          (.OBS_U_SEL_SUB, u * 8 + k, bits w 23 16)]) ∧
    ∃ t, exec (.counterSelect u k false w) s = .next t ∧ t.reg .OBS_U_CNT_VALUE (u * 8 + k) = 0) ∧
  (∀ (s : State) (u k w : Nat), selectionOk u w = false → Yields (.counterSelect u k false w) s s) ∧
  (∀ (s : State) (u mask : Nat), unitExists u = true →
    Yields (.counterClear u mask) s s ∧
    ∀ k, k < 8 → bit mask k = true → ∃ t, exec (.counterClear u mask) s = .next t ∧ t.reg .OBS_U_CNT_VALUE (u * 8 + k) = s.hwBits .OBS_U_CNT_VALUE (u * 8 + k) % 2 ^ 48 ∧
      (s.hw.at_ ≠ s.coreCycle + 1 → t.reg .OBS_U_CNT_VALUE (u * 8 + k) = 0)) ∧
  (∀ s : State, s.clk.cycle = 0 → s.reg .OBS_DUMP_CFG_EN = 1 → s.obs.dumpDone ≠ s.clk.tickCount + 1 →
    s.clk.tickCount % max 1 (s.reg .OBS_DUMP_CFG_PERIOD) = 0 →
    (s.obs.dump = none → s.obs.flows = none → s.reg .OBS_DUMP_CFG_FLOWS = 0 → s.reg .OBS_DUMP_CFG_PORTS = 0 →
      Yields .dumpDue s
        (let u : State := { s.setReg .OBS_DUMP_SEQ_SEQ 0 (s.reg .OBS_DUMP_SEQ_SEQ + 1) with obs := { s.obs with dumpDone := s.clk.tickCount + 1 } }
         let body := ((List.range 19).filter fun n => bit (u.reg .OBS_DUMP_UNITS_UNITS) n).flatMap u.unitSection
         let d : DumpRec := ⟨u.reg .OBS_DUMP_BASE_ADDR * 4096 + 131072 * (s.reg .OBS_DUMP_SEQ_SEQ % max 1 (u.reg .OBS_DUMP_SLOTS_SLOTS)),
           s.reg .OBS_DUMP_SEQ_SEQ, le 8 s.clk.tick ++ le 8 s.clk.tickCount ++ le 4 (u.reg .OBS_DUMP_UNITS_UNITS) ++ le 4 (64 + body.length) ++
           le 4 s.obs.skipped, body⟩
         (({ u with obs := { u.obs with dump := some d, skipped := 0, selChanged := [], flows := none } } : State).setRegs
           [(.OBS_DUMP_STATUS_BUSY, 0, 1), (.OBS_DUMP_STATUS_FLOW_BUSY, 0, 0)]).emit (.hostWrite d.addr (dumpHeader d 1)))) ∧
    (s.obs.dump ≠ none →
      Yields .dumpDue s
        ({ s.setReg .OBS_DUMP_SEQ_SEQ 0 (s.reg .OBS_DUMP_SEQ_SEQ + 1) with obs := { s.obs with
          dumpDone := s.clk.tickCount + 1, skipped := s.obs.skipped + 1 } } : State))) ∧
  (∀ (s : State) (d : DumpRec), s.obs.dump = some d →
    Yields .dumpWriteDone s
      (((({ s with obs := { s.obs with dump := none } } : State).setReg .OBS_DUMP_STATUS_BUSY 0 0).emit (.hostWrite (d.addr + 64) d.body)).emit
        (.hostWrite d.addr (dumpHeader d 2)))) ∧
  (∀ (s : State) (base : Nat) (l : List (Nat × List Nat)), s.obs.flows = some (base, l) →
    Yields (.flowPassDone []) s
      (l.foldl (fun (u : State) (x : Nat × List Nat) =>
        ({ u with cls := { u.cls with cnt := tupd FlowCnt.zero x.1 (fun c => { c with invalid := false }) u.cls.cnt } } : State).emit
          (.hostWrite (base + 16 * x.1) x.2))
        (({ s with obs := { s.obs with flows := none } } : State).setReg .OBS_DUMP_STATUS_FLOW_BUSY 0 0))) ∧
  (∀ (s : State) (k : Nat), k < 2 → s.reg .OBS_SAMP_CFG_EN k ≠ 1 →
    Yields (.samplerEnable k true) s
      (let u := s.setRegs [(.OBS_SAMP_CFG_EN, k, 1), (.OBS_SAMP_TAIL_TAIL, k, 0), (.OBS_SAMP_TAKEN_COUNT, k, 0),
         (.OBS_SAMP_LOST_FULL_COUNT, k, 0), (.OBS_SAMP_LOST_RATE_COUNT, k, 0), (.OBS_SAMP_SKIP_BUSY_COUNT, k, 0)]
       ({ u with obs := { u.obs with
         sampLeft := tset 0 k (sampGap u k) u.obs.sampLeft, sampPhase := tdel k u.obs.sampPhase } } : State).fresh)) ∧
  (∀ (s : State) (k : Nat), k < 2 → s.reg .OBS_SAMP_CFG_EN k = 1 → Yields (.samplerEnable k false) s (s.setReg .OBS_SAMP_CFG_EN k 0))

/-- Arming, intervals and the mirror. -/
def Obligations.CairnRowsComplete : Prop :=
  (∀ s : State, s.reg .OBS_CAIRN_CTRL_EN ≠ 1 →
    Yields (.cairnEnableWrite true) s
      { s.setReg .OBS_CAIRN_CTRL_EN 0 1 with cairn := { s.cairn with armDue := true } }) ∧
  (∀ s : State, s.reg .OBS_CAIRN_CTRL_EN = 1 →
    Yields (.cairnEnableWrite false) s
      { s.setReg .OBS_CAIRN_CTRL_EN 0 0 with cairn := { s.cairn with armDue := false, shortDue := s.cairn.opened } }) ∧
  (∀ (s : State) (v : Nat), v < 2 ^ 24 →
    Yields (.cairnIntervalWrite v) s
      { s.setReg .OBS_CAIRN_CFG_INTERVAL 0 (max 1000 (min 10000000 v)) with
        cairn := { s.cairn with shortDue := s.cairn.shortDue || s.cairn.opened } }) ∧
  (∀ s : State,
    Yields .cairnIntervalClose s
      (s.cairn.due.foldl (fun (u : State) b => u.cairnNumber b) { s with cairn := { s.cairn with due := [] } })) ∧
  (∀ (s : State) (n : Nat) (t : List Nat), s.cairn.prog = n :: t → s.cairn.erasing = false →
    Yields (.cairnMirrorProgramDone true) s
      ((({ s with cairn := { s.cairn with prog := t, mirror := tins n (s.cairn.first.getD n []) s.cairn.mirror } } : State).emit
        (.flash 1 (0x20000 + 128 * n) (s.cairn.first.getD n []))).setReg .OBS_CAIRN_STATUS_MIRROR_BUSY 0 (b2n (!t.isEmpty))) ∧
    Yields (.cairnMirrorProgramDone false) s
      ((({ s with cairn := { s.cairn with prog := t } } : State).setReg .OBS_CAIRN_STATUS_MIRROR_ERR 0
        (s.reg .OBS_CAIRN_STATUS_MIRROR_ERR ||| 1)).setReg
        .OBS_CAIRN_STATUS_MIRROR_BUSY 0 (b2n (!t.isEmpty)))) ∧
  (∀ s : State, s.cairn.erasing = true →
    Yields .mirrorEraseDone s
      ((({ s with cairn := { s.cairn with erasing := false, mirror := [] } } : State).emit (.flash 2 0x20000 [])).setReg
        .OBS_CAIRN_STATUS_MIRROR_BUSY 0 (b2n (!s.cairn.prog.isEmpty))))

/-- The boundary, the quiet window and a step of time. -/
def Obligations.TimeRowsComplete : Prop :=
  (∀ (s : State) (x : BoundaryIn), s.sys.held = false →
    ∃ t, exec (.tickBoundary x) s = .next t ∧ t.pending = s.pending ∧ t.clk.cycle = 0 ∧ t.clk.tickCount = s.clk.tickCount + 1 ∧
      t.clk.tick = t.clk.acc / 2 ^ 40 / 1000 ∧ t.tme.agentQ = 0 ∧
      (let u := (doQuietWindowCapture s).runToEnd
       let v : State := { State.still State.endTick u with clk := u.clk.advance }
       t = { State.still (fun s => s.boundaryWork x u.clk.cycle)
         (State.still (fun s => s.applyTick u.clk.tick x.overrun u.switchWaited) v).setTickLen with pending := s.pending })) ∧
  (∀ s : State, s.sys.held = false → s.captureMade = false →
    exec .quietWindowCapture s =
      .next { State.still State.capture (s.reachExec.runTo (s.reachExec.clk.tickLen - 64)).cyclePassed with pending := s.pending }) ∧
  (∀ s : State, s.captureMade = true → exec .quietWindowCapture s = .next s) ∧
  (∀ s : State, s.sys.held = false → s.stepsDue ≠ [] → s.clk.cycle ≤ 16 →
    exec .timeStepApply s = .next { (s.leaveBoundary.runTo 16).cyclePassed.atExec with pending := s.pending }) ∧
  (∀ s : State, s.stepsDue = [] ∨ 16 < s.clk.cycle → exec .timeStepApply s = .next s) ∧
  (∀ s : State, s.atExec.clk = (s.stepsDue.foldl State.stepOnce s).clk) ∧
  (∀ (s : State) (r : StepReq),
    (s.stepOnce r).clk.acc = (if r.absolute then r.full * 2 ^ 24 else ((s.clk.acc : Int) + r.delta * (2 ^ 24 : Nat)).toNat) ∧
    (s.stepOnce r).clk.tick = (s.stepOnce r).clk.acc / 2 ^ 40 / 1000 ∧ (s.stepOnce r).clk.tickCount = s.clk.tickCount ∧
    (s.stepOnce r).clk.cycle = s.clk.cycle) ∧
  (∀ (s : State) (x : BoundaryIn), s.sys.held = true →
    exec (.tickBoundary x) s = .next s ∧ exec .quietWindowCapture s = .next s ∧ exec .timeStepApply s = .next s)

/-- Generations and the ends of long operations. -/
def Obligations.GenerationRowsComplete : Prop :=
  (∀ s : State, s.clk.cycle = 0 → s.sys.switchDue = true → s.drainOf s.pendSeq = 0 → Yields .generationSwitch s s.doSwitch) ∧
  (∀ s : State, s.clk.cycle ≠ 0 ∨ s.sys.switchDue = false ∨ s.drainOf s.pendSeq ≠ 0 → Yields .generationSwitch s s) ∧
  (∀ s : State, s.clk.cycle = 0 → s.sys.switchDue = true ∨ s.retireDue = true → s.sys.stall ≠ 0 → s.sys.stallTold = false →
    s.reg .SYS_GEN_STALL_LIMIT_TICKS ≤ s.sys.stall →
    Yields .generationStall s { s with sys := { s.sys with stallTold := true } }) ∧
  (∀ s : State, s.clk.cycle ≠ 0 ∨ (s.sys.switchDue = false ∧ s.retireDue = false) ∨ s.sys.stall = 0 ∨ s.sys.stallTold = true ∨
      s.sys.stall < s.reg .SYS_GEN_STALL_LIMIT_TICKS →
    Yields .generationStall s s) ∧
  (∀ (s : State) (n : Nat), n < 4 → n ≠ s.sys.genSeq % 4 → s.drainOf n = 0 → Yields (.generationRetire n) s s.retireAll) ∧
  (∀ (s : State) (n : Nat), n = s.sys.genSeq % 4 ∨ s.drainOf n ≠ 0 → Yields (.generationRetire n) s s) ∧
  (∀ (s : State) (t : Timed), s.sys.timed = some t → t.armed = false → s.clk.cycle = 0 → instantTick t.instant ≤ s.clk.tick + 1 →
    (s.drainOf s.pendSeq = 0 →
      Yields .comparatorArm s { s with sys := { s.sys with timed := some { t with armed := true } } }) ∧
    (s.drainOf s.pendSeq ≠ 0 →
      Yields .comparatorArm s
        (({ s with sys := { s.sys with timed := none, unheld := t.joined ++ s.sys.unheld, noAuto := s.sys.unheldAny } } : State).complete t.cmd
          stNOROOM ({ s with sys := { s.sys with timed := none, unheld := t.joined ++ s.sys.unheld, noAuto := s.sys.unheldAny } } : State).commitResult))) ∧
  (∀ (s : State) (t : Timed), s.sys.timed = some t → t.armed = true → s.clk.cycle = 0 → t.instant + 1000 * 65536 ≤ s.grains →
    t.notBefore ≤ s.clk.tickCount → s.oldUnstamped t.instant = false →
    Yields .comparatorRetire s
      (let u : State := { s.doSwitch with sys := { s.doSwitch.sys with timed := none } }
       u.complete t.cmd stOK u.commitResult)) ∧
  (∀ (s : State) (reads : List (Nat × List FlowRead)), s.sys.held = false → s.clk.cycle ≤ s.shareCycle →
      s.hst.sharedAt ≠ s.clk.tickCount + 1 →
    exec (.longOpShare reads) s =
      .next { State.still (fun u => u.sharesTaken reads) (s.reachExec.runTo s.reachExec.shareCycle).cyclePassed with pending := s.pending }) ∧
  (∀ (s : State) (reads : List (Nat × List FlowRead)),
      s.sys.held = true ∨ s.shareCycle < s.clk.cycle ∨ s.hst.sharedAt = s.clk.tickCount + 1 →
    exec (.longOpShare reads) s = .next s) ∧
  (∀ (s : State) (reads : List (Nat × List FlowRead)), s.sharesTaken reads = (List.range 32).foldl (fun (u : State) k =>
      if (u.op k).state = 2 ∧ (u.op k).opcode = 0x13 ∧ (u.op k).ended.isNone then
        (u.setOp k (if (u.op k).next < (u.op k).args.getD 0 0 then { u.op k with next := (u.op k).args.getD 0 0 } else u.op k)).bulkTake k
          (((reads.find? fun x => x.1 == k).map Prod.snd).getD [])
      else u) { s with hst := { s.hst with sharedAt := s.clk.tickCount + 1 } }) ∧
  (∀ (s : State) (k st : Nat) (r : OpEnd), (s.op k).live = true → s.clk.cycle = 0 → (s.op k).ended = some st → (s.op k).state ≠ 3 →
    Yields (.longOpDone k r) s (s.finishOp k (endState st) st (s.op k).result)) ∧
  (∀ (s : State) (k : Nat) (r : OpEnd), (s.op k).live = true → s.clk.cycle = 0 → (s.op k).ended = none → (s.op k).cancelled = false →
    (s.op k).state = 2 → (s.op k).opcode = 0x80 → r.damage = [] → r.fault = false →
    Yields (.longOpDone k r) s
      ((s.setOp k { s.op k with ended := some stOK, result := le 4 r.a ++ le 4 0 }).finishOp k (endState stOK) stOK (le 4 r.a ++ le 4 0))) ∧
  (∀ (s : State) (k : Nat), s.clk.cycle = 0 → (s.op k).state = 3 → s.reg .HST_LONG_SUSP_LIMIT_TICKS ≠ 0 →
    s.reg .HST_LONG_SUSP_LIMIT_TICKS ≤ (s.op k).suspTicks → (s.op k).ended = none → (s.op k).cancelled = false →
    Yields (.suspendTimeout k) s (s.cancelled k))

/-- Moves and reads of the engine. -/
def Obligations.PlacementRowsComplete : Prop :=
  (∀ s : State, s.reg .CLS_PLACE_EN = 1 → s.cls.intervalNext ≤ s.clk.tickCount →
    Yields .placeInterval s
      (({ s with
        cls := { s.cls with
          intervalNext := s.clk.tickCount + max 1 (s.reg .CLS_PLACE_INTERVAL), todo := s.cacheMoves ++ s.bankMoves ++ s.otherMoves
          auditLast := s.auditCounts, bankLoad := [], place := s.cls.place.map fun x => (x.1, { x.2 with frames := 0, audited := 0 }) }
        spe := { s.spe with groupLast := s.spe.groupLoad, groupLoad := [] } } : State).fresh.placeMoves)) ∧
  (∀ s : State, s.reg .CLS_PLACE_EN ≠ 1 ∨ s.clk.tickCount < s.cls.intervalNext → Yields .placeInterval s s) ∧
  (∀ (s : State) (flow : Nat), (s.placement flow).state = 1 → (s.placement flow).ready = false →
    Yields (.fillReadDone flow true) s
      ((s.setPlacement flow { (s.placement flow).put (fun x => { x with cacheOut := false }) with ready := true }).awaitSwitch none) ∧
    Yields (.fillReadDone flow false) s (s.setPlacement flow { s.placement flow with state := 0 })) ∧
  (∀ (s : State) (flow : Nat) (ok : Bool), (s.placement flow).state ≠ 1 ∨ (s.placement flow).ready = true →
    Yields (.fillReadDone flow ok) s s) ∧
  (∀ (s : State) (flow : Nat), (s.placement flow).since + 8 ≤ s.clk.tickCount + 1 →
    ((s.placement flow).state = 1 →
      Yields (.placeTimeout flow) s (s.setPlacement flow (s.placement flow).abandoned)) ∧
    ((s.placement flow).state = 4 →
      Yields (.placeTimeout flow) s
        ((s.dropSlot (s.placement flow).newSlot).setPlacement flow (s.placement flow).abandoned))) ∧
  (∀ p : Placement, p.abandoned.ready = false ∧ p.abandoned.spot = p.spot ∧ p.abandoned.plan.slot = p.spot.slot ∧
    p.abandoned.plan.cacheOut = p.spot.cacheOut ∧ p.abandoned.state = if p.state = 4 then p.prev else 0) ∧
  (∀ (s : State) (flow : Nat), (s.placement flow).reread = true →
    Yields (.directoryRereadDone flow true) s (s.setPlacement flow { s.placement flow with reread := false }) ∧
    Yields (.directoryRereadDone flow false) s
      ((s.dropSlot (s.placement flow).spot.slot).setPlacement flow { s.placement flow with
        reread := false, state := 5, spot := { (s.placement flow).spot with cacheOut := true }, next := none })) ∧
  (∀ (s : State) (flow : Nat) (ok : Bool), (s.placement flow).reread = false → Yields (.directoryRereadDone flow ok) s s)

/-- Heads, cells, ends and the reads a frame waits for. -/
def Obligations.IngressRowsComplete : Prop :=
  (∀ (s : State) (x : HeadIn), x.port < 258 → s.coreWork.reg .PRT_MODE_UP x.port = 1 →
    Yields (.frameHead x) s
      (let r := s.coreWork.stampOf x.port 0 x.stamp
       r.1.admitHead { Frame.none_ with
         port := x.port, express := x.express, head := x.bytes.take 128, len := x.bytes.length, full := r.2
         steps := r.1.tme.steps, stage := 0, damage := x.damage })) ∧
  (∀ (s : State) (x : HeadIn), s.coreWork.reg .PRT_MODE_UP x.port ≠ 1 → Yields (.frameHead x) s s.coreWork) ∧
  (∀ s : State, s.swc.coreAt = s.coreCycle + 1 → s.coreWork = s) ∧
  (∀ (s : State) (id : Nat), (s.coreWork.frame id).ended = false →
    let u := s.coreWork
    ((u.frame id).stage = 0 →
      Yields (.furtherCellRequest id) s ((u.setFrame id { u.frame id with len := (u.frame id).len + 256 }).mpCheck id)) ∧
    ((u.frame id).stage ≠ 0 → (u.frame id).stage ≠ 5 →
      Yields (.furtherCellRequest id) s
        (((u.setFrame id { u.frame id with len := (u.frame id).len + 256, want := (u.frame id).want + 1 }).askCell id).mpCheck id)) ∧
    ((u.frame id).stage = 5 → Yields (.furtherCellRequest id) s u)) ∧
  (∀ (s : State) (id : Nat), ((s.frame id).want ≠ 0 ∨ (s.frame id).slot = true → Yields (.cellRetry id) s s.coreWork) ∧
    ((s.frame id).want = 0 → (s.frame id).slot = false → Yields (.cellRetry id) s s)) ∧
  (∀ (s : State) (id : Nat) (x : TailIn), (s.frame id).ended = false → (s.swc.frames.any fun y => y.1 == id) = true →
    (s.frame id).stage ≠ 5 → x.frags = 0 → (s.frame id).counted = none → (s.frame id).unit = 0 →
    let b := ((s.frame id).head ++ x.bytes).take (s.reg .PRT_MAXLEN_MAXLEN (s.frame id).port)
    (s.endCause (s.frame id).port ((s.frame id).head ++ x.bytes) x.uncorr = 0 → x.fragBad = false →
      Yields (.frameEnd id x) s
        (((s.countFrame (s.frame id).port false b.length).setFrame id
          { s.frame id with ended := true, len := b.length, rest := b.drop 128 }).frameWhole id)) ∧
    (∀ c, s.endCause (s.frame id).port ((s.frame id).head ++ x.bytes) x.uncorr = c + 1 → x.fragBad = false →
      Yields (.frameEnd id x) s
        ((((s.countFrame (s.frame id).port false b.length).countBad (s.frame id).port c).setFrame id
          { s.frame id with ended := true, len := b.length, rest := b.drop 128 }).frameBad id 1))) ∧
  (∀ (s : State) (id : Nat) (x : TailIn), (s.frame id).ended = true ∨ (s.swc.frames.any fun y => y.1 == id) = false →
    Yields (.frameEnd id x) s s) ∧
  (∀ (s : State) (i : Nat), s.cls.reads.contains i = true →
    Yields (.flowMissDone i false) s
      ((((s.swc.frames.filter fun x => x.2.stage == 1 && x.2.flow == some i).map Prod.fst).foldl (fun (u : State) id =>
        (u.setFrame id { u.frame id with stage := 3 }).classifyFrame id true [])
        { s with cls := { s.cls with reads := s.cls.reads.erase i } })).missRoom ∧
    Yields (.flowMissDone i true) s
      (let u := ({ s with cls := { s.cls with reads := s.cls.reads.erase i } } : State).entryDamage 3 i s.oldestGen
       (((u.swc.frames.filter fun x => x.2.stage == 1 && x.2.flow == some i).map Prod.fst).foldl (fun (u : State) id =>
         (u.guard 0xD 1).discardFrame id true) u).missRoom)) ∧
  (∀ (s : State) (i : Nat) (bad : Bool), s.cls.reads.contains i = false → Yields (.flowMissDone i bad) s s) ∧
  (∀ (s : State) (id : Nat) (x : SpeFaults), (s.coreWork.frame id).stage = 2 → (s.coreWork.frame id).read = false →
    Yields (.windowReadDone id x.line x.record x.unread) s
      (let u := s.coreWork
       let l := u.awaiting.filter fun y => !y.2.read && y.2.sameLine (u.frame id)
       let u := l.foldl (fun (u : State) y => u.setFrame y.1 { y.2 with read := true }) u
       let u := match firstReached l with | some y => u.setFrame y.1 { u.frame y.1 with faults := x } | none => u
       u.engineGo)) ∧
  (∀ (s : State) (id : Nat),
    let f := s.frame id
    let m := (s.probeArrival f.pair f.leg f.seqNo f.full).merge f.pair f.leg f.seqNo f.faults
    (m.2.forward = true → m.2 ≠ .guard →
      s.decideFrame id = ((m.1.tally 18 1 1 m.2.code 0 f.pair 1).tally 18 2 (1 + f.leg) 0 0 f.pair 1).decided id) ∧
    (m.2.forward = false → m.2 ≠ .guard →
      s.decideFrame id = (m.1.tally 18 1 1 m.2.code 0 f.pair 1).discardFrame id (!(m.2 == .duplicate || m.2 == .behind)))) ∧
  (∀ (s : State) (id : Nat) (x : SpeFaults), (s.coreWork.frame id).stage ≠ 2 ∨ (s.coreWork.frame id).read = true →
    Yields (.windowReadDone id x.line x.record x.unread) s s.coreWork) ∧
  (∀ (s : State) (p : Nat), Yields (.missQueueRoom p) s (s.heldOf p) ∧ Yields (.mergeQueueRoom p) s (s.heldOf p))

/-- Starts, ends, vents, caravans, pacers and gates. -/
def Obligations.EgressRowsComplete : Prop :=
  (∀ (s : State) (p : Nat) (x : StartIn), s.reg .PRT_MODE_UP p ≠ 1 → Yields (.copyStart p x) s (s.portGone p)) ∧
  (∀ (s u : State) (p : Nat) (x : StartIn) (c : Copy), s.reg .PRT_MODE_UP p = 1 →
    u = (List.range 16).foldl (fun (u : State) q => (u.dropOversize p q (u.queue p q).length).markGated p q) s → u.onWire p 0 = [] →
    ((u.nextCopy p 0).2 = some c → (((u.nextCopy p 0).1.cutFrame p true).onWire p 1).all (fun l => l.paused) = true →
      Yields (.copyStart p x) s (((u.nextCopy p 0).1.cutFrame p true).presentCopy c x)) ∧
    ((u.nextCopy p 0).2 = some c → (((u.nextCopy p 0).1.cutFrame p true).onWire p 1).all (fun l => l.paused) = false →
      Yields (.copyStart p x) s u) ∧
    ((u.nextCopy p 0).2 = none → (u.nextCopy p 0).1.onWire p 1 = [] → ((u.nextCopy p 0).1.nextCopy p 1).2 = some c →
      Yields (.copyStart p x) s (((u.nextCopy p 0).1.nextCopy p 1).1.presentCopy c x))) ∧
  (∀ (s : State) (p m : Nat) (upset : List Nat) (q : Leaving) (t : List Leaving), s.onWire p m = q :: t →
    s.reg .PRT_MODE_UP p = 1 →
    Yields (.copyEnd p ⟨m, upset⟩) s
      (let f := s.frame q.copy.frame
       let l := if f.ended = false ∧ q.stomp = 0 then { q with stomp := 6 } else q
       let w := upset.foldl State.metaUpset (s.setWire p m t)
       let body := (l.bytes ++ f.rest).take (w.lenOf f - 4)
       let out := body ++ if l.stomp = 0 then le 4 (crc32 body) else (le 4 (crc32 body)).map fun v => 255 - v
       let u := (w.emit (.frame p (l.stomp != 0) out.length out)).countFrame p true out.length
       let v := (u.tally 17 1 1 0 0 (qkey p l.copy.queue) 1).tally 17 1 2 0 0 (qkey p l.copy.queue) out.length
       (if l.stomp = 0 then v else v.stomped p l.stomp).releaseCopies [q.copy])) ∧
  (∀ (s : State) (p m : Nat) (upset : List Nat), s.onWire p m = [] → Yields (.copyEnd p ⟨m, upset⟩) s s) ∧
  (∀ (s : State) (p prio : Nat), s.paused p prio = true → tget 0 s.prt.pausedSince (pkey p prio) ≠ 0 →
    tget 0 s.prt.pausedSince (pkey p prio) + s.reg .PRT_VENT_TICKS p ≤ s.clk.tickCount + 1 →
    (s.ventClasses p prio).filter (fun c => (s.ventOf p c).isNone) ≠ [] →
    Yields (.ventStart p prio) s
      (let cl := (s.ventClasses p prio).filter fun c => (s.ventOf p c).isNone
       let r := s.takeCopies fun c => c.port == p && cl.contains (s.frame c.frame).cls && (s.frame c.frame).ended
       let n := r.2.length
       let of (c : Nat) : Nat := (r.2.filter fun x => (s.frame x.frame).cls == c).length
       let u : State := { r.1 with prt := { r.1.prt with vent := cl.foldl (fun t c => tset 0 (pkey p prio * 8 + c) (1 + of c) t) r.1.prt.vent } }
       let v := r.2.foldl (fun (u : State) c => match (u.frame c.frame).counted with | some i => u.flowDiscard i | none => u)
         ((u.portCount p 35 n).tally 12 7 1 0 0 p n)
       (cl.foldl (fun (v : State) c => v.evLow 37 p [(1, c), (4, of c)]) v).releaseCopies r.2)) ∧
  (∀ (s : State) (p prio : Nat), s.paused p prio = false → Yields (.ventStart p prio) s s) ∧
  (∀ (s : State) (sl : Nat),
    Yields (.caravanQueueRoom sl) s
      (let n := 262144 - s.descriptors sl
       let u : State := { s with swc := { s.swc with caravan := tset [] sl ((tget [] s.swc.caravan sl).drop n) s.swc.caravan } }
       let v := ((tget [] s.swc.caravan sl).take n).foldl (fun (v : State) c => v.enqueue c) u
       let room := 1024 - (tget [] v.swc.caravan sl).length
       { v with swc := { v.swc with
         caravan := tset [] sl (tget [] v.swc.caravan sl ++ (tget [] v.swc.caravanWait sl).take room) v.swc.caravan
         caravanWait := tset [] sl ((tget [] v.swc.caravanWait sl).drop room) v.swc.caravanWait } })) ∧
  (∀ (s : State) (k j : Nat) (c : Copy) (rest : List Copy) (e : Line), (s.pacer k).held = c :: rest → s.paceOf c = .by j e →
    (s.paceDue k c e).1 ≤ s.grains → s.stopped c.port (s.classPrio (s.frame c.frame).cls) = false →
    (s.pacer k).last ≠ s.coreCycle + 1 →
    Yields (.pacerRelease k) s
      ((s.setPacer k { s.pacer k with held := rest, tat := max (s.paceDue k c e).2 s.grains + paceT e, last := s.coreCycle + 1 }).pushQueue
        { c with released := s.grains + 1 })) ∧
  (∀ (s : State) (k : Nat), (s.pacer k).held = [] → Yields (.pacerRelease k) s s) ∧
  (∀ (s : State) (p : Nat), (s.gate p).active = none → (s.gate p).fallEnds = false → Yields (.gateChange p) s (s.showGate p)) ∧
  (∀ (s : State) (p : Nat) (l : List Line), (s.gate p).active = some l → (s.gate p).fallEnds = false →
    (gateAt l s.taiNs).1 = (s.gate p).cycle →
    Yields (.gateChange p) s ((s.setGate p { s.gate p with entry := (gateAt l s.taiNs).2 }).showGate p |>.gateCut p)) ∧
  (∀ (s : State) (p : Nat) (l : List Line), p < 258 → (s.gate p).swap = some l →
    (if gateEn (l.headD []) ∧ gateValid (l.headD []) then gateCycle (l.headD []) (gateNextCycle (l.headD []) (s.gate p).swapFrom)
      else (s.gate p).swapFrom) ≤ (s.taiNs : Int) →
    Yields (.gateListSwap p) s
      (let u := (s.setGate p { s.gate p with
         list := l, swap := none, cycle := gateCycleAt (l.headD []) s.taiNs, entry := 0, cutTold := false, fallEnds := false }).setRegs
         [(.EGR_GATE_SWAP_TICK, p, s.clk.tick), (.EGR_GATE_FALLBACK, p, b2n (s.gateDamaged p))]
       let v := if s.flag .EGR_GATE_FALLBACK p = s.gateDamaged p then u else u.evLow 116 p [(4, 0), (1, b2n (s.gateDamaged p))]
       ((v.evLow 114 p [(4, gateLen (l.headD [])), (8, (s.gate p).swapTick)]).showGate p).gateCut p)) ∧
  (∀ (s : State) (p : Nat), (s.gate p).swap = none → Yields (.gateListSwap p) s s) ∧
  (∀ (s : State) (table hold : Bool) (count first : Nat) (entries : List Line), s.reg .EGR_TLOAD_STATUS_PENDING ≠ 1 →
    Yields (.tload table hold count first entries) s
      (let u := s.setRegs [(.EGR_TLOAD_TABLE, 0, b2n table), (.EGR_TLOAD_HOLD, 0, b2n hold), (.EGR_TLOAD_COUNT, 0, count),
         (.EGR_TLOAD_FIRST, 0, first)]
       ({ u with egr := { u.egr with
         tload := some ⟨if table then tPace else tGate, hold, count % 2048, first % 2 ^ 18, entries⟩ } } : State).setRegs
         [(.EGR_TLOAD_STATUS_PENDING, 0, 1), (.EGR_TLOAD_STATUS_RESULT, 0, 0)])) ∧
  (∀ (s : State) (table hold : Bool) (count first : Nat) (entries : List Line), s.reg .EGR_TLOAD_STATUS_PENDING = 1 →
    Yields (.tload table hold count first entries) s (s.setReg .EGR_TLOAD_STATUS_RESULT 0 6))

/-- Flow control, preemption's verification and PORT_UP. -/
def Obligations.PortRowsComplete : Prop :=
  (∀ (s : State) (p all : Nat) (quanta : List (Nat × Nat)), ¬(p < 256 ∧ s.reg .PRT_MODE_PFC p = 1) →
    Yields (.pauseFrameReceive p false quanta all) s ((List.range 8).foldl (fun (u : State) k => u.pauseFor p k all) s)) ∧
  (∀ (s : State) (p all : Nat) (quanta : List (Nat × Nat)), p < 256 → s.reg .PRT_MODE_PFC p = 1 →
    Yields (.pauseFrameReceive p false quanta all) s ((List.range 8).foldl (fun (u : State) k => u.portCount p (11 + k) 1) s)) ∧
  (∀ (s : State) (p all prio q : Nat), p < 256 → prio < 8 → s.reg .PRT_MODE_PFC p = 1 → bit (s.reg .PRT_MODE_PFC_MASK p) prio = true →
    Yields (.pauseFrameReceive p true [(prio, q)] all) s ((s.portCount p (11 + prio) 1).pauseFor p prio q)) ∧
  (∀ (s : State) (p all prio q : Nat), ¬(p < 256 ∧ s.reg .PRT_MODE_PFC p = 1) →
    Yields (.pauseFrameReceive p true [(prio, q)] all) s (s.portCount p (11 + prio) 1)) ∧
  (∀ (s : State) (p prio : Nat), s.paused p prio = true →
    s.pauseFor p prio 0 = (let u := s.unpause p prio
      ({ u with prt := { u.prt with
        pauseTo := tins (pkey p prio) (u.grains + Config.freePauseHold u.freeCtr % 33 * 40960) u.prt.pauseTo } } : State).fresh)) ∧
  (∀ (s : State) (p prio q : Nat), p < 258 → q ≠ 0 → bit (s.reg .PRT_PFC_XOFF_RX p) prio = true →
    s.pauseFor p prio q = ({ s.setReg .PRT_PFC_XOFF_RX p (s.reg .PRT_PFC_XOFF_RX p ||| 2 ^ prio) with prt := { s.prt with
      pauseEnd := tins (pkey p prio) (s.grains + quantaGrains (s.portGbps p) q) s.prt.pauseEnd } } : State).fresh) ∧
  (∀ (s : State) (p prio : Nat), s.paused p prio = true → tget 0 s.prt.pauseEnd (pkey p prio) ≤ s.grains →
    Yields (.pauseExpiry p prio) s (s.unpause p prio)) ∧
  (∀ (s : State) (p prio : Nat), s.paused p prio = false ∨ s.grains < tget 0 s.prt.pauseEnd (pkey p prio) →
    Yields (.pauseExpiry p prio) s s) ∧
  (∀ (s : State) (p prio : Nat), bit (s.reg .PRT_PFC_XOFF_TX p) prio = true → tget 0 s.prt.refresh (pkey p prio) ≠ 0 → tget 0 s.prt.refresh (pkey p prio) ≤ s.grains →
    Yields (.xoffRefresh p prio) s (s.sendXoff p prio (s.reg .PRT_PFC_QUANTA p))) ∧
  (∀ (s : State) (p prio : Nat) (sending : Bool), s.reg .PRT_HOLD_LIMIT p ≠ 0 →
    (if sending then tget 0 s.swc.holdSince (pkey p prio) else tget 0 s.prt.pausedSince (pkey p prio)) ≠ 0 →
    s.reg .PRT_HOLD_LIMIT p ≤ s.clk.tickCount + 1 -
      (if sending then tget 0 s.swc.holdSince (pkey p prio) else tget 0 s.prt.pausedSince (pkey p prio)) →
    bit (tget 0 s.prt.holdTold (pkey p prio)) (b2n !sending) = false →
    Yields (.holdLimit p prio sending) s
      { s with prt := { s.prt with holdTold := tupd 0 (pkey p prio) (· + (if sending then 1 else 2)) s.prt.holdTold } }) ∧
  (∀ (s : State) (p : Nat), s.reg .PRT_PREEMPT_STATE p = 1 →
    (tget 0 s.prt.verifyTries p < 3 →
      tget 0 s.prt.verifyTries p = 0 ∨ tget 0 s.prt.verifyAt p + 1000 * s.reg .PRT_PREEMPT_VERIFY_MS p ≤ s.clk.tickCount →
      Yields (.preemptVerify p 0) s (({ s with prt := { s.prt with
        verifyTries := tins p (tget 0 s.prt.verifyTries p + 1) s.prt.verifyTries
        verifyAt := tins p s.clk.tickCount s.prt.verifyAt } } : State).emit (.verify p 0))) ∧
    Yields (.preemptVerify p 2) s (s.setReg .PRT_PREEMPT_STATE p 2) ∧
    (3 ≤ tget 0 s.prt.verifyTries p → tget 0 s.prt.verifyAt p + 1000 * s.reg .PRT_PREEMPT_VERIFY_MS p ≤ s.clk.tickCount →
      Yields (.preemptVerify p 3) s (s.setReg .PRT_PREEMPT_STATE p 3))) ∧
  (∀ (s : State) (p : Nat), s.reg .PRT_MODE_PREEMPT p = 1 → s.reg .PRT_MODE_UP p = 1 →
    Yields (.preemptVerify p 1) s (s.emit (.verify p 1))) ∧
  (∀ (s : State) (p : Nat), p < 256 → s.reg .PRT_MODE_ADMIN_UP p = 1 → s.reg .PRT_MODE_UP p = 0 →
    (∀ i ∈ portLanes p (s.reg .PRT_MODE_WIDTH p), s.reg .LN_STATUS_STATE i = 6 ∧ s.reg .LN_STATUS_RUNG i = s.portRung p) →
    s.seifBeaten p 0 = true → s.seifBeaten p 1 = true →
    Yields (.portUp p) s (((s.portRecord p).setReg .PRT_MODE_UP p 1).preemptStart p)) ∧
  (∀ (s : State) (p : Nat), s.reg .PRT_MODE_UP p = 1 → Yields (.portUp p) s s) ∧
  (∀ (s : State) (p prio : Nat), p < 256 → s.held p prio = true → s.swc.frames = [] → s.swc.caravanWait = [] →
    (∀ q, q < 4 → tget 0 s.oas.hdrm (p * 4 + q) = 0 ∧ s.inUse q + s.reg .SWC_ADMIT_XON_GAP ≤ s.reg .OAS_POOL_LIMIT_LIMIT q) →
    s.reg .SWC_HOLD_HELD p - 2 ^ prio ≠ 0 → s.reg .SWC_HOLD_HELD p < 256 →
    Yields (.holdRelease p prio) s
      (({ s.setReg .SWC_HOLD_HELD p (s.reg .SWC_HOLD_HELD p - 2 ^ prio) with
        swc := { s.swc with holdSince := tdel (pkey p prio) s.swc.holdSince }
        prt := { s.prt with holdTold := tset 0 (pkey p prio) (tget 0 s.prt.holdTold (pkey p prio) / 2 * 2) s.prt.holdTold } } : State).sendXoff
          p prio 0)) ∧
  (∀ (s : State) (p prio : Nat), s.held p prio = false → Yields (.holdRelease p prio) s s)

/-- Sync, Follow_Up, Delay_Req, Delay_Resp, Pdelay messages and launches. -/
def Obligations.PtpMessageRowsComplete : Prop :=
  (∀ (s : State) (p : Nat), s.clockPort p 2 = true → s.syncInstant p s.grains ≤ s.grains →
    tget 0 s.tme.lastSync p < s.syncInstant p s.grains + 1 →
    Yields (.syncSend p) s
      (let one := s.flag .TME_INST_CFG_ONE_STEP (s.portInst p)
       let r := s.syncInstant p s.grains
       let q := ({ s with tme := { s.tme with lastSync := tset 0 p (r + 1) s.tme.lastSync } } : State).nextSeq p 0
       q.1.sendDevice p ⟨0, one, q.2, r, 0⟩ (q.1.ptpFrame p (q.1.ptpTo p) true
         (q.1.ptpHeader p 0 44 (!one) 0 q.2 (unsgn 8 (sgn 4 (s.reg .TME_PORT_CFG_LOG_SYNC p))) ++ List.replicate 10 0)))) ∧
  (∀ (s : State) (p : Nat), s.clockPort p 2 = false ∨ s.grains < s.syncInstant p s.grains ∨
      s.syncInstant p s.grains + 1 ≤ tget 0 s.tme.lastSync p → Yields (.syncSend p) s s) ∧
  (∀ (s : State) (p : Nat) (d : PtpDue), (s.tme.followUps.find? fun d => d.port == p) = some d →
    Yields (.followUpSend p) s
      (let u : State := { s with tme := { s.tme with followUps := s.tme.followUps.erase d } }
       let g : Int := (d.stamp % 65536 : Nat)
       if (parse d.head).ptp.map PtpHead.msg = some 0 then
         u.sendDevice p ⟨8, false, d.seq, 0, 0⟩ (u.ptpFrame p (u.ptpTo p) false
           (u.ptpHeader p 8 44 false g d.seq (unsgn 8 (sgn 4 (s.reg .TME_PORT_CFG_LOG_SYNC p))) ++ stampBytes d.stamp))
       else
         u.sendDevice p ⟨10, false, d.seq, 0, 0⟩ (u.ptpFrame p (u.ptpTo p) false
           (u.ptpHeader p 10 54 false (d.corr + g) d.seq 0x7F ++ stampBytes d.stamp ++
             slice d.head (((parse d.head).ptp.map PtpHead.off).getD 0 + 44) 10)))) ∧
  (∀ (s : State) (p : Nat), s.clockPort p 3 = true → tget 0 s.tme.nextDreq p ≤ s.grains →
    Yields (.delayReqSend p) s
      (let wait := Config.freeDelayReq s.freeCtr % (2 * logGrains (s.reg .TME_PORT_CFG_LOG_DREQ p) + 1)
       let q := (({ s with tme := { s.tme with nextDreq := tset 0 p (s.grains + wait) s.tme.nextDreq } } : State).fresh).nextSeq p 1
       q.1.sendDevice p ⟨1, true, q.2, 0, 0⟩ (q.1.ptpFrame p (q.1.ptpTo p) true
         (q.1.ptpHeader p 1 44 false 0 q.2 0x7F ++ List.replicate 10 0)))) ∧
  (∀ (s : State) (p : Nat), p < 256 → s.portState p ≠ 0 → s.reg .TME_INST_CFG_EN (s.portInst p) = 1 →
    s.reg .TME_INST_CFG_DELAY (s.portInst p) = 1 → tget 0 s.tme.nextPdelay p ≤ s.grains →
    Yields (.pdelayReqSend p) s
      (let per := logGrains (s.reg .TME_PORT_CFG_LOG_PDELAY p)
       let due := tget 0 s.tme.nextPdelay p
       let next := if due ≠ 0 ∧ s.grains < due + per then due + per else s.grains + per
       let q := ({ s with tme := { s.tme with nextPdelay := tset 0 p next s.tme.nextPdelay } } : State).nextSeq p 2
       q.1.sendDevice p ⟨2, true, q.2, 0, 0⟩ (q.1.ptpFrame p (q.1.ptpTo p) true
         (q.1.ptpHeader p 2 54 false 0 q.2 0x7F ++ List.replicate 20 0)))) ∧
  (∀ (s : State) (p : Nat) (d : PtpDue), (s.tme.delayResps.find? fun d => d.port == p) = some d →
    Yields (.delayRespSend p) s
      (let u : State := { s with tme := { s.tme with delayResps := s.tme.delayResps.erase d } }
       let x := parse d.head
       let o := (x.ptp.map PtpHead.off).getD 0
       let dest := if bit (x.dmac.getD 0 0) 0 then u.ptpTo p else { u.ptpTo p with dmac := x.smac, ip := x.src }
       u.sendDevice p ⟨9, true, d.seq, 0, 0⟩ (u.ptpFrame p { dest with tag := x.tag } false
         (u.ptpHeader p 9 54 false (sgn 64 (ofBE (slice d.head (o + 8) 8)) - (d.stamp % 65536 : Nat)) d.seq
             (unsgn 8 (sgn 4 (s.reg .TME_PORT_CFG_LOG_DREQ p))) ++ stampBytes d.stamp ++ slice d.head (o + 20) 10)))) ∧
  (∀ (s : State) (p : Nat) (d : PtpDue), (s.tme.pdelayResps.find? fun d => d.port == p) = some d →
    Yields (.pdelayRespSend p) s
      (let u : State := { s with tme := { s.tme with pdelayResps := s.tme.pdelayResps.erase d } }
       let o := ((parse d.head).ptp.map PtpHead.off).getD 0
       let one := s.flag .TME_INST_CFG_ONE_STEP (s.portInst p)
       let corr := sgn 64 (ofBE (slice d.head (o + 8) 8))
       u.sendDevice p ⟨3, one, d.seq, d.stamp, corr⟩ (u.ptpFrame p (u.ptpTo p) true
         (if one then u.ptpHeader p 3 54 false corr d.seq 0x7F ++ List.replicate 10 0 ++ slice d.head (o + 20) 10
          else u.ptpHeader p 3 54 true (-(d.stamp % 65536 : Nat)) d.seq 0x7F ++ stampBytes d.stamp ++ slice d.head (o + 20) 10)))) ∧
  (∀ (s : State) (p : Nat),
    ((s.tme.followUps.find? fun d => d.port == p) = none → Yields (.followUpSend p) s s) ∧
    ((s.tme.delayResps.find? fun d => d.port == p) = none → Yields (.delayRespSend p) s s) ∧
    ((s.tme.pdelayResps.find? fun d => d.port == p) = none → Yields (.pdelayRespSend p) s s)) ∧
  (∀ (s : State) (p q m k : Nat), m < 16 → k < 16 →
    (s.nextSeq p m).2 = tget 0 s.tme.seqs (p * 16 + m) ∧
    ((s.nextSeq p m).1.nextSeq q k).2 =
      if q = p ∧ k = m then ((s.nextSeq p m).2 + 1) % 65536 else tget 0 s.tme.seqs (q * 16 + k)) ∧
  (∀ s : State, Yields .injectLaunch s s.coreWork.hostGo)

/-- The board table, signal and lock, the ladder, Clause 73, time-outs and back-off. -/
def Obligations.LaneRowsComplete : Prop :=
  (∀ (s : State) (t : List Nat), boardOk t = true →
    Yields (.reload t) s (({ s with ln := { s.ln with board := some t } } : State).setRegs [(.LN_TABLE_STATUS_VALID, 0, 1),
      (.LN_TABLE_STATUS_DEFAULTS, 0, 0), (.LN_TABLE_STATUS_VERSION, 0, 1), (.LN_BOARD_ID_ID, 0, ofLE (slice t 28 4))])) ∧
  (∀ (s : State) (t : List Nat), boardOk t = false →
    Yields (.reload t) s (({ s with ln := { s.ln with board := none } } : State).setRegs [(.LN_TABLE_STATUS_VALID, 0, 0),
      (.LN_TABLE_STATUS_DEFAULTS, 0, 1), (.LN_TABLE_STATUS_CRC_ERR, 0, 1), (.LN_TABLE_STATUS_VERSION, 0, 0), (.LN_BOARD_ID_ID, 0, 0)])) ∧
  (∀ (s : State) (i : Nat), i < 260 →
    let shown := s.setReg .LN_STATUS_SIGNAL i 1
    (s.laneHeld i = false → s.laneState i = 2 → (s.lane i).method = 2 → Yields (.laneSignalDetect i) s (shown.setLaneState i 4)) ∧
    (s.laneHeld i = false → s.laneState i = 2 → (s.lane i).method = 1 →
      Yields (.laneSignalDetect i) s ((shown.setLaneState i 3).sendBasePage i)) ∧
    (s.laneHeld i = false → s.laneState i = 2 → (s.lane i).method = 0 ∨ (s.lane i).method = 3 →
      Yields (.laneSignalDetect i) s (shown.setLaneState i 3)) ∧
    (s.laneHeld i = false → s.laneState i = 8 → tget 0 s.ln.power i ≠ 4 → Yields (.laneSignalDetect i) s (shown.laneRestart i)) ∧
    (s.laneHeld i = true ∨ (s.laneState i ≠ 2 ∧ s.laneState i ≠ 8) ∨ (s.laneState i = 8 ∧ tget 0 s.ln.power i = 4) →
      Yields (.laneSignalDetect i) s shown)) ∧
  (∀ (s : State) (i : Nat), i < 260 →
    let lost := (s.setReg .LN_STATUS_SIGNAL i 0).setRegs [(.LN_STATUS_LOCK, i, 0), (.LN_STATUS_MERIT, i, 0)]
    let unlocked := s.setRegs [(.LN_STATUS_LOCK, i, 0), (.LN_STATUS_MERIT, i, 0)]
    (s.laneHeld i = true → Yields (.laneSignalLoss i false) s lost ∧ Yields (.laneSignalLoss i true) s unlocked) ∧
    (s.laneHeld i = false →
      (3 ≤ s.laneState i → s.laneState i ≤ 5 → Yields (.laneSignalLoss i false) s (lost.laneFail i)) ∧
      (s.laneState i = 6 → Yields (.laneSignalLoss i false) s (lost.laneDrop i 1)) ∧
      (s.laneState i = 4 → Yields (.laneSignalLoss i true) s (unlocked.laneFail i)) ∧
      (s.laneState i = 6 → Yields (.laneSignalLoss i true) s (unlocked.laneDrop i 2)) ∧
      (s.laneState i = 10 → isMywyn i = true →
        Yields (.laneSignalLoss i false) s (lost.laneRestart i) ∧ Yields (.laneSignalLoss i true) s (unlocked.laneRestart i)) ∧
      (s.laneState i = 10 → isMywyn i = false →
        Yields (.laneSignalLoss i false) s lost ∧ Yields (.laneSignalLoss i true) s unlocked) ∧
      (s.laneState i < 3 ∨ (7 ≤ s.laneState i ∧ s.laneState i ≠ 10) →
        Yields (.laneSignalLoss i false) s lost ∧ Yields (.laneSignalLoss i true) s unlocked) ∧
      (s.laneState i = 3 ∨ s.laneState i = 5 → Yields (.laneSignalLoss i true) s unlocked))) ∧
  (∀ (s : State) (i : Nat), (s.lane i).method = 0 ∨ (s.lane i).method = 3 → 2 ≤ s.laneState i → s.laneState i ≤ 5 →
    s.laneHeld i = false → s.laneGood i = false → (s.lane i).doneSent < 3 →
    Yields (.ladderBlockSend i) s
      ((s.emit (.ladder i 0 (ladderBlock (s.reg .LN_STATUS_RUNG i * 4)
          ((s.lane i).top * 32 + b2n ((s.lane i).entryFlag 1) * 16 + (s.lane i).seq % 8) (s.reg .LN_STATUS_MERIT i))
        (s.txInverted i))).setLane i { s.lane i with seq := ((s.lane i).seq + 1) % 8, readySent := false, ready := 0 })) ∧
  (∀ (s : State) (i : Nat),
    (s.lane i).method = 1 ∨ (s.lane i).method = 2 ∨ s.laneState i < 2 ∨ 5 < s.laneState i ∨ s.laneHeld i = true →
    Yields (.ladderBlockSend i) s s) ∧
  (∀ (s : State) (i : Nat) (b : LadderBlock),
    s.takesBlock i b = false ∨ s.laneHeld i = true ∨ s.laneState i < 3 ∨ 5 < s.laneState i ∨ (s.lane i).method = 1 ∨
      (s.lane i).method = 2 → Yields (.ladderBlockReceive i b) s s) ∧
  (∀ (s : State) (i : Nat) (b : LadderBlock), s.takesBlock i b = true → s.laneHeld i = false → s.laneState i = 3 →
    (s.lane i).method ≠ 1 → (s.lane i).method ≠ 2 → blockMsg b = 0 → s.reg .LN_STATUS_RUNG i ≤ blockRung b →
    (s.lane i).target ≤ min (s.lane i).top (blockTop b) → (s.lane i).doneSent < 3 →
    Yields (.ladderBlockReceive i b) s
      ((((s.setLane i { s.lane i with heard := true, partnerTop := some (blockTop b), lowSeen := 0, ready := 0 }).setReg
        .LN_STATUS_PARTNER i 1).askPrecode i (blockAsksPrecode b)).setLaneState i 4)) ∧
  (∀ (s : State) (i r : Nat), s.laneHeld i = false → s.laneState i = 5 →
    s.nextRung i (s.reg .LN_STATUS_RUNG i) (agreedTop (s.lane i)) = some r →
    Yields (.laneRungChange i) s
      ((((s.setLane i { s.lane i with ready := 0, readySent := false, stepSent := false, lowSeen := 0 }).useEntry i r).setLaneState
        i 4).setRung i r)) ∧
  (∀ (s : State) (i : Nat), s.laneState i ≠ 5 ∨ s.laneHeld i = true → Yields (.laneRungChange i) s s) ∧
  (∀ (s : State) (i : Nat) (resolved trained : Bool) (x : DmePage), (s.lane i).method = 1 → 2 ≤ s.laneState i → s.laneState i ≤ 4 → s.laneHeld i = false →
    let heard := (s.setLane i { s.lane i with heard := true }).setReg .LN_STATUS_PARTNER i 2
    let u := x.taps.foldl (fun (u : State) q => u.moveTap i q) ((heard.startTraining i).askPrecode i x.precode)
    (resolved = false → s.laneState i = 4 → Yields (.dmePageReceive i resolved trained x) s heard) ∧
    (resolved = false → s.laneState i ≠ 4 → Yields (.dmePageReceive i resolved trained x) s (heard.setLaneState i 3)) ∧
    (resolved = true → trained = true → u.laneGood i = true → Yields (.dmePageReceive i resolved trained x) s (u.laneUp i)) ∧
    (resolved = true → trained = false ∨ u.laneGood i = false → Yields (.dmePageReceive i resolved trained x) s u)) ∧
  (∀ (s : State) (i : Nat) (resolved trained : Bool) (x : DmePage),
    (s.lane i).method = 0 ∨ (s.lane i).method = 2 ∨ s.laneState i < 2 ∨ 4 < s.laneState i ∨ s.laneHeld i = true →
    Yields (.dmePageReceive i resolved trained x) s s) ∧
  (∀ (s : State) (i : Nat) (hw : Bool), 2 ≤ s.laneState i → s.laneState i ≤ 5 → s.laneHeld i = false →
    (i < 260 → s.reg .LN_STATUS_SIGNAL i = 1 → Yields (.rungTimeout i true) s ((s.setLaneState i 11).laneTrainOpen i stHWFAULT)) ∧
    (hw = false ∨ s.reg .LN_STATUS_SIGNAL i = 0 → s.laneWaited i (s.reg .LN_LADDER_RUNG_TIMEOUT) = true →
      Yields (.rungTimeout i hw) s (s.laneFail i)) ∧
    (hw = false ∨ s.reg .LN_STATUS_SIGNAL i = 0 → s.laneWaited i (s.reg .LN_LADDER_RUNG_TIMEOUT) = false →
      Yields (.rungTimeout i hw) s s)) ∧
  (∀ (s : State) (i : Nat) (w : Bool), s.laneState i < 2 ∨ 5 < s.laneState i ∨ s.laneHeld i = true → Yields (.rungTimeout i w) s s) ∧
  (∀ (s : State) (i : Nat), s.laneState i = 7 → s.laneHeld i = false →
    s.laneWaited i (backoffMs s (s.reg .LN_STATUS_ATTEMPTS i)) = true → Yields (.backoffExpiry i) s (s.laneAttempt i)) ∧
  (∀ (s : State) (i : Nat), s.laneState i ≠ 7 ∨ s.laneHeld i = true ∨
    s.laneWaited i (backoffMs s (s.reg .LN_STATUS_ATTEMPTS i)) = false → Yields (.backoffExpiry i) s s) ∧
  (∀ (s : State) (i : Nat), i < 260 → s.reg .LN_STATUS_ATTEMPTS i < (s.lane i).maxAttempts →
    Agree (s.laneFail i) ((s.setLaneState i 7).setRung i (lowRung (s.lane i)))) ∧
  (∀ (s : State) (i : Nat), i < 260 → (s.lane i).maxAttempts ≤ s.reg .LN_STATUS_ATTEMPTS i →
    (s.laneFail i).reg .LN_STATUS_STATE i = if (s.lane i).heard then 9 else 8)

/-- SPE_QUERY, SPE_RESET, SPE_PROBE, SPE_SWEEP and the audit's end. -/
def Obligations.SeamlessRowsComplete : Prop :=
  (∀ (s : State) (w : Nat), w < 2 ^ 20 →
    Yields (.speQuery w) s ((s.setReg .SPE_QUERY_PAIR 0 w).setRegs
      [(.SPE_QUERY_DONE, 0, 1), (.SPE_RESULT_RECORD, 0, (s.pairRec w).word)]) ∧
    Yields (.speReset w) s (let u := s.setReg .SPE_RESET_PAIR 0 w; { u with spe := { u.spe with resets := u.spe.resets ++ [w] } })) ∧
  (∀ (s : State) (w : Nat),
    (s.reg .SPE_PROBE_EN ≠ 1 →
      Yields (.skewProbe true w) s ({ s.setRegs [(.SPE_PROBE_EN, 0, 1), (.SPE_PROBE_PAIR, 0, w)] with
        spe := { s.spe with probe := [] } }.setRegs
          [(.SPE_SKEW_MIN_NS, 0, 0), (.SPE_SKEW_MAX_NS, 0, 0), (.SPE_SKEW_SUM_NS, 0, 0), (.SPE_SKEW_COUNT_COUNT, 0, 0)])) ∧
    (s.reg .SPE_PROBE_EN = 1 → Yields (.skewProbe true w) s (s.setRegs [(.SPE_PROBE_EN, 0, 1), (.SPE_PROBE_PAIR, 0, w)])) ∧
    Yields (.skewProbe false w) s (s.setRegs [(.SPE_PROBE_EN, 0, 0), (.SPE_PROBE_PAIR, 0, w)])) ∧
  (∀ s : State, s.clk.tickCount < s.spe.sweepAt + s.reg .SPE_SWEEP_TICKS → Yields .speSweep s s) ∧
  (∀ s : State, s.spe.sweepAt + s.reg .SPE_SWEEP_TICKS ≤ s.clk.tickCount →
    Yields .speSweep s ((s.spe.recs.map Prod.fst).foldl (fun (u : State) w => u.agePair w)
      { s with spe := { s.spe with sweepAt := s.clk.tickCount } })) ∧
  (∀ (s : State) (u : Nat) (d : List Nat), tget none s.spe.audit u = none → Yields (.auditComplete u (some d)) s s ∧
    Yields (.auditComplete u none) s s) ∧
  (∀ (s : State) (u : Nat) (a : AuditRun) (d : List Nat), u < 16 → tget none s.spe.audit u = some a →
    let next := ({ s with spe := { s.spe with audit := tdel u s.spe.audit } } : State).nextOnUnit u
    let v := (next.jobCounted u 4 (a.bytes + d.length)).chkValue u d
    (a.ready = true → a.sent = true → v = a.ingress →
      Yields (.auditComplete u (some d)) s (next.setReg .CHK_UNIT_LAST_VALUE u a.ingress)) ∧
    (a.ready = true → a.sent = true → v ≠ a.ingress →
      Yields (.auditComplete u (some d)) s ((next.setReg .CHK_UNIT_LAST_VALUE u v).setReg .SPE_AUDIT_LAST_FLOW 0 a.flow)) ∧
    (a.ready = false ∨ a.sent = false → Yields (.auditComplete u (some d)) s next) ∧
    Yields (.auditComplete u none) s next)

/-- Gates, signals, candidates, history, XO, the loop and ESMC. -/
def Obligations.ReferenceRowsComplete : Prop :=
  (∀ (s : State) (l : List GateSlot), s.xoNow < s.ref.gateAt + s.gateTime → Yields (.refGateEnd l) s s) ∧
  (∀ (s : State) (l : List GateSlot), s.ref.gateAt + s.gateTime ≤ s.xoNow → Yields (.refGateEnd l) s
    (let r : State := { s with ref := { s.ref with gateAt := max (s.ref.gateAt + s.gateTime) (s.xoNow - s.gateTime) } }
     let a := (l.filter fun g => decide (g.slot < 12) && r.refSignal g.slot).foldl (fun (u : State) g =>
        ({ u with ref := { u.ref with
          meas := tset none g.slot (some g.raw) u.ref.meas
          phase := tset 0 (16 + g.slot) g.phase1 (tset 0 g.slot g.phase0 u.ref.phase) } } : State).setReg .REF_SLOT_OFS_PPB g.slot
            (unsgn 32 (g.raw + u.xoShift))) r
     let b := a.setReg .REF_SLOT_OFS_PPB 12 (a.reg .TME_SERVO_FREQ_FREQ)
     let c := b.setReg .REF_XO_MEAS_PPB 0 (unsgn 32 (-(coarse (b.dpll 0).ctl)))
     let e := (List.range 2).foldl (fun (u : State) d =>
        if u.selected d < 12 then u.phaseShown d (tget 0 u.ref.phase (d * 16 + u.selected d) - (u.dpll d).zero) else u) c
     { e with ref := { e.ref with gate := true } })) ∧
  (∀ (s : State) (n quiet : Nat), n ≤ 12 →
    (if n < 8 then s.slotUp n = false else if n < 12 then s.inputLost n quiet = true else s.refSignal 12 = false) →
    Yields (.refSignalLoss ⟨n, quiet⟩) s ((List.range 2).foldl (fun (u : State) d =>
      let v := if u.selected d = n then u.setDpll d { u.dpll d with target := (u.dpll d).ctl } else u
      if v.cand d n = 0 then v else v.setCand d n 1 1 none)
      { s with ref := { s.ref with present := tdel n s.ref.present, meas := tdel n s.ref.meas } })) ∧
  (∀ (s : State) (n : Nat), n ≤ 12 → (if n < 8 then s.slotUp n = true else if n < 12 then True else s.refSignal 12 = true) →
    Yields (.refSignalReturn n) s ((List.range 2).foldl (fun (u : State) d =>
      if u.cand d n = 1 then
        let v := u.setCand d n 2 0 none
        { v with ref := { v.ref with qualAt := tset 0 (ckey d n) (v.clk.tickCount + 1) v.ref.qualAt } }
      else u) (if n = 12 then s else { s with ref := { s.ref with present := tset 0 n 1 s.ref.present } }))) ∧
  (∀ (s : State) (n quiet : Nat),
    (if n < 8 then s.slotUp n = true else if n < 12 then s.inputLost n quiet = false else n = 12 → s.refSignal 12 = true) →
    Yields (.refSignalLoss ⟨n, quiet⟩) s s) ∧
  (∀ (s : State) (n : Nat), 12 < n ∨ (n = 12 ∧ s.refSignal 12 = false) ∨ (n < 8 ∧ s.slotUp n = false) →
    Yields (.refSignalReturn n) s s) ∧
  (∀ (s : State) (d n : Nat) (o : Int), s.clk.cycle = 0 → d ≤ 1 → n ≤ 12 → s.cand d n = 2 → s.offset n = some o →
    o.natAbs < 256 * s.reg .REF_C_SOFT_PPB (ckey d n) →
    tget 0 s.ref.qualAt (ckey d n) + s.reg .REF_C_QUAL_TICKS (ckey d n) ≤ s.clk.tickCount →
    Yields (.candidateQualified d n) s (((s.setCand d n 3 0 none).selection d).showCand d n)) ∧
  (∀ (s : State) (d n : Nat), s.clk.cycle ≠ 0 ∨ 1 < d ∨ 12 < n ∨ s.cand d n ≠ 2 ∨ s.offset n = none ∨
    (∃ o, s.offset n = some o ∧ 256 * s.reg .REF_C_SOFT_PPB (ckey d n) ≤ o.natAbs) ∨
    s.clk.tickCount < tget 0 s.ref.qualAt (ckey d n) + s.reg .REF_C_QUAL_TICKS (ckey d n) → Yields (.candidateQualified d n) s s) ∧
  (∀ s : State, s.xoNow < (s.ref.sec + 1) * (256 * 10 ^ 21) → Yields .historySecond s s) ∧
  (∀ s : State, (s.ref.sec + 1) * (256 * 10 ^ 21) ≤ s.xoNow → Yields .historySecond s
    (let keep (k : Nat) (x : Dpll) (st : Nat) : Dpll :=
       { x with
         hist := (if x.broken then x.hist else (k, if x.n = 0 then x.ctl else x.sum / x.n) :: x.hist).filter fun e => decide (k < e.1 + 1024)
         broken := !(st == 2 || st == 3), sum := 0, n := 0 }
     let a := s.setDpll 0 (keep s.ref.sec (s.dpll 0) (s.dpllState 0))
     let b := a.setDpll 1 (keep s.ref.sec (a.dpll 1) (s.dpllState 1))
     { b with ref := { b.ref with sec := s.ref.sec + 1 } })) ∧
  (∀ s : State, (s.clk.tickCount % 1000 = 0 → s.ref.xoAt ≠ s.clk.tickCount + 1 → s.dpllState 0 = 3 → s.selected 0 < 12 → s.traceable = true →
      Yields .xoPpbUpdate s (let u := s.setReg .REF_XO_PPB 0 (unsgn 31 (-(coarse (s.dpll 0).ctl)))
        ({ u with ref := { u.ref with xoAt := s.clk.tickCount + 1 } } : State).setReg .REF_XO_TRUSTED 0
          (b2n (decide (0 < s.reg .REF_XO_TRUST_S))))) ∧
    (s.clk.tickCount % 1000 ≠ 0 ∨ s.ref.xoAt = s.clk.tickCount + 1 ∨ s.dpllState 0 ≠ 3 ∨ 12 ≤ s.selected 0 ∨ s.traceable = false → Yields .xoPpbUpdate s s)) ∧
  (∀ s : State, (s.trusted = true → s.reg .REF_XO_TRUST_S * 10 ^ 6 ≤ s.clk.tickCount + 1 - s.ref.xoAt →
      Yields .xoTrustExpiry s (s.setReg .REF_XO_TRUSTED 0 0)) ∧
    (s.trusted = false ∨ s.clk.tickCount + 1 - s.ref.xoAt < s.reg .REF_XO_TRUST_S * 10 ^ 6 → Yields .xoTrustExpiry s s)) ∧
  (∀ (s : State) (d : Nat) (phase : Int), d ≤ 1 → s.selected d < 12 →
    let u := s.phaseShown d phase
    let wait := max (10 ^ 6) (10 ^ 9 * 2 ^ 20 / max 1 (s.dpll d).bw)
    (s.dpllState d = 1 →
      (u.clk.tickCount < (u.dpll d).withinAt + 10 ^ 6 → Yields (.dpllLockDetect ⟨d, phase⟩) s u) ∧
      ((u.dpll d).withinAt + 10 ^ 6 ≤ u.clk.tickCount →
        Yields (.dpllLockDetect ⟨d, phase⟩) s ((u.setDpll d { u.dpll d with stepAt := u.clk.tickCount }).setDpllState d 2)) ∧
      ((s.dpll d).acqAt + s.reg .REF_DPLL_CFG_ACQ_LIMIT d * 10 ^ 6 ≤ s.clk.tickCount →
        Yields (.dpllAcqTimeout d) s (s.setCand d (s.selected d) 5 5 none)) ∧
      (s.clk.tickCount < (s.dpll d).acqAt + s.reg .REF_DPLL_CFG_ACQ_LIMIT d * 10 ^ 6 → Yields (.dpllAcqTimeout d) s s) ∧
      Yields (.dpllNarrowStep d) s s ∧ Yields (.dpllPhaseLoss ⟨d, phase⟩) s s) ∧
    (s.dpllState d = 2 → Yields (.dpllLockDetect ⟨d, phase⟩) s s ∧ Yields (.dpllAcqTimeout d) s s ∧
      (s.clk.tickCount < (s.dpll d).stepAt + wait → Yields (.dpllNarrowStep d) s s) ∧
      ((s.dpll d).stepAt + wait ≤ s.clk.tickCount → s.candBw d (s.selected d) < (s.dpll d).bw / 2 →
        Yields (.dpllNarrowStep d) s (s.setBw d ((s.dpll d).bw / 2))) ∧
      ((s.dpll d).stepAt + wait ≤ s.clk.tickCount → (s.dpll d).bw / 2 ≤ s.candBw d (s.selected d) →
        Yields (.dpllNarrowStep d) s ((s.setBw d (s.candBw d (s.selected d))).setDpllState d 3))) ∧
    (s.dpllState d = 3 → Yields (.dpllLockDetect ⟨d, phase⟩) s s ∧ Yields (.dpllAcqTimeout d) s s ∧ Yields (.dpllNarrowStep d) s s) ∧
    (s.dpllState d = 2 ∨ s.dpllState d = 3 →
      (10000 < phase.natAbs → Yields (.dpllPhaseLoss ⟨d, phase⟩) s (u.acquire d)) ∧
      (phase.natAbs ≤ 10000 → Yields (.dpllPhaseLoss ⟨d, phase⟩) s s))) ∧
  (∀ (s : State) (p ssm : Nat) (t : Option QlTlv), Yields (.esmcPduReceive p ssm t) s
    (((List.range 8).filter fun k => s.reg .REF_PORTSLOT_PORT k == p).foldl (fun (u : State) k =>
      let v := u.setRegs [(.REF_SLOT_QL_SSM, k, ssm), (.REF_SLOT_QL_ENH, k, (t.map QlTlv.code).getD 0), (.REF_SLOT_QL_ESMC_SEEN, k, 1)]
      let w : State := { v with ref := { v.ref with pduAt := tset 0 k (v.clk.tickCount + 1) v.ref.pduAt, tlv := tset none k t v.ref.tlv } }
      (w.setGrade k (w.esmcGrade ssm (t.map QlTlv.code))).tally 7 7 1 0 1 k 1) s)) ∧
  (∀ (s : State) (k : Nat), k < 8 → s.reg .REF_SLOT_QL_ESMC_SEEN k = 1 →
    tget 0 s.ref.pduAt k + 5 * 10 ^ 6 ≤ s.clk.tickCount + 1 →
    Yields (.esmcTimeout k) s
      (({ s with ref := { s.ref with tlv := tdel k s.ref.tlv } } : State).setReg .REF_SLOT_QL_ESMC_SEEN k 0 |>.setGrade k 15)) ∧
  (∀ (s : State) (k : Nat), 8 ≤ k ∨ s.reg .REF_SLOT_QL_ESMC_SEEN k ≠ 1 ∨ s.clk.tickCount + 1 < tget 0 s.ref.pduAt k + 5 * 10 ^ 6 →
    Yields (.esmcTimeout k) s s) ∧
  (∀ s : State,
    (s.reg .REF_ESMC_EN = 1 → s.ref.infoAt = 0 ∨ s.ref.infoAt + 10 ^ 6 ≤ s.clk.tickCount + 1 →
      Yields .esmcInfoSend s (State.esmcSend { s with ref := { s.ref with infoAt := s.clk.tickCount + 1 } } false)) ∧
    (s.reg .REF_ESMC_EN ≠ 1 ∨ (s.ref.infoAt ≠ 0 ∧ s.clk.tickCount + 1 < s.ref.infoAt + 10 ^ 6) → Yields .esmcInfoSend s s) ∧
    (s.ref.sent ≠ some s.advertised → Yields .esmcEventSend s (s.esmcSend true)) ∧
    (s.ref.sent = some s.advertised → Yields .esmcEventSend s s))

/-- Bypass, divider loads, moves and claim gates. -/
def Obligations.OutputRowsComplete : Prop :=
  (∀ (s : State) (mask : Nat), (∀ n, n < 16 → bit mask n = true → s.outState n = 0 ∨ s.outState n = 3) →
    ∀ line, Yields (.synthLockLoss mask line) s s) ∧
  (∀ (s : State) (mask n : Nat) (line : Bool), n < 16 → bit mask n = true → s.outState n ≠ 0 → s.outState n ≠ 3 →
    (∀ k, k < 16 → k ≠ n → bit mask k = false) →
    Yields (.synthLockLoss mask line) s
      (let u := (s.setPin n { s.outPin n with
         want := (s.outPin n).want || s.outState n == 2, slewing := false, ready := false, load := none
         cause := if line then 2 else 1, since := s.clk.tickCount }).setOutState n 3
       if line then u.setLine n false else u)) ∧
  (∀ (s : State) (mask : Nat) (line : Bool), Yields (.synthLockLoss mask line) s
    (((List.range 16).filter fun n => bit mask n && s.outState n != 0 && s.outState n != 3).foldl (fun (u : State) n =>
      let v := (u.setPin n { u.outPin n with
        want := (u.outPin n).want || u.outState n == 2, slewing := false, ready := false, load := none
        cause := if line then 2 else 1, since := u.clk.tickCount }).setOutState n 3
      ((if line then v.setLine n false else v).evT 192
        [(1, outBit n, .or), (1, if line then 2 else 1, .keep), (1, 1, .keep)]).tally 8 3 1 0 0 n 1) s)) ∧
  (∀ (s : State) (n : Nat), n < 16 → s.outState n = 3 →
    (s.outPin n).want = true ∨ 8 ≤ n ∨ s.reg .OUT_CLK_CFG_AUTO_RET n = 1 →
    (s.outPin n).since + 1000 * s.reg .OUT_CFG_RET_MS ≤ s.clk.tickCount →
    Yields (.bypassReturn n) s
      (let per := if n < 8 then s.outPeriod n else 0
       let u := (s.setPin n { s.outPin n with per := per, ofs := nearRaster per (Config.freePhase s.freeCtr), divChange := false }).fresh
       let v := ((u.setOutState n 1).setLine n true).showOfs n
       let w := if n < 8 then v.setReg .OUT_CLK_STATUS_NEED_ALIGN n 1 else v
       if (s.outPin n).want then (w.evT 192 [(1, outBit n, .or), (1, (s.outPin n).cause, .keep), (1, 2, .keep)]).alignStart n false else w)) ∧
  (∀ (s : State) (n : Nat), 16 ≤ n ∨ s.outState n ≠ 3 ∨ ((s.outPin n).want = false ∧ n < 8 ∧ s.reg .OUT_CLK_CFG_AUTO_RET n ≠ 1) ∨
      s.clk.tickCount < (s.outPin n).since + 1000 * s.reg .OUT_CFG_RET_MS →
    Yields (.bypassReturn n) s s) ∧
  (∀ s : State, Yields .outDivLoad s
    (((List.range 8).filter fun n => match (s.outPin n).load with | some t => decide (t ≤ s.clk.tickCount ∧ s.clk.cycle = 0) | none => false).foldl
      (fun (u : State) n =>
        let x := u.outPin n
        ((u.setPin n { x with
          ofs := 0, phase := u.sreg .OUT_CLK_PHASE_PS n, per := u.outPeriod n, load := none, divChange := false
          ready := u.outState n == 2
          move := -(toPs (nearRaster x.per (x.phase * outUnit - u.sreg .OUT_CLK_PHASE_PS n * outUnit + x.ofs))) }).showOfs n).outWave n) s)) ∧
  (∀ (s : State) (n r : Nat), n < 16 → s.outState n = 2 → (s.outPin n).ready = true →
    Yields (.alignMoveDone n r) s ((s.setOutState n 1).setPin n { s.outPin n with
      slewing := false, ready := false, meas := some (s.clk.tickCount + 2, r % 65536) })) ∧
  (∀ (s : State) (n r : Nat), 16 ≤ n ∨ s.outState n ≠ 2 ∨ (s.outPin n).ready = false → Yields (.alignMoveDone n r) s s) ∧
  (∀ (s : State) (n : Nat) (v : Bool), n < 16 → s.shared n = true → s.claimGate n ≠ v → s.gateWanted n = v →
    Yields (.outGateChange n v) s
      (let u := (s.setClaimGate n v).emit (.pin 1 n (b2n v))
       u.setPin n { u.outPin n with opened := if v then u.grains + 1 else 0 })) ∧
  (∀ (s : State) (n : Nat) (v : Bool), 16 ≤ n ∨ s.shared n = false ∨ s.claimGate n = v ∨ s.gateWanted n ≠ v →
    Yields (.outGateChange n v) s s)

/-- CAL_CHECK, AVS_DEVIATION and SUBSYSTEM_WAKE. -/
def Obligations.PowerRowsComplete : Prop :=
  (∀ (s : State) (found : List LaneCal) (resid : List (Nat × Nat)),
    s.clk.cycle ≠ 0 ∨ s.clk.tickCount % 1000 ≠ 0 ∨ s.sys.calAt = s.clk.tickCount + 1 ∨ s.startState ≠ 3 → Yields (.calCheck found resid) s s) ∧
  (∀ (s : State) (found : List LaneCal) (resid : List (Nat × Nat)),
    s.clk.cycle = 0 → s.clk.tickCount % 1000 = 0 → s.sys.calAt ≠ s.clk.tickCount + 1 → s.startState = 3 →
    let done : State := { s with sys := { s.sys with calAt := s.clk.tickCount + 1 } }
    (s.reg .SYS_CAL_EN ≠ 1 → Yields (.calCheck found resid) s done) ∧
    (s.reg .SYS_CAL_EN = 1 → Yields (.calCheck found resid) s
      (let a := (done.calLanes found).calSeif
       let b := if a.calMoved 2 0 then (if a.itmCal then a else a.itmCalRequest 3).stillDue 2 6 [0] else a
       ((List.range 16).filter fun k => b.calMoved 3 k).foldl (fun (u : State) k =>
         u.outCal k (u.temp 8) (((resid.find? fun x => x.1 == k).map Prod.snd).getD 0)) b))) ∧
  (∀ (s : State) (mv us : Nat), us < 1000 ∨ (mv ≤ s.reg .SYS_AVS_TARGET_MV + 15 ∧ s.reg .SYS_AVS_TARGET_MV ≤ mv + 15) →
    Yields (.avsDeviation ⟨mv, us⟩) s s) ∧
  (∀ (s : State) (mv us : Nat), 1000 ≤ us → s.reg .SYS_AVS_TARGET_MV + 15 < mv ∨ mv + 15 < s.reg .SYS_AVS_TARGET_MV →
    Yields (.avsDeviation ⟨mv, us⟩) s s.fresh.fresh.fresh) ∧
  (∀ (s : State) (u : Nat), u ≤ 18 → u ≠ 10 → u ≠ 12 → s.subFloor u = none → Yields (.subsystemWake u false) s (s.setSub u 0)) ∧
  (∀ (s : State) (u : Nat), u ≤ 18 → Yields (.subsystemWake u true) s (s.setSub u 0)) ∧
  (∀ (s : State) (u : Nat), 18 < u ∨ u = 10 ∨ u = 12 ∨ s.subFloor u ≠ none → Yields (.subsystemWake u false) s s)

/-- Claims, heartbeats, epochs, handovers and the driver watch. -/
def Obligations.PairRowsComplete : Prop :=
  (∀ (s : State) (sync claim tail : Nat),
    let frame := sync * 2 ^ 24 + claim * 2 ^ 16 + tail
    let c := frame / 2 ^ 16 % 256
    let a := frame / 2 ^ 8 % 256
    (frame ≠ claimFrame c a → Yields (.claimFrameReceive sync claim tail) s s) ∧
    (frame = claimFrame c a → s.pair.alive = a + 1 → Yields (.claimFrameReceive sync claim tail) s s) ∧
    (frame = claimFrame c a → s.pair.alive ≠ a + 1 → Yields (.claimFrameReceive sync claim tail) s
      (((({ s with pair := { s.pair with alive := a + 1 } } : State).tally 9 2 1 0 0 0 1).tally 9 2 3 0 0 0
        (if s.pair.alive = 0 then 0 else (a + 256 - s.pair.alive) % 256)).claimIn 0 c))) ∧
  (∀ (s : State) (src : Nat), s.clk.cycle ≠ 0 ∨ 1 < src ∨ tget 0 s.pair.claim src = 0 ∨ tget 0 s.pair.missed src < 4 →
    Yields (.claimSourceExpiry src) s s) ∧
  (∀ (s : State) (src : Nat), s.clk.cycle = 0 → src ≤ 1 → tget 0 s.pair.claim src ≠ 0 → 4 ≤ tget 0 s.pair.missed src →
    let gone : State := { s with pair := { s.pair with
      claim := tdel src s.pair.claim, missed := tdel src s.pair.missed, differ := 0, told := false } }
    let u := if src = 0 then gone.setReg .PAIR_PATHS_CLAIM_RX 0 0 else gone
    (tget 0 s.pair.claim (1 - src) = 0 → Yields (.claimSourceExpiry src) s u.claimLost) ∧
    (tget 0 s.pair.claim (1 - src) ≠ 0 → s.reg .PAIR_STATUS_PEER_SRC = src + 1 →
      Yields (.claimSourceExpiry src) s (u.setPeer (tget 0 s.pair.claim (1 - src) - 1) (2 - src))) ∧
    (tget 0 s.pair.claim (1 - src) ≠ 0 → s.reg .PAIR_STATUS_PEER_SRC ≠ src + 1 → Yields (.claimSourceExpiry src) s u)) ∧
  (∀ s : State, s.clk.cycle ≠ 0 ∨ s.pair.differ ≤ 2 ∨ s.pair.told = true → Yields .claimMismatch s s) ∧
  (∀ s : State, s.clk.cycle = 0 → 2 < s.pair.differ → s.pair.told = false → Yields .claimMismatch s
    (({ s with pair := { s.pair with told := true } } : State).setPeer (tget 0 s.pair.claim 0 - 1) 1)) ∧
  (∀ s : State, s.clk.cycle ≠ 0 ∨ s.clk.tick % 64 ≠ 0 ∨ s.pair.hbDone = s.clk.tickCount + 1 ∨ s.pairState = 0 ∨ s.pairState = 5 →
    Yields .heartbeatBoundary s s) ∧
  (∀ s : State, s.clk.cycle = 0 → s.clk.tick % 64 = 0 → s.pair.hbDone ≠ s.clk.tickCount + 1 → s.pairState ≠ 0 → s.pairState ≠ 5 →
    Yields .heartbeatBoundary s
      (let a : State := { s with pair := { s.pair with hbDone := s.clk.tickCount + 1 } }
       let h := a.sampleHealth
       let b := a.setReg .PAIR_HEALTH_OWN 0 h
       let c := b.publishHealth h
       let d := if b.pairState == 1 then c.decideRole else c.healthHandover h
       let e := (d.mywynSend 2 0 d.heartbeat true).tally 9 1 1 0 0 1 1
       let f := if e.mywynUp then e.tally 9 1 1 0 0 0 1 else e
       let g := (f.judgePath 0).judgePath 1
       if b.pairState == 1 then (if g.pairState = 3 then g.degraded else g) else g.verdict)) ∧
  (∀ s : State, s.clk.cycle = 0 → s.pairState = 1 → s.reg .PAIR_STATUS_PEER_SRC = 0 → max 1 (s.reg .PAIR_CFG_JOIN_WAIT) ≤ s.pair.joined →
    Yields .joinWaitExpiry s ((s.setReg .PAIR_STATUS_STATE 0 4).setRole true 1)) ∧
  (∀ s : State, s.clk.cycle ≠ 0 ∨ s.pairState ≠ 1 ∨ s.reg .PAIR_STATUS_PEER_SRC ≠ 0 ∨ s.pair.joined < max 1 (s.reg .PAIR_CFG_JOIN_WAIT) →
    Yields .joinWaitExpiry s s) ∧
  (∀ (s : State) (m : MyMsg) (check alive : Nat),
    Yields (.heartbeatFrameReceive m check alive) s
      (s.queueJob (s.reg .PAIR_CFG_CHK_RX) 2 0 (.receive 2 m check (alive % 256) s.wrapNs)) ∧
    (∀ k, k < 2 → s.reg (myFlag k) = 1 → Yields (.mywynMessageReceive k m check alive) s
      (s.queueJob (s.reg .PAIR_CFG_CHK_RX) 2 (k * 8 + m.ty % 8) (.receive k m check (alive % 256) s.wrapNs))) ∧
    (∀ k, 1 < k ∨ s.reg (myFlag k) ≠ 1 → Yields (.mywynMessageReceive k m check alive) s s)) ∧
  (∀ (s : State) (k : Nat), 1 < k ∨ s.reg (myFlag k) ≠ 1 → Yields (.markerAlignmentLoss k) s s) ∧
  (∀ (s : State) (k : Nat), k < 2 → s.reg (myFlag k) = 1 →
    Yields (.markerAlignmentLoss k) s
      (let u := (({ s with pair := { s.pair with
         slips := tdel k s.pair.slips, slipAt := tset 0 k (s.clk.tickCount + 1) s.pair.slipAt } } : State).setReg (myFlag k) 0 0).e209 k
       if u.mywynUp then u else (u.dropEpoch 1).abortHandover.mbxPathDown)) ∧
  (∀ s : State, s.clk.cycle ≠ 0 ∨ s.clk.tick % 1024 ≠ 0 ∨ s.pair.epochDone = s.clk.tickCount + 1 → Yields .epochBoundary s s) ∧
  (∀ s : State, s.clk.cycle = 0 → s.clk.tick % 1024 = 0 → s.pair.epochDone ≠ s.clk.tickCount + 1 →
    let u : State := { s with pair := { s.pair with epochDone := s.clk.tickCount + 1 } }
    (s.active = true → s.pairState = 2 ∨ s.pairState = 3 → s.mywynUp = true → Yields .epochBoundary s (u.startEpoch false none)) ∧
    (s.active = false ∨ (s.pairState ≠ 2 ∧ s.pairState ≠ 3) ∨ s.mywynUp = false → Yields .epochBoundary s u)) ∧
  (∀ s : State, (∀ e, s.clk.cycle = 0 → s.pair.ready = some e → s.active = false → s.reg .SYS_COMMIT_STATUS_PENDING ≠ 1 →
      Yields .epochApply s (s.applyEpoch e)) ∧
    (s.clk.cycle ≠ 0 ∨ s.pair.ready = none ∨ s.active = true ∨ s.reg .SYS_COMMIT_STATUS_PENDING = 1 → Yields .epochApply s s)) ∧
  (∀ s : State, Yields .epochDiscard s (s.dropEpoch (if !s.mywynUp then 1 else if s.reg .PAIR_STATUS_PEER_SRC = 0 then 2 else 4))) ∧
  (∀ s : State, s.pair.handover = none → Yields .handoverInstant s s) ∧
  (∀ (s : State) (h : Handover), s.pair.handover = some h →
    (s.clk.cycle ≠ 0 ∨ s.clk.tick < h.th → Yields .handoverInstant s s) ∧
    (s.clk.cycle = 0 → h.th ≤ s.clk.tick → h.acked = true → s.mywynUp = true → s.tme.steps = h.steps → s.pair.peerSteps = h.peer →
      Yields .handoverInstant s
        (let u := (s.pair.ending.map fun e => s.e206 3 e.1 e.2).getD s
         ({ u with pair := { u.pair with handover := none, ending := some (h.th, h.d) } } : State).setRole (!h.active) 2)) ∧
    (s.clk.cycle = 0 → h.th ≤ s.clk.tick → h.acked = false ∨ s.mywynUp = false ∨ s.tme.steps ≠ h.steps ∨ s.pair.peerSteps ≠ h.peer →
      Yields .handoverInstant s s.abortHandover)) ∧
  (∀ s : State, s.clk.cycle ≠ 0 ∨ s.pair.ending = none ∨ s.gatesPending = true → Yields .handoverEnd s s) ∧
  (∀ (s : State) (e : Nat × Nat), s.clk.cycle = 0 → s.pair.ending = some e → s.gatesPending = false →
    Yields .handoverEnd s ((({ s with pair := { s.pair with ending := none } } : State).e206 1 e.1 e.2).endSwaps
      (fun t => t != (s.pair.handover.map Handover.th).getD 0) stOK)) ∧
  (∀ (s : State) (n : Nat), n < 16 → s.shared n = true → s.claimGate n = true → s.outState n ≠ 0 →
    (s.outPin n).opened ≠ 0 → s.watchEnd n ((s.outPin n).opened - 1) ≤ s.grains →
    Yields (.driverWatch n) s ((s.setPin n { s.outPin n with opened := 0 }).hwSet
      (if n < 8 then .PAIR_HEALTH_DRV_CLK else .PAIR_HEALTH_DRV_TIO) 0 (outBit n))) ∧
  (∀ (s : State) (n : Nat), 16 ≤ n ∨ s.shared n = false ∨ s.claimGate n = false ∨ s.outState n = 0 ∨
    (s.outPin n).opened = 0 ∨ s.grains < s.watchEnd n ((s.outPin n).opened - 1) → Yields (.driverWatch n) s s)

/-- R189, both ways: what breaks the rule is refused, and what keeps it (and every other rule) is not. -/
def Obligations.MisalignedPortSetIsBadField : Prop :=
  (∀ p w i : Nat, p < 256 → (i ∈ portLanes p w ↔ p ≤ i ∧ i < p + w)) ∧
  (∀ (s : State) (h : Hdr) (port width rate fec flags mask : Nat),
    let sp := specPortSet h port width rate fec flags mask
    s.fetchable h.fn h.sq = true → s.cqUsable h.fn h.cq = true → tget 0 s.hst.fetched h.fn < fetchBudget →
    (s.fetched h sp).execWindow = true → (s.fetched h sp).hst.waiting.any (fun w => sameRing w h.fn h.sq) = false →
    (h.fence = true → (s.fetched h sp).ringBusy h.fn h.sq s.hst.nextId = false) →
    (s.fetched h sp).mayIssue h.fn 0x20 = true → validPassed ((s.fetched h sp).wrapNs) h.validNs = false →
    h.rsvd = false → h.hold = false → (s.fetched h sp).reg .SYS_STATUS_PLAYA ≠ 1 →
    port ≤ 255 → (width = 1 ∨ width = 2 ∨ width = 4 ∨ width = 8) → rate ≤ 7 → fec ≤ 2 → flags ≤ 7 → mask ≤ 255 →
    ((((s.fetched h sp).portJudged port).admin = true ∧ (width ≠ ((s.fetched h sp).portJudged port).width ∨
        rate ≠ ((s.fetched h sp).portJudged port).rate ∨ fec ≠ ((s.fetched h sp).portJudged port).fec)) →
      Yields (.portSet h port width rate fec flags mask) s ((s.fetched h sp).complete s.hst.nextId stFROZEN [])) ∧
    (port % width ≠ 0 → ¬(((s.fetched h sp).portJudged port).admin = true ∧ (width ≠ ((s.fetched h sp).portJudged port).width ∨
        rate ≠ ((s.fetched h sp).portJudged port).rate ∨ fec ≠ ((s.fetched h sp).portJudged port).fec)) →
      Yields (.portSet h port width rate fec flags mask) s ((s.fetched h sp).complete s.hst.nextId stBADFIELD [])) ∧
    (port % width = 0 → ((s.fetched h sp).portJudged port).absorbed = false → (modeRung rate width fec).isSome = true →
      ((s.fetched h sp).portJudged port).admin = false →
      (∀ q ∈ portLanes port width, ((s.fetched h sp).portJudged q).admin = false) → Starts s h sp))

/-- R436: the order of candidates as an explicit lexicographic comparison, and what selection does with its first.
The cause handed on (1, a loss) is the model's code for E176, log entry 22. -/
def Obligations.SelectionTakesFirstInOrder : Prop :=
  (∀ (s : State) (d n : Nat), s.selected d ≤ 12 → s.eligible d (s.selected d) = false → n ≤ 12 → s.eligible d n = true →
    (∀ m, m ≤ 12 → s.eligible d m = true → m ≠ n →
      (s.qlMode = true ∧ s.gradeOf d n < s.gradeOf d m) ∨
      ((s.qlMode = true → s.gradeOf d n = s.gradeOf d m) ∧ s.rank d n < s.rank d m) ∨
      ((s.qlMode = true → s.gradeOf d n = s.gradeOf d m) ∧ s.rank d n = s.rank d m ∧ n < m)) →
    s.selection d = s.select d n 1) ∧
  (∀ (s : State) (d : Nat), s.selected d ≤ 12 → (∀ m, m ≤ 12 → s.eligible d m = false) → s.selection d = s.holdover d)

/-- R437. The cause handed on (2, a reversion) is the model's code for E176, log entry 22. -/
def Obligations.SwitchOnlyToBetterRevertive : Prop :=
  ∀ (s : State) (d : Nat), s.selected d ≤ 12 → s.eligible d (s.selected d) = true →
    let cur := s.selected d
    let beats (n : Nat) : Prop := n ≤ 12 ∧ s.eligible d n = true ∧ s.reg .REF_C_CTRL_REVERT (ckey d n) = 1 ∧
      ((s.qlMode = true ∧ s.gradeOf d n < s.gradeOf d cur) ∨
        ((s.qlMode = true → s.gradeOf d n = s.gradeOf d cur) ∧ s.rank d n < s.rank d cur))
    ((∀ n, ¬ beats n) → s.selection d = s) ∧
    ((∃ n, beats n) → ∃ n, beats n ∧ s.selection d = s.select d n 2)

/-- R527: what a receiver's read answers, and what it does to FULL and to the words. -/
def Obligations.ReceiverReadsInAnyOrder : Prop :=
  ∀ (s : State) (who n w : Nat), n < 32 → w < 16 → s.reg .MBX_CH_BIND_VALID n = 1 → s.reg .MBX_CH_BIND_RECEIVER n = who →
    s.reg .PAIR_CFG_CHK_TX < 16 →
    let answer := Out.readValue who (0x200140 + 0x80 * n + 4 * w) (s.reg .MBX_CH_DATA_WORD (n * 16 + w))
    (∃ t, exec (.messageRead who n w) s = .next t ∧ answer ∈ t.out ∧
      (∀ v, v < 16 → t.reg .MBX_CH_DATA_WORD (n * 16 + v) = s.reg .MBX_CH_DATA_WORD (n * 16 + v)) ∧
      t.reg .MBX_CH_STATUS_FULL n = if w = 15 ∧ s.reg .MBX_CH_STATUS_FULL n = 1 then 0 else s.reg .MBX_CH_STATUS_FULL n) ∧
    (s.reg .MBX_CH_STATUS_FULL n = 0 → Yields (.messageRead who n w) s (s.emit answer))

/-- R537. -/
def Obligations.LowestLockPortWins : Prop :=
  lockPorts = [16, 17, 18, 19, 0, 21, 22] ∧
  ∀ (s : State) (who : List Nat) (k p w : Nat), k < 64 → s.lockHolder k = none → lockPorts[p]? = some w → w ∈ who →
    (∀ q v, q < p → lockPorts[q]? = some v → v ∉ who) →
    ∃ t, exec (.lockAcquire who k) s = .next t ∧ t.reg .MBX_LOCK_HELD k = 1 ∧ t.reg .MBX_LOCK_OWNER k = w ∧
      Out.readValue w (lockAddr k) (2 ^ 31 + s.reg .MBX_LOCK_ABANDONED k * 2 ^ 30 + 2 ^ 29 + w * 2 ^ 24) ∈ t.out ∧
      ∀ v, v ∈ lockPorts → v ∈ who → v ≠ w → Out.readValue v (lockAddr k) (2 ^ 29 + w * 2 ^ 24) ∈ t.out

/-- No command stops the block: exec answers a next state for every command in every state. -/
def Obligations.EveryCommandIsAnswered : Prop :=
  ∀ (i : Instr) (s : State), ∃ t, exec i s = .next t ∧ t.pending = s.pending

/-- R8, in both orders, and the clearing without a set. -/
def Obligations.SetWinsOverClear : Prop :=
  ∀ (s : State) (f : Fld) (i v w m a k : Nat), f.desc.kind = .clear1 ∨ f.desc.kind = .sticky → k < f.width →
    (v.testBit k = true →
      (((s.hwSet f i v).storeField f i w m a).reg f i).testBit k = true ∧
      (((s.storeField f i w m a).hwSet f i v).reg f i).testBit k = true) ∧
    (s.hw.at_ ≠ s.coreCycle + 1 → s.absorbedReg f i = false → bits m f.desc.hi f.desc.lo ≠ 0 →
      ((s.storeField f i w m a).reg f i).testBit k =
        ((s.reg f i).testBit k && !(bits w f.desc.hi f.desc.lo &&& bits m f.desc.hi f.desc.lo).testBit k))

/-- R155: the Gray code and the 1/(1+D) mod 4 precoder, and that the receiver undoes both. -/
def Obligations.PamLevelsRoundTrip : Prop :=
  (grayLevel false false = 0 ∧ grayLevel false true = 1 ∧ grayLevel true true = 2 ∧ grayLevel true false = 3) ∧
  (∀ (a b : Bool) (t : List Bool), pamLevels (a :: b :: t) = grayLevel a b :: pamLevels t) ∧
  (∀ (p g : Nat) (t : List Nat), ∃ q : Nat, (q : Int) = ((g : Int) - p) % 4 ∧ precode p (g :: t) = q :: precode q t) ∧
  (∀ (p q : Nat) (t : List Nat), unprecode p (q :: t) = (q + p) % 4 :: unprecode q t) ∧
  (∀ (p : Nat) (l : List Nat), (∀ g ∈ l, g < 4) → unprecode p (precode p l) = l) ∧
  (∀ l : List Bool, l.length % 2 = 0 → ((pamLevels l).map grayBits).flatten = l)

/-- The high time of an odd divider, and the boundary scan. -/
def Obligations.OddDividerAndScanChain : Prop :=
  (∀ (s : State) (n : Nat), s.reg .OUT_CLK_CFG_MODE n ≠ 1 →
    let syn := synPeriod (s.reg .OUT_CLK_CFG_SRC n) (s.reg .OUT_SYN1_FREQ)
    s.outPeriod n = syn * s.reg .OUT_CLK_CFG_DIV n ∧ s.outHigh n = syn * (s.reg .OUT_CLK_CFG_DIV n / 2) ∧
    (s.reg .OUT_CLK_CFG_DIV n = 9 → 9 * s.outHigh n = 4 * s.outPeriod n)) ∧
  (∀ s : State, (s.reg .SYS_REV_MAJOR = 1 → s.idcode = 0x15120A73) ∧
    s.idcode / 2 ^ 28 = s.reg .SYS_REV_MAJOR % 16 ∧ s.idcode % 2 ^ 28 = 0x5120A73 ∧
    Yields .jtagTapReset s ((s.abandon 22).emit (.idcode s.idcode))) ∧
  (∀ g : BallGroup, scanStandard g = match g with
    | .lvcmos | .refin | .claim | .clkout => some 1491
    | .lane | .mgmtLane | .mywynLane | .pcie => some 1496
    | .xtal | .supply | .hbm => none)
end

