-- ==== Sys2Proof/Laws/Table.lean ====
section
/-!
SUPPORT. Sparse tables: what a read finds after a write, and that every write keeps the canonical form.
-/
namespace Sys2Proof
namespace Machine

theorem tget_tins_self {α : Type} (d v : α) (k : Nat) (t : Tab α) : tget d (tins k v t) k = v := by
  induction t with
  | nil => simp [tins, tget]
  | cons p t ih =>
    obtain ⟨j, w⟩ := p
    simp only [tins]
    split
    · simp [tget]
    · split
      · simp [tget]
      · next h => simp [tget, h, ih]

theorem tget_tins_ne {α : Type} (d v : α) {k j : Nat} (h : j ≠ k) (t : Tab α) : tget d (tins k v t) j = tget d t j := by
  induction t with
  | nil => simp [tins, tget, h.symm]
  | cons p t ih =>
    obtain ⟨i, w⟩ := p
    simp only [tins]
    split
    · simp [tget, h.symm]
    · split
      · next h' => subst h'; simp [tget, h.symm]
      · simp only [tget, ih]

theorem tget_tdel_self {α : Type} (d : α) (k : Nat) (t : Tab α) : tget d (tdel k t) k = d := by
  induction t with
  | nil => rfl
  | cons p t ih =>
    obtain ⟨j, w⟩ := p
    by_cases h : j = k
    · simpa [tdel, h] using ih
    · simpa [tdel, tget, h] using ih

theorem tget_tdel_ne {α : Type} (d : α) {k j : Nat} (h : j ≠ k) (t : Tab α) : tget d (tdel k t) j = tget d t j := by
  induction t with
  | nil => rfl
  | cons p t ih =>
    obtain ⟨i, w⟩ := p
    by_cases hk : i = k
    · subst hk; simpa [tdel, tget, h.symm] using ih
    · have e : tdel k ((i, w) :: t) = (i, w) :: tdel k t := by simp [tdel, hk]
      simp only [e, tget, ih]

/-- A read of the key just written gives the value. -/
@[simp] theorem tget_tset_self {α : Type} [DecidableEq α] (d v : α) (k : Nat) (t : Tab α) : tget d (tset d k v t) k = v := by
  unfold tset; split
  · next h => rw [h]; exact tget_tdel_self d k t
  · exact tget_tins_self d v k t

/-- A write leaves every other key alone. -/
theorem tget_tset_ne {α : Type} [DecidableEq α] (d e v : α) {k j : Nat} (h : j ≠ k) (t : Tab α) :
    tget d (tset e k v t) j = tget d t j := by
  unfold tset; split
  · exact tget_tdel_ne d h t
  · exact tget_tins_ne d v h t

@[simp] theorem tget_tupd_self {α : Type} [DecidableEq α] (d : α) (k : Nat) (f : α → α) (t : Tab α) :
    tget d (tupd d k f t) k = f (tget d t k) := tget_tset_self _ _ _ _

theorem tget_tupd_ne {α : Type} [DecidableEq α] (d : α) (f : α → α) {k j : Nat} (h : j ≠ k) (t : Tab α) :
    tget d (tupd d k f t) j = tget d t j := tget_tset_ne _ _ _ h _

/-! ### The canonical form -/

/-- Keys rise strictly, said by `List.Pairwise`. -/
theorem tsorted_iff {α : Type} (t : Tab α) : tsorted t = true ↔ t.Pairwise fun a b => a.1 < b.1 := by
  induction t with
  | nil => simp [tsorted]
  | cons p t ih =>
    cases t with
    | nil => simp [tsorted]
    | cons q t =>
      obtain ⟨j, v⟩ := p
      obtain ⟨k, w⟩ := q
      simp only [tsorted, Bool.and_eq_true, decide_eq_true_eq, ih]
      constructor
      · rintro ⟨h1, h2⟩
        refine List.Pairwise.cons ?_ h2
        intro a ha
        rcases List.mem_cons.1 ha with rfl | ha
        · exact h1
        · exact Nat.lt_trans h1 (List.rel_of_pairwise_cons h2 ha)
      · intro h
        exact ⟨List.rel_of_pairwise_cons h (List.mem_cons_self ..), h.of_cons⟩

theorem mem_tins {α : Type} {k : Nat} {v : α} {t : Tab α} {p : Nat × α} (h : p ∈ tins k v t) : p = (k, v) ∨ p ∈ t := by
  induction t with
  | nil => simpa [tins] using h
  | cons q t ih =>
    obtain ⟨j, w⟩ := q
    simp only [tins] at h
    split at h
    · exact (List.mem_cons.1 h).imp_right id
    · split at h
      · exact (List.mem_cons.1 h).imp_right (List.mem_cons_of_mem _)
      · rcases List.mem_cons.1 h with rfl | h
        · exact .inr (List.mem_cons_self ..)
        · exact (ih h).imp_right (List.mem_cons_of_mem _)

theorem pairwise_tins {α : Type} (k : Nat) (v : α) {t : Tab α} (h : t.Pairwise fun a b => a.1 < b.1) :
    (tins k v t).Pairwise fun a b => a.1 < b.1 := by
  induction t with
  | nil => simp [tins]
  | cons q t ih =>
    obtain ⟨j, w⟩ := q
    have ht := h.of_cons
    have hj : ∀ a ∈ t, j < a.1 := fun a ha => List.rel_of_pairwise_cons h ha
    simp only [tins]
    split
    · next hk =>
      refine List.Pairwise.cons ?_ h
      intro a ha
      rcases List.mem_cons.1 ha with rfl | ha
      · exact hk
      · exact Nat.lt_trans hk (hj a ha)
    · split
      · next hk => subst hk; exact List.Pairwise.cons hj ht
      · next h1 h2 =>
        refine List.Pairwise.cons ?_ (ih ht)
        intro a ha
        rcases mem_tins ha with rfl | ha
        · exact Nat.lt_of_le_of_ne (Nat.le_of_not_lt h1) h2
        · exact hj a ha

/-- A write keeps the canonical form: keys rise strictly, and no listed value is what an unlisted key reads as. -/
theorem twf_tset {α : Type} [DecidableEq α] (d v : α) (k : Nat) {t : Tab α} (h : twf d t = true) : twf d (tset d k v t) = true := by
  simp only [twf, Bool.and_eq_true, tsorted_iff, List.all_eq_true, decide_eq_true_eq] at h ⊢
  unfold tset; split
  · exact ⟨h.1.filter _, fun p hp => h.2 p (List.mem_filter.1 hp).1⟩
  · next hv =>
    refine ⟨pairwise_tins k v h.1, fun p hp => ?_⟩
    rcases mem_tins hp with rfl | hp
    · exact hv
    · exact h.2 p hp

end Machine
end Sys2Proof
end

