-- ==== Sys2Proof/Laws/State.lean ====
section
/-!
SUPPORT. One lemma per field and per update of the state that is a single record update: the fields it leaves alone.
-/
namespace Sys2Proof
namespace Machine

@[simp] theorem State.setReg_pending (s : State) (f : Fld) (i v : Nat) : (s.setReg f i v).pending = s.pending := rfl
@[simp] theorem State.setReg_hw (s : State) (f : Fld) (i v : Nat) : (s.setReg f i v).hw = s.hw := rfl
@[simp] theorem State.setReg_guards (s : State) (f : Fld) (i v : Nat) : (s.setReg f i v).guards = s.guards := rfl
@[simp] theorem State.setReg_clk (s : State) (f : Fld) (i v : Nat) : (s.setReg f i v).clk = s.clk := rfl
@[simp] theorem State.setReg_pend (s : State) (f : Fld) (i v : Nat) : (s.setReg f i v).pend = s.pend := rfl
@[simp] theorem State.setReg_hiLatch (s : State) (f : Fld) (i v : Nat) : (s.setReg f i v).hiLatch = s.hiLatch := rfl
@[simp] theorem State.setReg_loHold (s : State) (f : Fld) (i v : Nat) : (s.setReg f i v).loHold = s.loHold := rfl
@[simp] theorem State.setReg_out (s : State) (f : Fld) (i v : Nat) : (s.setReg f i v).out = s.out := rfl
@[simp] theorem State.setReg_freeCtr (s : State) (f : Fld) (i v : Nat) : (s.setReg f i v).freeCtr = s.freeCtr := rfl
@[simp] theorem State.setReg_evAcc (s : State) (f : Fld) (i v : Nat) : (s.setReg f i v).evAcc = s.evAcc := rfl
@[simp] theorem State.setReg_store (s : State) (f : Fld) (i v : Nat) : (s.setReg f i v).store = s.store := rfl
@[simp] theorem State.setReg_sys (s : State) (f : Fld) (i v : Nat) : (s.setReg f i v).sys = s.sys := rfl
@[simp] theorem State.setReg_hst (s : State) (f : Fld) (i v : Nat) : (s.setReg f i v).hst = s.hst := rfl
@[simp] theorem State.setReg_ln (s : State) (f : Fld) (i v : Nat) : (s.setReg f i v).ln = s.ln := rfl
@[simp] theorem State.setReg_prt (s : State) (f : Fld) (i v : Nat) : (s.setReg f i v).prt = s.prt := rfl
@[simp] theorem State.setReg_cls (s : State) (f : Fld) (i v : Nat) : (s.setReg f i v).cls = s.cls := rfl
@[simp] theorem State.setReg_oas (s : State) (f : Fld) (i v : Nat) : (s.setReg f i v).oas = s.oas := rfl
@[simp] theorem State.setReg_swc (s : State) (f : Fld) (i v : Nat) : (s.setReg f i v).swc = s.swc := rfl
@[simp] theorem State.setReg_egr (s : State) (f : Fld) (i v : Nat) : (s.setReg f i v).egr = s.egr := rfl
@[simp] theorem State.setReg_spe (s : State) (f : Fld) (i v : Nat) : (s.setReg f i v).spe = s.spe := rfl
@[simp] theorem State.setReg_tme (s : State) (f : Fld) (i v : Nat) : (s.setReg f i v).tme = s.tme := rfl
@[simp] theorem State.setReg_seif (s : State) (f : Fld) (i v : Nat) : (s.setReg f i v).seif = s.seif := rfl
@[simp] theorem State.setReg_ref (s : State) (f : Fld) (i v : Nat) : (s.setReg f i v).ref = s.ref := rfl
@[simp] theorem State.setReg_outp (s : State) (f : Fld) (i v : Nat) : (s.setReg f i v).outp = s.outp := rfl
@[simp] theorem State.setReg_pair (s : State) (f : Fld) (i v : Nat) : (s.setReg f i v).pair = s.pair := rfl
@[simp] theorem State.setReg_mbx (s : State) (f : Fld) (i v : Nat) : (s.setReg f i v).mbx = s.mbx := rfl
@[simp] theorem State.setReg_chk (s : State) (f : Fld) (i v : Nat) : (s.setReg f i v).chk = s.chk := rfl
@[simp] theorem State.setReg_obs (s : State) (f : Fld) (i v : Nat) : (s.setReg f i v).obs = s.obs := rfl
@[simp] theorem State.setReg_cairn (s : State) (f : Fld) (i v : Nat) : (s.setReg f i v).cairn = s.cairn := rfl

@[simp] theorem State.setPend_pending (s : State) (f : Fld) (i v : Nat) : (s.setPend f i v).pending = s.pending := rfl
@[simp] theorem State.setPend_hw (s : State) (f : Fld) (i v : Nat) : (s.setPend f i v).hw = s.hw := rfl
@[simp] theorem State.setPend_guards (s : State) (f : Fld) (i v : Nat) : (s.setPend f i v).guards = s.guards := rfl
@[simp] theorem State.setPend_clk (s : State) (f : Fld) (i v : Nat) : (s.setPend f i v).clk = s.clk := rfl
@[simp] theorem State.setPend_regs (s : State) (f : Fld) (i v : Nat) : (s.setPend f i v).regs = s.regs := rfl
@[simp] theorem State.setPend_hiLatch (s : State) (f : Fld) (i v : Nat) : (s.setPend f i v).hiLatch = s.hiLatch := rfl
@[simp] theorem State.setPend_loHold (s : State) (f : Fld) (i v : Nat) : (s.setPend f i v).loHold = s.loHold := rfl
@[simp] theorem State.setPend_out (s : State) (f : Fld) (i v : Nat) : (s.setPend f i v).out = s.out := rfl
@[simp] theorem State.setPend_freeCtr (s : State) (f : Fld) (i v : Nat) : (s.setPend f i v).freeCtr = s.freeCtr := rfl
@[simp] theorem State.setPend_evAcc (s : State) (f : Fld) (i v : Nat) : (s.setPend f i v).evAcc = s.evAcc := rfl
@[simp] theorem State.setPend_store (s : State) (f : Fld) (i v : Nat) : (s.setPend f i v).store = s.store := rfl
@[simp] theorem State.setPend_sys (s : State) (f : Fld) (i v : Nat) : (s.setPend f i v).sys = s.sys := rfl
@[simp] theorem State.setPend_hst (s : State) (f : Fld) (i v : Nat) : (s.setPend f i v).hst = s.hst := rfl
@[simp] theorem State.setPend_ln (s : State) (f : Fld) (i v : Nat) : (s.setPend f i v).ln = s.ln := rfl
@[simp] theorem State.setPend_prt (s : State) (f : Fld) (i v : Nat) : (s.setPend f i v).prt = s.prt := rfl
@[simp] theorem State.setPend_cls (s : State) (f : Fld) (i v : Nat) : (s.setPend f i v).cls = s.cls := rfl
@[simp] theorem State.setPend_oas (s : State) (f : Fld) (i v : Nat) : (s.setPend f i v).oas = s.oas := rfl
@[simp] theorem State.setPend_swc (s : State) (f : Fld) (i v : Nat) : (s.setPend f i v).swc = s.swc := rfl
@[simp] theorem State.setPend_egr (s : State) (f : Fld) (i v : Nat) : (s.setPend f i v).egr = s.egr := rfl
@[simp] theorem State.setPend_spe (s : State) (f : Fld) (i v : Nat) : (s.setPend f i v).spe = s.spe := rfl
@[simp] theorem State.setPend_tme (s : State) (f : Fld) (i v : Nat) : (s.setPend f i v).tme = s.tme := rfl
@[simp] theorem State.setPend_seif (s : State) (f : Fld) (i v : Nat) : (s.setPend f i v).seif = s.seif := rfl
@[simp] theorem State.setPend_ref (s : State) (f : Fld) (i v : Nat) : (s.setPend f i v).ref = s.ref := rfl
@[simp] theorem State.setPend_outp (s : State) (f : Fld) (i v : Nat) : (s.setPend f i v).outp = s.outp := rfl
@[simp] theorem State.setPend_pair (s : State) (f : Fld) (i v : Nat) : (s.setPend f i v).pair = s.pair := rfl
@[simp] theorem State.setPend_mbx (s : State) (f : Fld) (i v : Nat) : (s.setPend f i v).mbx = s.mbx := rfl
@[simp] theorem State.setPend_chk (s : State) (f : Fld) (i v : Nat) : (s.setPend f i v).chk = s.chk := rfl
@[simp] theorem State.setPend_obs (s : State) (f : Fld) (i v : Nat) : (s.setPend f i v).obs = s.obs := rfl
@[simp] theorem State.setPend_cairn (s : State) (f : Fld) (i v : Nat) : (s.setPend f i v).cairn = s.cairn := rfl

@[simp] theorem State.emit_pending (s : State) (o : Out) : (s.emit o).pending = s.pending := rfl
@[simp] theorem State.emit_hw (s : State) (o : Out) : (s.emit o).hw = s.hw := rfl
@[simp] theorem State.emit_guards (s : State) (o : Out) : (s.emit o).guards = s.guards := rfl
@[simp] theorem State.emit_clk (s : State) (o : Out) : (s.emit o).clk = s.clk := rfl
@[simp] theorem State.emit_regs (s : State) (o : Out) : (s.emit o).regs = s.regs := rfl
@[simp] theorem State.emit_pend (s : State) (o : Out) : (s.emit o).pend = s.pend := rfl
@[simp] theorem State.emit_hiLatch (s : State) (o : Out) : (s.emit o).hiLatch = s.hiLatch := rfl
@[simp] theorem State.emit_loHold (s : State) (o : Out) : (s.emit o).loHold = s.loHold := rfl
@[simp] theorem State.emit_freeCtr (s : State) (o : Out) : (s.emit o).freeCtr = s.freeCtr := rfl
@[simp] theorem State.emit_evAcc (s : State) (o : Out) : (s.emit o).evAcc = s.evAcc := rfl
@[simp] theorem State.emit_store (s : State) (o : Out) : (s.emit o).store = s.store := rfl
@[simp] theorem State.emit_sys (s : State) (o : Out) : (s.emit o).sys = s.sys := rfl
@[simp] theorem State.emit_hst (s : State) (o : Out) : (s.emit o).hst = s.hst := rfl
@[simp] theorem State.emit_ln (s : State) (o : Out) : (s.emit o).ln = s.ln := rfl
@[simp] theorem State.emit_prt (s : State) (o : Out) : (s.emit o).prt = s.prt := rfl
@[simp] theorem State.emit_cls (s : State) (o : Out) : (s.emit o).cls = s.cls := rfl
@[simp] theorem State.emit_oas (s : State) (o : Out) : (s.emit o).oas = s.oas := rfl
@[simp] theorem State.emit_swc (s : State) (o : Out) : (s.emit o).swc = s.swc := rfl
@[simp] theorem State.emit_egr (s : State) (o : Out) : (s.emit o).egr = s.egr := rfl
@[simp] theorem State.emit_spe (s : State) (o : Out) : (s.emit o).spe = s.spe := rfl
@[simp] theorem State.emit_tme (s : State) (o : Out) : (s.emit o).tme = s.tme := rfl
@[simp] theorem State.emit_seif (s : State) (o : Out) : (s.emit o).seif = s.seif := rfl
@[simp] theorem State.emit_ref (s : State) (o : Out) : (s.emit o).ref = s.ref := rfl
@[simp] theorem State.emit_outp (s : State) (o : Out) : (s.emit o).outp = s.outp := rfl
@[simp] theorem State.emit_pair (s : State) (o : Out) : (s.emit o).pair = s.pair := rfl
@[simp] theorem State.emit_mbx (s : State) (o : Out) : (s.emit o).mbx = s.mbx := rfl
@[simp] theorem State.emit_chk (s : State) (o : Out) : (s.emit o).chk = s.chk := rfl
@[simp] theorem State.emit_obs (s : State) (o : Out) : (s.emit o).obs = s.obs := rfl
@[simp] theorem State.emit_cairn (s : State) (o : Out) : (s.emit o).cairn = s.cairn := rfl

@[simp] theorem State.fresh_pending (s : State) : (s.fresh).pending = s.pending := rfl
@[simp] theorem State.fresh_hw (s : State) : (s.fresh).hw = s.hw := rfl
@[simp] theorem State.fresh_guards (s : State) : (s.fresh).guards = s.guards := rfl
@[simp] theorem State.fresh_clk (s : State) : (s.fresh).clk = s.clk := rfl
@[simp] theorem State.fresh_regs (s : State) : (s.fresh).regs = s.regs := rfl
@[simp] theorem State.fresh_pend (s : State) : (s.fresh).pend = s.pend := rfl
@[simp] theorem State.fresh_hiLatch (s : State) : (s.fresh).hiLatch = s.hiLatch := rfl
@[simp] theorem State.fresh_loHold (s : State) : (s.fresh).loHold = s.loHold := rfl
@[simp] theorem State.fresh_out (s : State) : (s.fresh).out = s.out := rfl
@[simp] theorem State.fresh_evAcc (s : State) : (s.fresh).evAcc = s.evAcc := rfl
@[simp] theorem State.fresh_store (s : State) : (s.fresh).store = s.store := rfl
@[simp] theorem State.fresh_sys (s : State) : (s.fresh).sys = s.sys := rfl
@[simp] theorem State.fresh_hst (s : State) : (s.fresh).hst = s.hst := rfl
@[simp] theorem State.fresh_ln (s : State) : (s.fresh).ln = s.ln := rfl
@[simp] theorem State.fresh_prt (s : State) : (s.fresh).prt = s.prt := rfl
@[simp] theorem State.fresh_cls (s : State) : (s.fresh).cls = s.cls := rfl
@[simp] theorem State.fresh_oas (s : State) : (s.fresh).oas = s.oas := rfl
@[simp] theorem State.fresh_swc (s : State) : (s.fresh).swc = s.swc := rfl
@[simp] theorem State.fresh_egr (s : State) : (s.fresh).egr = s.egr := rfl
@[simp] theorem State.fresh_spe (s : State) : (s.fresh).spe = s.spe := rfl
@[simp] theorem State.fresh_tme (s : State) : (s.fresh).tme = s.tme := rfl
@[simp] theorem State.fresh_seif (s : State) : (s.fresh).seif = s.seif := rfl
@[simp] theorem State.fresh_ref (s : State) : (s.fresh).ref = s.ref := rfl
@[simp] theorem State.fresh_outp (s : State) : (s.fresh).outp = s.outp := rfl
@[simp] theorem State.fresh_pair (s : State) : (s.fresh).pair = s.pair := rfl
@[simp] theorem State.fresh_mbx (s : State) : (s.fresh).mbx = s.mbx := rfl
@[simp] theorem State.fresh_chk (s : State) : (s.fresh).chk = s.chk := rfl
@[simp] theorem State.fresh_obs (s : State) : (s.fresh).obs = s.obs := rfl
@[simp] theorem State.fresh_cairn (s : State) : (s.fresh).cairn = s.cairn := rfl

@[simp] theorem State.fig_pending (s : State) (f : Figs → Figs) : (s.fig f).pending = s.pending := rfl
@[simp] theorem State.fig_hw (s : State) (f : Figs → Figs) : (s.fig f).hw = s.hw := rfl
@[simp] theorem State.fig_guards (s : State) (f : Figs → Figs) : (s.fig f).guards = s.guards := rfl
@[simp] theorem State.fig_clk (s : State) (f : Figs → Figs) : (s.fig f).clk = s.clk := rfl
@[simp] theorem State.fig_regs (s : State) (f : Figs → Figs) : (s.fig f).regs = s.regs := rfl
@[simp] theorem State.fig_pend (s : State) (f : Figs → Figs) : (s.fig f).pend = s.pend := rfl
@[simp] theorem State.fig_hiLatch (s : State) (f : Figs → Figs) : (s.fig f).hiLatch = s.hiLatch := rfl
@[simp] theorem State.fig_loHold (s : State) (f : Figs → Figs) : (s.fig f).loHold = s.loHold := rfl
@[simp] theorem State.fig_out (s : State) (f : Figs → Figs) : (s.fig f).out = s.out := rfl
@[simp] theorem State.fig_freeCtr (s : State) (f : Figs → Figs) : (s.fig f).freeCtr = s.freeCtr := rfl
@[simp] theorem State.fig_evAcc (s : State) (f : Figs → Figs) : (s.fig f).evAcc = s.evAcc := rfl
@[simp] theorem State.fig_store (s : State) (f : Figs → Figs) : (s.fig f).store = s.store := rfl
@[simp] theorem State.fig_sys (s : State) (f : Figs → Figs) : (s.fig f).sys = s.sys := rfl
@[simp] theorem State.fig_hst (s : State) (f : Figs → Figs) : (s.fig f).hst = s.hst := rfl
@[simp] theorem State.fig_ln (s : State) (f : Figs → Figs) : (s.fig f).ln = s.ln := rfl
@[simp] theorem State.fig_prt (s : State) (f : Figs → Figs) : (s.fig f).prt = s.prt := rfl
@[simp] theorem State.fig_cls (s : State) (f : Figs → Figs) : (s.fig f).cls = s.cls := rfl
@[simp] theorem State.fig_oas (s : State) (f : Figs → Figs) : (s.fig f).oas = s.oas := rfl
@[simp] theorem State.fig_swc (s : State) (f : Figs → Figs) : (s.fig f).swc = s.swc := rfl
@[simp] theorem State.fig_egr (s : State) (f : Figs → Figs) : (s.fig f).egr = s.egr := rfl
@[simp] theorem State.fig_spe (s : State) (f : Figs → Figs) : (s.fig f).spe = s.spe := rfl
@[simp] theorem State.fig_tme (s : State) (f : Figs → Figs) : (s.fig f).tme = s.tme := rfl
@[simp] theorem State.fig_seif (s : State) (f : Figs → Figs) : (s.fig f).seif = s.seif := rfl
@[simp] theorem State.fig_ref (s : State) (f : Figs → Figs) : (s.fig f).ref = s.ref := rfl
@[simp] theorem State.fig_outp (s : State) (f : Figs → Figs) : (s.fig f).outp = s.outp := rfl
@[simp] theorem State.fig_pair (s : State) (f : Figs → Figs) : (s.fig f).pair = s.pair := rfl
@[simp] theorem State.fig_mbx (s : State) (f : Figs → Figs) : (s.fig f).mbx = s.mbx := rfl
@[simp] theorem State.fig_chk (s : State) (f : Figs → Figs) : (s.fig f).chk = s.chk := rfl
@[simp] theorem State.fig_obs (s : State) (f : Figs → Figs) : (s.fig f).obs = s.obs := rfl

@[simp] theorem State.countReg_pending (s : State) (f : Fld) (i n : Nat) : (s.countReg f i n).pending = s.pending := rfl
@[simp] theorem State.countReg_hw (s : State) (f : Fld) (i n : Nat) : (s.countReg f i n).hw = s.hw := rfl
@[simp] theorem State.countReg_guards (s : State) (f : Fld) (i n : Nat) : (s.countReg f i n).guards = s.guards := rfl
@[simp] theorem State.countReg_clk (s : State) (f : Fld) (i n : Nat) : (s.countReg f i n).clk = s.clk := rfl
@[simp] theorem State.countReg_pend (s : State) (f : Fld) (i n : Nat) : (s.countReg f i n).pend = s.pend := rfl
@[simp] theorem State.countReg_hiLatch (s : State) (f : Fld) (i n : Nat) : (s.countReg f i n).hiLatch = s.hiLatch := rfl
@[simp] theorem State.countReg_loHold (s : State) (f : Fld) (i n : Nat) : (s.countReg f i n).loHold = s.loHold := rfl
@[simp] theorem State.countReg_out (s : State) (f : Fld) (i n : Nat) : (s.countReg f i n).out = s.out := rfl
@[simp] theorem State.countReg_freeCtr (s : State) (f : Fld) (i n : Nat) : (s.countReg f i n).freeCtr = s.freeCtr := rfl
@[simp] theorem State.countReg_evAcc (s : State) (f : Fld) (i n : Nat) : (s.countReg f i n).evAcc = s.evAcc := rfl
@[simp] theorem State.countReg_store (s : State) (f : Fld) (i n : Nat) : (s.countReg f i n).store = s.store := rfl
@[simp] theorem State.countReg_sys (s : State) (f : Fld) (i n : Nat) : (s.countReg f i n).sys = s.sys := rfl
@[simp] theorem State.countReg_hst (s : State) (f : Fld) (i n : Nat) : (s.countReg f i n).hst = s.hst := rfl
@[simp] theorem State.countReg_ln (s : State) (f : Fld) (i n : Nat) : (s.countReg f i n).ln = s.ln := rfl
@[simp] theorem State.countReg_prt (s : State) (f : Fld) (i n : Nat) : (s.countReg f i n).prt = s.prt := rfl
@[simp] theorem State.countReg_cls (s : State) (f : Fld) (i n : Nat) : (s.countReg f i n).cls = s.cls := rfl
@[simp] theorem State.countReg_oas (s : State) (f : Fld) (i n : Nat) : (s.countReg f i n).oas = s.oas := rfl
@[simp] theorem State.countReg_swc (s : State) (f : Fld) (i n : Nat) : (s.countReg f i n).swc = s.swc := rfl
@[simp] theorem State.countReg_egr (s : State) (f : Fld) (i n : Nat) : (s.countReg f i n).egr = s.egr := rfl
@[simp] theorem State.countReg_spe (s : State) (f : Fld) (i n : Nat) : (s.countReg f i n).spe = s.spe := rfl
@[simp] theorem State.countReg_tme (s : State) (f : Fld) (i n : Nat) : (s.countReg f i n).tme = s.tme := rfl
@[simp] theorem State.countReg_seif (s : State) (f : Fld) (i n : Nat) : (s.countReg f i n).seif = s.seif := rfl
@[simp] theorem State.countReg_ref (s : State) (f : Fld) (i n : Nat) : (s.countReg f i n).ref = s.ref := rfl
@[simp] theorem State.countReg_outp (s : State) (f : Fld) (i n : Nat) : (s.countReg f i n).outp = s.outp := rfl
@[simp] theorem State.countReg_pair (s : State) (f : Fld) (i n : Nat) : (s.countReg f i n).pair = s.pair := rfl
@[simp] theorem State.countReg_mbx (s : State) (f : Fld) (i n : Nat) : (s.countReg f i n).mbx = s.mbx := rfl
@[simp] theorem State.countReg_chk (s : State) (f : Fld) (i n : Nat) : (s.countReg f i n).chk = s.chk := rfl
@[simp] theorem State.countReg_obs (s : State) (f : Fld) (i n : Nat) : (s.countReg f i n).obs = s.obs := rfl
@[simp] theorem State.countReg_cairn (s : State) (f : Fld) (i n : Nat) : (s.countReg f i n).cairn = s.cairn := rfl

@[simp] theorem State.wrapReg_pending (s : State) (f : Fld) (i n : Nat) : (s.wrapReg f i n).pending = s.pending := rfl
@[simp] theorem State.wrapReg_hw (s : State) (f : Fld) (i n : Nat) : (s.wrapReg f i n).hw = s.hw := rfl
@[simp] theorem State.wrapReg_guards (s : State) (f : Fld) (i n : Nat) : (s.wrapReg f i n).guards = s.guards := rfl
@[simp] theorem State.wrapReg_clk (s : State) (f : Fld) (i n : Nat) : (s.wrapReg f i n).clk = s.clk := rfl
@[simp] theorem State.wrapReg_pend (s : State) (f : Fld) (i n : Nat) : (s.wrapReg f i n).pend = s.pend := rfl
@[simp] theorem State.wrapReg_hiLatch (s : State) (f : Fld) (i n : Nat) : (s.wrapReg f i n).hiLatch = s.hiLatch := rfl
@[simp] theorem State.wrapReg_loHold (s : State) (f : Fld) (i n : Nat) : (s.wrapReg f i n).loHold = s.loHold := rfl
@[simp] theorem State.wrapReg_out (s : State) (f : Fld) (i n : Nat) : (s.wrapReg f i n).out = s.out := rfl
@[simp] theorem State.wrapReg_freeCtr (s : State) (f : Fld) (i n : Nat) : (s.wrapReg f i n).freeCtr = s.freeCtr := rfl
@[simp] theorem State.wrapReg_evAcc (s : State) (f : Fld) (i n : Nat) : (s.wrapReg f i n).evAcc = s.evAcc := rfl
@[simp] theorem State.wrapReg_store (s : State) (f : Fld) (i n : Nat) : (s.wrapReg f i n).store = s.store := rfl
@[simp] theorem State.wrapReg_sys (s : State) (f : Fld) (i n : Nat) : (s.wrapReg f i n).sys = s.sys := rfl
@[simp] theorem State.wrapReg_hst (s : State) (f : Fld) (i n : Nat) : (s.wrapReg f i n).hst = s.hst := rfl
@[simp] theorem State.wrapReg_ln (s : State) (f : Fld) (i n : Nat) : (s.wrapReg f i n).ln = s.ln := rfl
@[simp] theorem State.wrapReg_prt (s : State) (f : Fld) (i n : Nat) : (s.wrapReg f i n).prt = s.prt := rfl
@[simp] theorem State.wrapReg_cls (s : State) (f : Fld) (i n : Nat) : (s.wrapReg f i n).cls = s.cls := rfl
@[simp] theorem State.wrapReg_oas (s : State) (f : Fld) (i n : Nat) : (s.wrapReg f i n).oas = s.oas := rfl
@[simp] theorem State.wrapReg_swc (s : State) (f : Fld) (i n : Nat) : (s.wrapReg f i n).swc = s.swc := rfl
@[simp] theorem State.wrapReg_egr (s : State) (f : Fld) (i n : Nat) : (s.wrapReg f i n).egr = s.egr := rfl
@[simp] theorem State.wrapReg_spe (s : State) (f : Fld) (i n : Nat) : (s.wrapReg f i n).spe = s.spe := rfl
@[simp] theorem State.wrapReg_tme (s : State) (f : Fld) (i n : Nat) : (s.wrapReg f i n).tme = s.tme := rfl
@[simp] theorem State.wrapReg_seif (s : State) (f : Fld) (i n : Nat) : (s.wrapReg f i n).seif = s.seif := rfl
@[simp] theorem State.wrapReg_ref (s : State) (f : Fld) (i n : Nat) : (s.wrapReg f i n).ref = s.ref := rfl
@[simp] theorem State.wrapReg_outp (s : State) (f : Fld) (i n : Nat) : (s.wrapReg f i n).outp = s.outp := rfl
@[simp] theorem State.wrapReg_pair (s : State) (f : Fld) (i n : Nat) : (s.wrapReg f i n).pair = s.pair := rfl
@[simp] theorem State.wrapReg_mbx (s : State) (f : Fld) (i n : Nat) : (s.wrapReg f i n).mbx = s.mbx := rfl
@[simp] theorem State.wrapReg_chk (s : State) (f : Fld) (i n : Nat) : (s.wrapReg f i n).chk = s.chk := rfl
@[simp] theorem State.wrapReg_obs (s : State) (f : Fld) (i n : Nat) : (s.wrapReg f i n).obs = s.obs := rfl
@[simp] theorem State.wrapReg_cairn (s : State) (f : Fld) (i n : Nat) : (s.wrapReg f i n).cairn = s.cairn := rfl

@[simp] theorem State.guard_pending (s : State) (b n : Nat) : (s.guard b n).pending = s.pending := rfl
@[simp] theorem State.guard_hw (s : State) (b n : Nat) : (s.guard b n).hw = s.hw := rfl
@[simp] theorem State.guard_clk (s : State) (b n : Nat) : (s.guard b n).clk = s.clk := rfl
@[simp] theorem State.guard_regs (s : State) (b n : Nat) : (s.guard b n).regs = s.regs := rfl
@[simp] theorem State.guard_pend (s : State) (b n : Nat) : (s.guard b n).pend = s.pend := rfl
@[simp] theorem State.guard_hiLatch (s : State) (b n : Nat) : (s.guard b n).hiLatch = s.hiLatch := rfl
@[simp] theorem State.guard_loHold (s : State) (b n : Nat) : (s.guard b n).loHold = s.loHold := rfl
@[simp] theorem State.guard_out (s : State) (b n : Nat) : (s.guard b n).out = s.out := rfl
@[simp] theorem State.guard_freeCtr (s : State) (b n : Nat) : (s.guard b n).freeCtr = s.freeCtr := rfl
@[simp] theorem State.guard_evAcc (s : State) (b n : Nat) : (s.guard b n).evAcc = s.evAcc := rfl
@[simp] theorem State.guard_store (s : State) (b n : Nat) : (s.guard b n).store = s.store := rfl
@[simp] theorem State.guard_sys (s : State) (b n : Nat) : (s.guard b n).sys = s.sys := rfl
@[simp] theorem State.guard_hst (s : State) (b n : Nat) : (s.guard b n).hst = s.hst := rfl
@[simp] theorem State.guard_ln (s : State) (b n : Nat) : (s.guard b n).ln = s.ln := rfl
@[simp] theorem State.guard_prt (s : State) (b n : Nat) : (s.guard b n).prt = s.prt := rfl
@[simp] theorem State.guard_cls (s : State) (b n : Nat) : (s.guard b n).cls = s.cls := rfl
@[simp] theorem State.guard_oas (s : State) (b n : Nat) : (s.guard b n).oas = s.oas := rfl
@[simp] theorem State.guard_swc (s : State) (b n : Nat) : (s.guard b n).swc = s.swc := rfl
@[simp] theorem State.guard_egr (s : State) (b n : Nat) : (s.guard b n).egr = s.egr := rfl
@[simp] theorem State.guard_spe (s : State) (b n : Nat) : (s.guard b n).spe = s.spe := rfl
@[simp] theorem State.guard_tme (s : State) (b n : Nat) : (s.guard b n).tme = s.tme := rfl
@[simp] theorem State.guard_seif (s : State) (b n : Nat) : (s.guard b n).seif = s.seif := rfl
@[simp] theorem State.guard_ref (s : State) (b n : Nat) : (s.guard b n).ref = s.ref := rfl
@[simp] theorem State.guard_outp (s : State) (b n : Nat) : (s.guard b n).outp = s.outp := rfl
@[simp] theorem State.guard_pair (s : State) (b n : Nat) : (s.guard b n).pair = s.pair := rfl
@[simp] theorem State.guard_mbx (s : State) (b n : Nat) : (s.guard b n).mbx = s.mbx := rfl
@[simp] theorem State.guard_chk (s : State) (b n : Nat) : (s.guard b n).chk = s.chk := rfl
@[simp] theorem State.guard_obs (s : State) (b n : Nat) : (s.guard b n).obs = s.obs := rfl

@[simp] theorem State.hwNote_pending (s : State) (f : Fld) (i v : Nat) : (s.hwNote f i v).pending = s.pending := rfl
@[simp] theorem State.hwNote_guards (s : State) (f : Fld) (i v : Nat) : (s.hwNote f i v).guards = s.guards := rfl
@[simp] theorem State.hwNote_clk (s : State) (f : Fld) (i v : Nat) : (s.hwNote f i v).clk = s.clk := rfl
@[simp] theorem State.hwNote_regs (s : State) (f : Fld) (i v : Nat) : (s.hwNote f i v).regs = s.regs := rfl
@[simp] theorem State.hwNote_pend (s : State) (f : Fld) (i v : Nat) : (s.hwNote f i v).pend = s.pend := rfl
@[simp] theorem State.hwNote_hiLatch (s : State) (f : Fld) (i v : Nat) : (s.hwNote f i v).hiLatch = s.hiLatch := rfl
@[simp] theorem State.hwNote_loHold (s : State) (f : Fld) (i v : Nat) : (s.hwNote f i v).loHold = s.loHold := rfl
@[simp] theorem State.hwNote_out (s : State) (f : Fld) (i v : Nat) : (s.hwNote f i v).out = s.out := rfl
@[simp] theorem State.hwNote_freeCtr (s : State) (f : Fld) (i v : Nat) : (s.hwNote f i v).freeCtr = s.freeCtr := rfl
@[simp] theorem State.hwNote_evAcc (s : State) (f : Fld) (i v : Nat) : (s.hwNote f i v).evAcc = s.evAcc := rfl
@[simp] theorem State.hwNote_store (s : State) (f : Fld) (i v : Nat) : (s.hwNote f i v).store = s.store := rfl
@[simp] theorem State.hwNote_sys (s : State) (f : Fld) (i v : Nat) : (s.hwNote f i v).sys = s.sys := rfl
@[simp] theorem State.hwNote_hst (s : State) (f : Fld) (i v : Nat) : (s.hwNote f i v).hst = s.hst := rfl
@[simp] theorem State.hwNote_ln (s : State) (f : Fld) (i v : Nat) : (s.hwNote f i v).ln = s.ln := rfl
@[simp] theorem State.hwNote_prt (s : State) (f : Fld) (i v : Nat) : (s.hwNote f i v).prt = s.prt := rfl
@[simp] theorem State.hwNote_cls (s : State) (f : Fld) (i v : Nat) : (s.hwNote f i v).cls = s.cls := rfl
@[simp] theorem State.hwNote_oas (s : State) (f : Fld) (i v : Nat) : (s.hwNote f i v).oas = s.oas := rfl
@[simp] theorem State.hwNote_swc (s : State) (f : Fld) (i v : Nat) : (s.hwNote f i v).swc = s.swc := rfl
@[simp] theorem State.hwNote_egr (s : State) (f : Fld) (i v : Nat) : (s.hwNote f i v).egr = s.egr := rfl
@[simp] theorem State.hwNote_spe (s : State) (f : Fld) (i v : Nat) : (s.hwNote f i v).spe = s.spe := rfl
@[simp] theorem State.hwNote_tme (s : State) (f : Fld) (i v : Nat) : (s.hwNote f i v).tme = s.tme := rfl
@[simp] theorem State.hwNote_seif (s : State) (f : Fld) (i v : Nat) : (s.hwNote f i v).seif = s.seif := rfl
@[simp] theorem State.hwNote_ref (s : State) (f : Fld) (i v : Nat) : (s.hwNote f i v).ref = s.ref := rfl
@[simp] theorem State.hwNote_outp (s : State) (f : Fld) (i v : Nat) : (s.hwNote f i v).outp = s.outp := rfl
@[simp] theorem State.hwNote_pair (s : State) (f : Fld) (i v : Nat) : (s.hwNote f i v).pair = s.pair := rfl
@[simp] theorem State.hwNote_mbx (s : State) (f : Fld) (i v : Nat) : (s.hwNote f i v).mbx = s.mbx := rfl
@[simp] theorem State.hwNote_chk (s : State) (f : Fld) (i v : Nat) : (s.hwNote f i v).chk = s.chk := rfl
@[simp] theorem State.hwNote_obs (s : State) (f : Fld) (i v : Nat) : (s.hwNote f i v).obs = s.obs := rfl
@[simp] theorem State.hwNote_cairn (s : State) (f : Fld) (i v : Nat) : (s.hwNote f i v).cairn = s.cairn := rfl

@[simp] theorem State.hwSet_pending (s : State) (f : Fld) (i v : Nat) : (s.hwSet f i v).pending = s.pending := rfl
@[simp] theorem State.hwSet_guards (s : State) (f : Fld) (i v : Nat) : (s.hwSet f i v).guards = s.guards := rfl
@[simp] theorem State.hwSet_clk (s : State) (f : Fld) (i v : Nat) : (s.hwSet f i v).clk = s.clk := rfl
@[simp] theorem State.hwSet_pend (s : State) (f : Fld) (i v : Nat) : (s.hwSet f i v).pend = s.pend := rfl
@[simp] theorem State.hwSet_hiLatch (s : State) (f : Fld) (i v : Nat) : (s.hwSet f i v).hiLatch = s.hiLatch := rfl
@[simp] theorem State.hwSet_loHold (s : State) (f : Fld) (i v : Nat) : (s.hwSet f i v).loHold = s.loHold := rfl
@[simp] theorem State.hwSet_out (s : State) (f : Fld) (i v : Nat) : (s.hwSet f i v).out = s.out := rfl
@[simp] theorem State.hwSet_freeCtr (s : State) (f : Fld) (i v : Nat) : (s.hwSet f i v).freeCtr = s.freeCtr := rfl
@[simp] theorem State.hwSet_evAcc (s : State) (f : Fld) (i v : Nat) : (s.hwSet f i v).evAcc = s.evAcc := rfl
@[simp] theorem State.hwSet_store (s : State) (f : Fld) (i v : Nat) : (s.hwSet f i v).store = s.store := rfl
@[simp] theorem State.hwSet_sys (s : State) (f : Fld) (i v : Nat) : (s.hwSet f i v).sys = s.sys := rfl
@[simp] theorem State.hwSet_hst (s : State) (f : Fld) (i v : Nat) : (s.hwSet f i v).hst = s.hst := rfl
@[simp] theorem State.hwSet_ln (s : State) (f : Fld) (i v : Nat) : (s.hwSet f i v).ln = s.ln := rfl
@[simp] theorem State.hwSet_prt (s : State) (f : Fld) (i v : Nat) : (s.hwSet f i v).prt = s.prt := rfl
@[simp] theorem State.hwSet_cls (s : State) (f : Fld) (i v : Nat) : (s.hwSet f i v).cls = s.cls := rfl
@[simp] theorem State.hwSet_oas (s : State) (f : Fld) (i v : Nat) : (s.hwSet f i v).oas = s.oas := rfl
@[simp] theorem State.hwSet_swc (s : State) (f : Fld) (i v : Nat) : (s.hwSet f i v).swc = s.swc := rfl
@[simp] theorem State.hwSet_egr (s : State) (f : Fld) (i v : Nat) : (s.hwSet f i v).egr = s.egr := rfl
@[simp] theorem State.hwSet_spe (s : State) (f : Fld) (i v : Nat) : (s.hwSet f i v).spe = s.spe := rfl
@[simp] theorem State.hwSet_tme (s : State) (f : Fld) (i v : Nat) : (s.hwSet f i v).tme = s.tme := rfl
@[simp] theorem State.hwSet_seif (s : State) (f : Fld) (i v : Nat) : (s.hwSet f i v).seif = s.seif := rfl
@[simp] theorem State.hwSet_ref (s : State) (f : Fld) (i v : Nat) : (s.hwSet f i v).ref = s.ref := rfl
@[simp] theorem State.hwSet_outp (s : State) (f : Fld) (i v : Nat) : (s.hwSet f i v).outp = s.outp := rfl
@[simp] theorem State.hwSet_pair (s : State) (f : Fld) (i v : Nat) : (s.hwSet f i v).pair = s.pair := rfl
@[simp] theorem State.hwSet_mbx (s : State) (f : Fld) (i v : Nat) : (s.hwSet f i v).mbx = s.mbx := rfl
@[simp] theorem State.hwSet_chk (s : State) (f : Fld) (i v : Nat) : (s.hwSet f i v).chk = s.chk := rfl
@[simp] theorem State.hwSet_obs (s : State) (f : Fld) (i v : Nat) : (s.hwSet f i v).obs = s.obs := rfl
@[simp] theorem State.hwSet_cairn (s : State) (f : Fld) (i v : Nat) : (s.hwSet f i v).cairn = s.cairn := rfl

@[simp] theorem State.hwCount_pending (s : State) (f : Fld) (i n : Nat) : (s.hwCount f i n).pending = s.pending := rfl
@[simp] theorem State.hwCount_guards (s : State) (f : Fld) (i n : Nat) : (s.hwCount f i n).guards = s.guards := rfl
@[simp] theorem State.hwCount_clk (s : State) (f : Fld) (i n : Nat) : (s.hwCount f i n).clk = s.clk := rfl
@[simp] theorem State.hwCount_pend (s : State) (f : Fld) (i n : Nat) : (s.hwCount f i n).pend = s.pend := rfl
@[simp] theorem State.hwCount_hiLatch (s : State) (f : Fld) (i n : Nat) : (s.hwCount f i n).hiLatch = s.hiLatch := rfl
@[simp] theorem State.hwCount_loHold (s : State) (f : Fld) (i n : Nat) : (s.hwCount f i n).loHold = s.loHold := rfl
@[simp] theorem State.hwCount_out (s : State) (f : Fld) (i n : Nat) : (s.hwCount f i n).out = s.out := rfl
@[simp] theorem State.hwCount_freeCtr (s : State) (f : Fld) (i n : Nat) : (s.hwCount f i n).freeCtr = s.freeCtr := rfl
@[simp] theorem State.hwCount_evAcc (s : State) (f : Fld) (i n : Nat) : (s.hwCount f i n).evAcc = s.evAcc := rfl
@[simp] theorem State.hwCount_store (s : State) (f : Fld) (i n : Nat) : (s.hwCount f i n).store = s.store := rfl
@[simp] theorem State.hwCount_sys (s : State) (f : Fld) (i n : Nat) : (s.hwCount f i n).sys = s.sys := rfl
@[simp] theorem State.hwCount_hst (s : State) (f : Fld) (i n : Nat) : (s.hwCount f i n).hst = s.hst := rfl
@[simp] theorem State.hwCount_ln (s : State) (f : Fld) (i n : Nat) : (s.hwCount f i n).ln = s.ln := rfl
@[simp] theorem State.hwCount_prt (s : State) (f : Fld) (i n : Nat) : (s.hwCount f i n).prt = s.prt := rfl
@[simp] theorem State.hwCount_cls (s : State) (f : Fld) (i n : Nat) : (s.hwCount f i n).cls = s.cls := rfl
@[simp] theorem State.hwCount_oas (s : State) (f : Fld) (i n : Nat) : (s.hwCount f i n).oas = s.oas := rfl
@[simp] theorem State.hwCount_swc (s : State) (f : Fld) (i n : Nat) : (s.hwCount f i n).swc = s.swc := rfl
@[simp] theorem State.hwCount_egr (s : State) (f : Fld) (i n : Nat) : (s.hwCount f i n).egr = s.egr := rfl
@[simp] theorem State.hwCount_spe (s : State) (f : Fld) (i n : Nat) : (s.hwCount f i n).spe = s.spe := rfl
@[simp] theorem State.hwCount_tme (s : State) (f : Fld) (i n : Nat) : (s.hwCount f i n).tme = s.tme := rfl
@[simp] theorem State.hwCount_seif (s : State) (f : Fld) (i n : Nat) : (s.hwCount f i n).seif = s.seif := rfl
@[simp] theorem State.hwCount_ref (s : State) (f : Fld) (i n : Nat) : (s.hwCount f i n).ref = s.ref := rfl
@[simp] theorem State.hwCount_outp (s : State) (f : Fld) (i n : Nat) : (s.hwCount f i n).outp = s.outp := rfl
@[simp] theorem State.hwCount_pair (s : State) (f : Fld) (i n : Nat) : (s.hwCount f i n).pair = s.pair := rfl
@[simp] theorem State.hwCount_mbx (s : State) (f : Fld) (i n : Nat) : (s.hwCount f i n).mbx = s.mbx := rfl
@[simp] theorem State.hwCount_chk (s : State) (f : Fld) (i n : Nat) : (s.hwCount f i n).chk = s.chk := rfl
@[simp] theorem State.hwCount_obs (s : State) (f : Fld) (i n : Nat) : (s.hwCount f i n).obs = s.obs := rfl
@[simp] theorem State.hwCount_cairn (s : State) (f : Fld) (i n : Nat) : (s.hwCount f i n).cairn = s.cairn := rfl

@[simp] theorem State.clearBits_pending (s : State) (f : Fld) (i v : Nat) : (s.clearBits f i v).pending = s.pending := rfl
@[simp] theorem State.clearBits_hw (s : State) (f : Fld) (i v : Nat) : (s.clearBits f i v).hw = s.hw := rfl
@[simp] theorem State.clearBits_guards (s : State) (f : Fld) (i v : Nat) : (s.clearBits f i v).guards = s.guards := rfl
@[simp] theorem State.clearBits_clk (s : State) (f : Fld) (i v : Nat) : (s.clearBits f i v).clk = s.clk := rfl
@[simp] theorem State.clearBits_pend (s : State) (f : Fld) (i v : Nat) : (s.clearBits f i v).pend = s.pend := rfl
@[simp] theorem State.clearBits_hiLatch (s : State) (f : Fld) (i v : Nat) : (s.clearBits f i v).hiLatch = s.hiLatch := rfl
@[simp] theorem State.clearBits_loHold (s : State) (f : Fld) (i v : Nat) : (s.clearBits f i v).loHold = s.loHold := rfl
@[simp] theorem State.clearBits_out (s : State) (f : Fld) (i v : Nat) : (s.clearBits f i v).out = s.out := rfl
@[simp] theorem State.clearBits_freeCtr (s : State) (f : Fld) (i v : Nat) : (s.clearBits f i v).freeCtr = s.freeCtr := rfl
@[simp] theorem State.clearBits_evAcc (s : State) (f : Fld) (i v : Nat) : (s.clearBits f i v).evAcc = s.evAcc := rfl
@[simp] theorem State.clearBits_store (s : State) (f : Fld) (i v : Nat) : (s.clearBits f i v).store = s.store := rfl
@[simp] theorem State.clearBits_sys (s : State) (f : Fld) (i v : Nat) : (s.clearBits f i v).sys = s.sys := rfl
@[simp] theorem State.clearBits_hst (s : State) (f : Fld) (i v : Nat) : (s.clearBits f i v).hst = s.hst := rfl
@[simp] theorem State.clearBits_ln (s : State) (f : Fld) (i v : Nat) : (s.clearBits f i v).ln = s.ln := rfl
@[simp] theorem State.clearBits_prt (s : State) (f : Fld) (i v : Nat) : (s.clearBits f i v).prt = s.prt := rfl
@[simp] theorem State.clearBits_cls (s : State) (f : Fld) (i v : Nat) : (s.clearBits f i v).cls = s.cls := rfl
@[simp] theorem State.clearBits_oas (s : State) (f : Fld) (i v : Nat) : (s.clearBits f i v).oas = s.oas := rfl
@[simp] theorem State.clearBits_swc (s : State) (f : Fld) (i v : Nat) : (s.clearBits f i v).swc = s.swc := rfl
@[simp] theorem State.clearBits_egr (s : State) (f : Fld) (i v : Nat) : (s.clearBits f i v).egr = s.egr := rfl
@[simp] theorem State.clearBits_spe (s : State) (f : Fld) (i v : Nat) : (s.clearBits f i v).spe = s.spe := rfl
@[simp] theorem State.clearBits_tme (s : State) (f : Fld) (i v : Nat) : (s.clearBits f i v).tme = s.tme := rfl
@[simp] theorem State.clearBits_seif (s : State) (f : Fld) (i v : Nat) : (s.clearBits f i v).seif = s.seif := rfl
@[simp] theorem State.clearBits_ref (s : State) (f : Fld) (i v : Nat) : (s.clearBits f i v).ref = s.ref := rfl
@[simp] theorem State.clearBits_outp (s : State) (f : Fld) (i v : Nat) : (s.clearBits f i v).outp = s.outp := rfl
@[simp] theorem State.clearBits_pair (s : State) (f : Fld) (i v : Nat) : (s.clearBits f i v).pair = s.pair := rfl
@[simp] theorem State.clearBits_mbx (s : State) (f : Fld) (i v : Nat) : (s.clearBits f i v).mbx = s.mbx := rfl
@[simp] theorem State.clearBits_chk (s : State) (f : Fld) (i v : Nat) : (s.clearBits f i v).chk = s.chk := rfl
@[simp] theorem State.clearBits_obs (s : State) (f : Fld) (i v : Nat) : (s.clearBits f i v).obs = s.obs := rfl
@[simp] theorem State.clearBits_cairn (s : State) (f : Fld) (i v : Nat) : (s.clearBits f i v).cairn = s.cairn := rfl

@[simp] theorem State.noteWrite_pending (s : State) (who a v m old : Nat) : (s.noteWrite who a v m old).pending = s.pending := rfl
@[simp] theorem State.noteWrite_guards (s : State) (who a v m old : Nat) : (s.noteWrite who a v m old).guards = s.guards := rfl
@[simp] theorem State.noteWrite_clk (s : State) (who a v m old : Nat) : (s.noteWrite who a v m old).clk = s.clk := rfl
@[simp] theorem State.noteWrite_regs (s : State) (who a v m old : Nat) : (s.noteWrite who a v m old).regs = s.regs := rfl
@[simp] theorem State.noteWrite_pend (s : State) (who a v m old : Nat) : (s.noteWrite who a v m old).pend = s.pend := rfl
@[simp] theorem State.noteWrite_hiLatch (s : State) (who a v m old : Nat) : (s.noteWrite who a v m old).hiLatch = s.hiLatch := rfl
@[simp] theorem State.noteWrite_loHold (s : State) (who a v m old : Nat) : (s.noteWrite who a v m old).loHold = s.loHold := rfl
@[simp] theorem State.noteWrite_out (s : State) (who a v m old : Nat) : (s.noteWrite who a v m old).out = s.out := rfl
@[simp] theorem State.noteWrite_freeCtr (s : State) (who a v m old : Nat) : (s.noteWrite who a v m old).freeCtr = s.freeCtr := rfl
@[simp] theorem State.noteWrite_evAcc (s : State) (who a v m old : Nat) : (s.noteWrite who a v m old).evAcc = s.evAcc := rfl
@[simp] theorem State.noteWrite_store (s : State) (who a v m old : Nat) : (s.noteWrite who a v m old).store = s.store := rfl
@[simp] theorem State.noteWrite_sys (s : State) (who a v m old : Nat) : (s.noteWrite who a v m old).sys = s.sys := rfl
@[simp] theorem State.noteWrite_hst (s : State) (who a v m old : Nat) : (s.noteWrite who a v m old).hst = s.hst := rfl
@[simp] theorem State.noteWrite_ln (s : State) (who a v m old : Nat) : (s.noteWrite who a v m old).ln = s.ln := rfl
@[simp] theorem State.noteWrite_prt (s : State) (who a v m old : Nat) : (s.noteWrite who a v m old).prt = s.prt := rfl
@[simp] theorem State.noteWrite_cls (s : State) (who a v m old : Nat) : (s.noteWrite who a v m old).cls = s.cls := rfl
@[simp] theorem State.noteWrite_oas (s : State) (who a v m old : Nat) : (s.noteWrite who a v m old).oas = s.oas := rfl
@[simp] theorem State.noteWrite_swc (s : State) (who a v m old : Nat) : (s.noteWrite who a v m old).swc = s.swc := rfl
@[simp] theorem State.noteWrite_egr (s : State) (who a v m old : Nat) : (s.noteWrite who a v m old).egr = s.egr := rfl
@[simp] theorem State.noteWrite_spe (s : State) (who a v m old : Nat) : (s.noteWrite who a v m old).spe = s.spe := rfl
@[simp] theorem State.noteWrite_tme (s : State) (who a v m old : Nat) : (s.noteWrite who a v m old).tme = s.tme := rfl
@[simp] theorem State.noteWrite_seif (s : State) (who a v m old : Nat) : (s.noteWrite who a v m old).seif = s.seif := rfl
@[simp] theorem State.noteWrite_ref (s : State) (who a v m old : Nat) : (s.noteWrite who a v m old).ref = s.ref := rfl
@[simp] theorem State.noteWrite_outp (s : State) (who a v m old : Nat) : (s.noteWrite who a v m old).outp = s.outp := rfl
@[simp] theorem State.noteWrite_pair (s : State) (who a v m old : Nat) : (s.noteWrite who a v m old).pair = s.pair := rfl
@[simp] theorem State.noteWrite_mbx (s : State) (who a v m old : Nat) : (s.noteWrite who a v m old).mbx = s.mbx := rfl
@[simp] theorem State.noteWrite_chk (s : State) (who a v m old : Nat) : (s.noteWrite who a v m old).chk = s.chk := rfl
@[simp] theorem State.noteWrite_obs (s : State) (who a v m old : Nat) : (s.noteWrite who a v m old).obs = s.obs := rfl
@[simp] theorem State.noteWrite_cairn (s : State) (who a v m old : Nat) : (s.noteWrite who a v m old).cairn = s.cairn := rfl

@[simp] theorem State.setVers_pending (s : State) (t i : Nat) (l : List Ver) : (s.setVers t i l).pending = s.pending := rfl
@[simp] theorem State.setVers_hw (s : State) (t i : Nat) (l : List Ver) : (s.setVers t i l).hw = s.hw := rfl
@[simp] theorem State.setVers_guards (s : State) (t i : Nat) (l : List Ver) : (s.setVers t i l).guards = s.guards := rfl
@[simp] theorem State.setVers_clk (s : State) (t i : Nat) (l : List Ver) : (s.setVers t i l).clk = s.clk := rfl
@[simp] theorem State.setVers_regs (s : State) (t i : Nat) (l : List Ver) : (s.setVers t i l).regs = s.regs := rfl
@[simp] theorem State.setVers_pend (s : State) (t i : Nat) (l : List Ver) : (s.setVers t i l).pend = s.pend := rfl
@[simp] theorem State.setVers_hiLatch (s : State) (t i : Nat) (l : List Ver) : (s.setVers t i l).hiLatch = s.hiLatch := rfl
@[simp] theorem State.setVers_loHold (s : State) (t i : Nat) (l : List Ver) : (s.setVers t i l).loHold = s.loHold := rfl
@[simp] theorem State.setVers_out (s : State) (t i : Nat) (l : List Ver) : (s.setVers t i l).out = s.out := rfl
@[simp] theorem State.setVers_freeCtr (s : State) (t i : Nat) (l : List Ver) : (s.setVers t i l).freeCtr = s.freeCtr := rfl
@[simp] theorem State.setVers_evAcc (s : State) (t i : Nat) (l : List Ver) : (s.setVers t i l).evAcc = s.evAcc := rfl
@[simp] theorem State.setVers_sys (s : State) (t i : Nat) (l : List Ver) : (s.setVers t i l).sys = s.sys := rfl
@[simp] theorem State.setVers_hst (s : State) (t i : Nat) (l : List Ver) : (s.setVers t i l).hst = s.hst := rfl
@[simp] theorem State.setVers_ln (s : State) (t i : Nat) (l : List Ver) : (s.setVers t i l).ln = s.ln := rfl
@[simp] theorem State.setVers_prt (s : State) (t i : Nat) (l : List Ver) : (s.setVers t i l).prt = s.prt := rfl
@[simp] theorem State.setVers_cls (s : State) (t i : Nat) (l : List Ver) : (s.setVers t i l).cls = s.cls := rfl
@[simp] theorem State.setVers_oas (s : State) (t i : Nat) (l : List Ver) : (s.setVers t i l).oas = s.oas := rfl
@[simp] theorem State.setVers_swc (s : State) (t i : Nat) (l : List Ver) : (s.setVers t i l).swc = s.swc := rfl
@[simp] theorem State.setVers_egr (s : State) (t i : Nat) (l : List Ver) : (s.setVers t i l).egr = s.egr := rfl
@[simp] theorem State.setVers_spe (s : State) (t i : Nat) (l : List Ver) : (s.setVers t i l).spe = s.spe := rfl
@[simp] theorem State.setVers_tme (s : State) (t i : Nat) (l : List Ver) : (s.setVers t i l).tme = s.tme := rfl
@[simp] theorem State.setVers_seif (s : State) (t i : Nat) (l : List Ver) : (s.setVers t i l).seif = s.seif := rfl
@[simp] theorem State.setVers_ref (s : State) (t i : Nat) (l : List Ver) : (s.setVers t i l).ref = s.ref := rfl
@[simp] theorem State.setVers_outp (s : State) (t i : Nat) (l : List Ver) : (s.setVers t i l).outp = s.outp := rfl
@[simp] theorem State.setVers_pair (s : State) (t i : Nat) (l : List Ver) : (s.setVers t i l).pair = s.pair := rfl
@[simp] theorem State.setVers_mbx (s : State) (t i : Nat) (l : List Ver) : (s.setVers t i l).mbx = s.mbx := rfl
@[simp] theorem State.setVers_chk (s : State) (t i : Nat) (l : List Ver) : (s.setVers t i l).chk = s.chk := rfl
@[simp] theorem State.setVers_obs (s : State) (t i : Nat) (l : List Ver) : (s.setVers t i l).obs = s.obs := rfl
@[simp] theorem State.setVers_cairn (s : State) (t i : Nat) (l : List Ver) : (s.setVers t i l).cairn = s.cairn := rfl

@[simp] theorem State.update_pending (s : State) (t i : Nat) (v : Option Line) (h : Bool) : (s.update t i v h).pending = s.pending := rfl
@[simp] theorem State.update_hw (s : State) (t i : Nat) (v : Option Line) (h : Bool) : (s.update t i v h).hw = s.hw := rfl
@[simp] theorem State.update_guards (s : State) (t i : Nat) (v : Option Line) (h : Bool) : (s.update t i v h).guards = s.guards := rfl
@[simp] theorem State.update_clk (s : State) (t i : Nat) (v : Option Line) (h : Bool) : (s.update t i v h).clk = s.clk := rfl
@[simp] theorem State.update_regs (s : State) (t i : Nat) (v : Option Line) (h : Bool) : (s.update t i v h).regs = s.regs := rfl
@[simp] theorem State.update_pend (s : State) (t i : Nat) (v : Option Line) (h : Bool) : (s.update t i v h).pend = s.pend := rfl
@[simp] theorem State.update_hiLatch (s : State) (t i : Nat) (v : Option Line) (h : Bool) : (s.update t i v h).hiLatch = s.hiLatch := rfl
@[simp] theorem State.update_loHold (s : State) (t i : Nat) (v : Option Line) (h : Bool) : (s.update t i v h).loHold = s.loHold := rfl
@[simp] theorem State.update_out (s : State) (t i : Nat) (v : Option Line) (h : Bool) : (s.update t i v h).out = s.out := rfl
@[simp] theorem State.update_freeCtr (s : State) (t i : Nat) (v : Option Line) (h : Bool) : (s.update t i v h).freeCtr = s.freeCtr := rfl
@[simp] theorem State.update_evAcc (s : State) (t i : Nat) (v : Option Line) (h : Bool) : (s.update t i v h).evAcc = s.evAcc := rfl
@[simp] theorem State.update_sys (s : State) (t i : Nat) (v : Option Line) (h : Bool) : (s.update t i v h).sys = s.sys := rfl
@[simp] theorem State.update_hst (s : State) (t i : Nat) (v : Option Line) (h : Bool) : (s.update t i v h).hst = s.hst := rfl
@[simp] theorem State.update_ln (s : State) (t i : Nat) (v : Option Line) (h : Bool) : (s.update t i v h).ln = s.ln := rfl
@[simp] theorem State.update_prt (s : State) (t i : Nat) (v : Option Line) (h : Bool) : (s.update t i v h).prt = s.prt := rfl
@[simp] theorem State.update_cls (s : State) (t i : Nat) (v : Option Line) (h : Bool) : (s.update t i v h).cls = s.cls := rfl
@[simp] theorem State.update_oas (s : State) (t i : Nat) (v : Option Line) (h : Bool) : (s.update t i v h).oas = s.oas := rfl
@[simp] theorem State.update_swc (s : State) (t i : Nat) (v : Option Line) (h : Bool) : (s.update t i v h).swc = s.swc := rfl
@[simp] theorem State.update_egr (s : State) (t i : Nat) (v : Option Line) (h : Bool) : (s.update t i v h).egr = s.egr := rfl
@[simp] theorem State.update_spe (s : State) (t i : Nat) (v : Option Line) (h : Bool) : (s.update t i v h).spe = s.spe := rfl
@[simp] theorem State.update_tme (s : State) (t i : Nat) (v : Option Line) (h : Bool) : (s.update t i v h).tme = s.tme := rfl
@[simp] theorem State.update_seif (s : State) (t i : Nat) (v : Option Line) (h : Bool) : (s.update t i v h).seif = s.seif := rfl
@[simp] theorem State.update_ref (s : State) (t i : Nat) (v : Option Line) (h : Bool) : (s.update t i v h).ref = s.ref := rfl
@[simp] theorem State.update_outp (s : State) (t i : Nat) (v : Option Line) (h : Bool) : (s.update t i v h).outp = s.outp := rfl
@[simp] theorem State.update_pair (s : State) (t i : Nat) (v : Option Line) (h : Bool) : (s.update t i v h).pair = s.pair := rfl
@[simp] theorem State.update_mbx (s : State) (t i : Nat) (v : Option Line) (h : Bool) : (s.update t i v h).mbx = s.mbx := rfl
@[simp] theorem State.update_chk (s : State) (t i : Nat) (v : Option Line) (h : Bool) : (s.update t i v h).chk = s.chk := rfl
@[simp] theorem State.update_obs (s : State) (t i : Nat) (v : Option Line) (h : Bool) : (s.update t i v h).obs = s.obs := rfl
@[simp] theorem State.update_cairn (s : State) (t i : Nat) (v : Option Line) (h : Bool) : (s.update t i v h).cairn = s.cairn := rfl

@[simp] theorem State.still_clk (f : State → State) (s : State) : (State.still f s).clk = s.clk := rfl
end Machine
end Sys2Proof
end

