-- ==== Sys2Proof/Laws/Ops.lean ====
section
/-!
SUPPORT. What the shared operations leave alone, field by field: events, counters, several register writes at once; and what
a register reads after a write.
-/
namespace Sys2Proof
namespace Machine

/-! ### Registers -/

/-- Keys of different fields differ, for indices below 8192. -/
theorem Fld.key_ne {f g : Fld} (h : f ≠ g) {i j : Nat} (hi : i < 8192) (hj : j < 8192) : f.key i ≠ g.key j := by
  intro e
  apply h
  unfold Fld.key at e
  have h2 := congrArg Fld.ofNat (show f.ctorIdx = g.ctorIdx by omega)
  rwa [Fld.ofNat_ctorIdx, Fld.ofNat_ctorIdx] at h2

/-- A register reads what was last written, cut to its width. -/
@[simp] theorem State.reg_setReg (s : State) (f : Fld) (i v : Nat) : (s.setReg f i v).reg f i = v % 2 ^ f.width :=
  tget_tset_self _ _ _ _

/-- A write leaves the other indices of its field alone. -/
theorem State.reg_setReg_index (s : State) (f : Fld) {i j : Nat} (v : Nat) (h : j ≠ i) : (s.setReg f i v).reg f j = s.reg f j := by
  unfold State.reg State.setReg
  have hk : f.key j ≠ f.key i := by unfold Fld.key; omega
  exact tget_tset_ne _ _ _ hk _

/-- A write leaves every other field alone. -/
theorem State.reg_setReg_ne (s : State) {f g : Fld} (h : g ≠ f) {i j : Nat} (v : Nat) (hi : i < 8192) (hj : j < 8192) :
    (s.setReg f i v).reg g j = s.reg g j := by
  unfold State.reg State.setReg
  have hk : g.key j ≠ f.key i := Fld.key_ne h hj hi
  exact tget_tset_ne _ _ _ hk _

@[simp] theorem State.setRegs_pending (s : State) (l : List (Fld × Nat × Nat)) : (s.setRegs l).pending = s.pending := by
  unfold State.setRegs; induction l generalizing s with
  | nil => rfl
  | cons x t ih => simp [List.foldl_cons, ih]
@[simp] theorem State.setRegs_hw (s : State) (l : List (Fld × Nat × Nat)) : (s.setRegs l).hw = s.hw := by
  unfold State.setRegs; induction l generalizing s with
  | nil => rfl
  | cons x t ih => simp [List.foldl_cons, ih]
@[simp] theorem State.setRegs_guards (s : State) (l : List (Fld × Nat × Nat)) : (s.setRegs l).guards = s.guards := by
  unfold State.setRegs; induction l generalizing s with
  | nil => rfl
  | cons x t ih => simp [List.foldl_cons, ih]
@[simp] theorem State.setRegs_clk (s : State) (l : List (Fld × Nat × Nat)) : (s.setRegs l).clk = s.clk := by
  unfold State.setRegs; induction l generalizing s with
  | nil => rfl
  | cons x t ih => simp [List.foldl_cons, ih]
@[simp] theorem State.setRegs_pend (s : State) (l : List (Fld × Nat × Nat)) : (s.setRegs l).pend = s.pend := by
  unfold State.setRegs; induction l generalizing s with
  | nil => rfl
  | cons x t ih => simp [List.foldl_cons, ih]
@[simp] theorem State.setRegs_hiLatch (s : State) (l : List (Fld × Nat × Nat)) : (s.setRegs l).hiLatch = s.hiLatch := by
  unfold State.setRegs; induction l generalizing s with
  | nil => rfl
  | cons x t ih => simp [List.foldl_cons, ih]
@[simp] theorem State.setRegs_loHold (s : State) (l : List (Fld × Nat × Nat)) : (s.setRegs l).loHold = s.loHold := by
  unfold State.setRegs; induction l generalizing s with
  | nil => rfl
  | cons x t ih => simp [List.foldl_cons, ih]
@[simp] theorem State.setRegs_out (s : State) (l : List (Fld × Nat × Nat)) : (s.setRegs l).out = s.out := by
  unfold State.setRegs; induction l generalizing s with
  | nil => rfl
  | cons x t ih => simp [List.foldl_cons, ih]
@[simp] theorem State.setRegs_freeCtr (s : State) (l : List (Fld × Nat × Nat)) : (s.setRegs l).freeCtr = s.freeCtr := by
  unfold State.setRegs; induction l generalizing s with
  | nil => rfl
  | cons x t ih => simp [List.foldl_cons, ih]
@[simp] theorem State.setRegs_evAcc (s : State) (l : List (Fld × Nat × Nat)) : (s.setRegs l).evAcc = s.evAcc := by
  unfold State.setRegs; induction l generalizing s with
  | nil => rfl
  | cons x t ih => simp [List.foldl_cons, ih]
@[simp] theorem State.setRegs_store (s : State) (l : List (Fld × Nat × Nat)) : (s.setRegs l).store = s.store := by
  unfold State.setRegs; induction l generalizing s with
  | nil => rfl
  | cons x t ih => simp [List.foldl_cons, ih]
@[simp] theorem State.setRegs_sys (s : State) (l : List (Fld × Nat × Nat)) : (s.setRegs l).sys = s.sys := by
  unfold State.setRegs; induction l generalizing s with
  | nil => rfl
  | cons x t ih => simp [List.foldl_cons, ih]
@[simp] theorem State.setRegs_hst (s : State) (l : List (Fld × Nat × Nat)) : (s.setRegs l).hst = s.hst := by
  unfold State.setRegs; induction l generalizing s with
  | nil => rfl
  | cons x t ih => simp [List.foldl_cons, ih]
@[simp] theorem State.setRegs_ln (s : State) (l : List (Fld × Nat × Nat)) : (s.setRegs l).ln = s.ln := by
  unfold State.setRegs; induction l generalizing s with
  | nil => rfl
  | cons x t ih => simp [List.foldl_cons, ih]
@[simp] theorem State.setRegs_prt (s : State) (l : List (Fld × Nat × Nat)) : (s.setRegs l).prt = s.prt := by
  unfold State.setRegs; induction l generalizing s with
  | nil => rfl
  | cons x t ih => simp [List.foldl_cons, ih]
@[simp] theorem State.setRegs_cls (s : State) (l : List (Fld × Nat × Nat)) : (s.setRegs l).cls = s.cls := by
  unfold State.setRegs; induction l generalizing s with
  | nil => rfl
  | cons x t ih => simp [List.foldl_cons, ih]
@[simp] theorem State.setRegs_oas (s : State) (l : List (Fld × Nat × Nat)) : (s.setRegs l).oas = s.oas := by
  unfold State.setRegs; induction l generalizing s with
  | nil => rfl
  | cons x t ih => simp [List.foldl_cons, ih]
@[simp] theorem State.setRegs_swc (s : State) (l : List (Fld × Nat × Nat)) : (s.setRegs l).swc = s.swc := by
  unfold State.setRegs; induction l generalizing s with
  | nil => rfl
  | cons x t ih => simp [List.foldl_cons, ih]
@[simp] theorem State.setRegs_egr (s : State) (l : List (Fld × Nat × Nat)) : (s.setRegs l).egr = s.egr := by
  unfold State.setRegs; induction l generalizing s with
  | nil => rfl
  | cons x t ih => simp [List.foldl_cons, ih]
@[simp] theorem State.setRegs_spe (s : State) (l : List (Fld × Nat × Nat)) : (s.setRegs l).spe = s.spe := by
  unfold State.setRegs; induction l generalizing s with
  | nil => rfl
  | cons x t ih => simp [List.foldl_cons, ih]
@[simp] theorem State.setRegs_tme (s : State) (l : List (Fld × Nat × Nat)) : (s.setRegs l).tme = s.tme := by
  unfold State.setRegs; induction l generalizing s with
  | nil => rfl
  | cons x t ih => simp [List.foldl_cons, ih]
@[simp] theorem State.setRegs_seif (s : State) (l : List (Fld × Nat × Nat)) : (s.setRegs l).seif = s.seif := by
  unfold State.setRegs; induction l generalizing s with
  | nil => rfl
  | cons x t ih => simp [List.foldl_cons, ih]
@[simp] theorem State.setRegs_ref (s : State) (l : List (Fld × Nat × Nat)) : (s.setRegs l).ref = s.ref := by
  unfold State.setRegs; induction l generalizing s with
  | nil => rfl
  | cons x t ih => simp [List.foldl_cons, ih]
@[simp] theorem State.setRegs_outp (s : State) (l : List (Fld × Nat × Nat)) : (s.setRegs l).outp = s.outp := by
  unfold State.setRegs; induction l generalizing s with
  | nil => rfl
  | cons x t ih => simp [List.foldl_cons, ih]
@[simp] theorem State.setRegs_pair (s : State) (l : List (Fld × Nat × Nat)) : (s.setRegs l).pair = s.pair := by
  unfold State.setRegs; induction l generalizing s with
  | nil => rfl
  | cons x t ih => simp [List.foldl_cons, ih]
@[simp] theorem State.setRegs_mbx (s : State) (l : List (Fld × Nat × Nat)) : (s.setRegs l).mbx = s.mbx := by
  unfold State.setRegs; induction l generalizing s with
  | nil => rfl
  | cons x t ih => simp [List.foldl_cons, ih]
@[simp] theorem State.setRegs_chk (s : State) (l : List (Fld × Nat × Nat)) : (s.setRegs l).chk = s.chk := by
  unfold State.setRegs; induction l generalizing s with
  | nil => rfl
  | cons x t ih => simp [List.foldl_cons, ih]
@[simp] theorem State.setRegs_obs (s : State) (l : List (Fld × Nat × Nat)) : (s.setRegs l).obs = s.obs := by
  unfold State.setRegs; induction l generalizing s with
  | nil => rfl
  | cons x t ih => simp [List.foldl_cons, ih]
@[simp] theorem State.setRegs_cairn (s : State) (l : List (Fld × Nat × Nat)) : (s.setRegs l).cairn = s.cairn := by
  unfold State.setRegs; induction l generalizing s with
  | nil => rfl
  | cons x t ih => simp [List.foldl_cons, ih]

/-! ### Events -/

@[simp] theorem State.raiseBy_pending (s : State) (e own : Nat) (d : List Nat) (m : List Nat → List Nat → List Nat) (fn : Option Nat) : (s.raiseBy e own d m fn).pending = s.pending := by unfold State.raiseBy; split <;> rfl
@[simp] theorem State.raiseBy_hw (s : State) (e own : Nat) (d : List Nat) (m : List Nat → List Nat → List Nat) (fn : Option Nat) : (s.raiseBy e own d m fn).hw = s.hw := by unfold State.raiseBy; split <;> rfl
@[simp] theorem State.raiseBy_guards (s : State) (e own : Nat) (d : List Nat) (m : List Nat → List Nat → List Nat) (fn : Option Nat) : (s.raiseBy e own d m fn).guards = s.guards := by unfold State.raiseBy; split <;> rfl
@[simp] theorem State.raiseBy_clk (s : State) (e own : Nat) (d : List Nat) (m : List Nat → List Nat → List Nat) (fn : Option Nat) : (s.raiseBy e own d m fn).clk = s.clk := by unfold State.raiseBy; split <;> rfl
@[simp] theorem State.raiseBy_regs (s : State) (e own : Nat) (d : List Nat) (m : List Nat → List Nat → List Nat) (fn : Option Nat) : (s.raiseBy e own d m fn).regs = s.regs := by unfold State.raiseBy; split <;> rfl
@[simp] theorem State.raiseBy_pend (s : State) (e own : Nat) (d : List Nat) (m : List Nat → List Nat → List Nat) (fn : Option Nat) : (s.raiseBy e own d m fn).pend = s.pend := by unfold State.raiseBy; split <;> rfl
@[simp] theorem State.raiseBy_hiLatch (s : State) (e own : Nat) (d : List Nat) (m : List Nat → List Nat → List Nat) (fn : Option Nat) : (s.raiseBy e own d m fn).hiLatch = s.hiLatch := by unfold State.raiseBy; split <;> rfl
@[simp] theorem State.raiseBy_loHold (s : State) (e own : Nat) (d : List Nat) (m : List Nat → List Nat → List Nat) (fn : Option Nat) : (s.raiseBy e own d m fn).loHold = s.loHold := by unfold State.raiseBy; split <;> rfl
@[simp] theorem State.raiseBy_out (s : State) (e own : Nat) (d : List Nat) (m : List Nat → List Nat → List Nat) (fn : Option Nat) : (s.raiseBy e own d m fn).out = s.out := by unfold State.raiseBy; split <;> rfl
@[simp] theorem State.raiseBy_freeCtr (s : State) (e own : Nat) (d : List Nat) (m : List Nat → List Nat → List Nat) (fn : Option Nat) : (s.raiseBy e own d m fn).freeCtr = s.freeCtr := by unfold State.raiseBy; split <;> rfl
@[simp] theorem State.raiseBy_store (s : State) (e own : Nat) (d : List Nat) (m : List Nat → List Nat → List Nat) (fn : Option Nat) : (s.raiseBy e own d m fn).store = s.store := by unfold State.raiseBy; split <;> rfl
@[simp] theorem State.raiseBy_sys (s : State) (e own : Nat) (d : List Nat) (m : List Nat → List Nat → List Nat) (fn : Option Nat) : (s.raiseBy e own d m fn).sys = s.sys := by unfold State.raiseBy; split <;> rfl
@[simp] theorem State.raiseBy_hst (s : State) (e own : Nat) (d : List Nat) (m : List Nat → List Nat → List Nat) (fn : Option Nat) : (s.raiseBy e own d m fn).hst = s.hst := by unfold State.raiseBy; split <;> rfl
@[simp] theorem State.raiseBy_ln (s : State) (e own : Nat) (d : List Nat) (m : List Nat → List Nat → List Nat) (fn : Option Nat) : (s.raiseBy e own d m fn).ln = s.ln := by unfold State.raiseBy; split <;> rfl
@[simp] theorem State.raiseBy_prt (s : State) (e own : Nat) (d : List Nat) (m : List Nat → List Nat → List Nat) (fn : Option Nat) : (s.raiseBy e own d m fn).prt = s.prt := by unfold State.raiseBy; split <;> rfl
@[simp] theorem State.raiseBy_cls (s : State) (e own : Nat) (d : List Nat) (m : List Nat → List Nat → List Nat) (fn : Option Nat) : (s.raiseBy e own d m fn).cls = s.cls := by unfold State.raiseBy; split <;> rfl
@[simp] theorem State.raiseBy_oas (s : State) (e own : Nat) (d : List Nat) (m : List Nat → List Nat → List Nat) (fn : Option Nat) : (s.raiseBy e own d m fn).oas = s.oas := by unfold State.raiseBy; split <;> rfl
@[simp] theorem State.raiseBy_swc (s : State) (e own : Nat) (d : List Nat) (m : List Nat → List Nat → List Nat) (fn : Option Nat) : (s.raiseBy e own d m fn).swc = s.swc := by unfold State.raiseBy; split <;> rfl
@[simp] theorem State.raiseBy_egr (s : State) (e own : Nat) (d : List Nat) (m : List Nat → List Nat → List Nat) (fn : Option Nat) : (s.raiseBy e own d m fn).egr = s.egr := by unfold State.raiseBy; split <;> rfl
@[simp] theorem State.raiseBy_spe (s : State) (e own : Nat) (d : List Nat) (m : List Nat → List Nat → List Nat) (fn : Option Nat) : (s.raiseBy e own d m fn).spe = s.spe := by unfold State.raiseBy; split <;> rfl
@[simp] theorem State.raiseBy_tme (s : State) (e own : Nat) (d : List Nat) (m : List Nat → List Nat → List Nat) (fn : Option Nat) : (s.raiseBy e own d m fn).tme = s.tme := by unfold State.raiseBy; split <;> rfl
@[simp] theorem State.raiseBy_seif (s : State) (e own : Nat) (d : List Nat) (m : List Nat → List Nat → List Nat) (fn : Option Nat) : (s.raiseBy e own d m fn).seif = s.seif := by unfold State.raiseBy; split <;> rfl
@[simp] theorem State.raiseBy_ref (s : State) (e own : Nat) (d : List Nat) (m : List Nat → List Nat → List Nat) (fn : Option Nat) : (s.raiseBy e own d m fn).ref = s.ref := by unfold State.raiseBy; split <;> rfl
@[simp] theorem State.raiseBy_outp (s : State) (e own : Nat) (d : List Nat) (m : List Nat → List Nat → List Nat) (fn : Option Nat) : (s.raiseBy e own d m fn).outp = s.outp := by unfold State.raiseBy; split <;> rfl
@[simp] theorem State.raiseBy_pair (s : State) (e own : Nat) (d : List Nat) (m : List Nat → List Nat → List Nat) (fn : Option Nat) : (s.raiseBy e own d m fn).pair = s.pair := by unfold State.raiseBy; split <;> rfl
@[simp] theorem State.raiseBy_mbx (s : State) (e own : Nat) (d : List Nat) (m : List Nat → List Nat → List Nat) (fn : Option Nat) : (s.raiseBy e own d m fn).mbx = s.mbx := by unfold State.raiseBy; split <;> rfl
@[simp] theorem State.raiseBy_chk (s : State) (e own : Nat) (d : List Nat) (m : List Nat → List Nat → List Nat) (fn : Option Nat) : (s.raiseBy e own d m fn).chk = s.chk := by unfold State.raiseBy; split <;> rfl
@[simp] theorem State.raiseBy_obs (s : State) (e own : Nat) (d : List Nat) (m : List Nat → List Nat → List Nat) (fn : Option Nat) : (s.raiseBy e own d m fn).obs = s.obs := by unfold State.raiseBy; split <;> rfl

@[simp] theorem State.ev_pending (s : State) (e : Nat) (d : List (Nat × Nat)) : (s.ev e d).pending = s.pending := by simp [State.ev]
@[simp] theorem State.ev_hw (s : State) (e : Nat) (d : List (Nat × Nat)) : (s.ev e d).hw = s.hw := by simp [State.ev]
@[simp] theorem State.ev_guards (s : State) (e : Nat) (d : List (Nat × Nat)) : (s.ev e d).guards = s.guards := by simp [State.ev]
@[simp] theorem State.ev_clk (s : State) (e : Nat) (d : List (Nat × Nat)) : (s.ev e d).clk = s.clk := by simp [State.ev]
@[simp] theorem State.ev_regs (s : State) (e : Nat) (d : List (Nat × Nat)) : (s.ev e d).regs = s.regs := by simp [State.ev]
@[simp] theorem State.ev_pend (s : State) (e : Nat) (d : List (Nat × Nat)) : (s.ev e d).pend = s.pend := by simp [State.ev]
@[simp] theorem State.ev_hiLatch (s : State) (e : Nat) (d : List (Nat × Nat)) : (s.ev e d).hiLatch = s.hiLatch := by simp [State.ev]
@[simp] theorem State.ev_loHold (s : State) (e : Nat) (d : List (Nat × Nat)) : (s.ev e d).loHold = s.loHold := by simp [State.ev]
@[simp] theorem State.ev_out (s : State) (e : Nat) (d : List (Nat × Nat)) : (s.ev e d).out = s.out := by simp [State.ev]
@[simp] theorem State.ev_freeCtr (s : State) (e : Nat) (d : List (Nat × Nat)) : (s.ev e d).freeCtr = s.freeCtr := by simp [State.ev]
@[simp] theorem State.ev_store (s : State) (e : Nat) (d : List (Nat × Nat)) : (s.ev e d).store = s.store := by simp [State.ev]
@[simp] theorem State.ev_sys (s : State) (e : Nat) (d : List (Nat × Nat)) : (s.ev e d).sys = s.sys := by simp [State.ev]
@[simp] theorem State.ev_hst (s : State) (e : Nat) (d : List (Nat × Nat)) : (s.ev e d).hst = s.hst := by simp [State.ev]
@[simp] theorem State.ev_ln (s : State) (e : Nat) (d : List (Nat × Nat)) : (s.ev e d).ln = s.ln := by simp [State.ev]
@[simp] theorem State.ev_prt (s : State) (e : Nat) (d : List (Nat × Nat)) : (s.ev e d).prt = s.prt := by simp [State.ev]
@[simp] theorem State.ev_cls (s : State) (e : Nat) (d : List (Nat × Nat)) : (s.ev e d).cls = s.cls := by simp [State.ev]
@[simp] theorem State.ev_oas (s : State) (e : Nat) (d : List (Nat × Nat)) : (s.ev e d).oas = s.oas := by simp [State.ev]
@[simp] theorem State.ev_swc (s : State) (e : Nat) (d : List (Nat × Nat)) : (s.ev e d).swc = s.swc := by simp [State.ev]
@[simp] theorem State.ev_egr (s : State) (e : Nat) (d : List (Nat × Nat)) : (s.ev e d).egr = s.egr := by simp [State.ev]
@[simp] theorem State.ev_spe (s : State) (e : Nat) (d : List (Nat × Nat)) : (s.ev e d).spe = s.spe := by simp [State.ev]
@[simp] theorem State.ev_tme (s : State) (e : Nat) (d : List (Nat × Nat)) : (s.ev e d).tme = s.tme := by simp [State.ev]
@[simp] theorem State.ev_seif (s : State) (e : Nat) (d : List (Nat × Nat)) : (s.ev e d).seif = s.seif := by simp [State.ev]
@[simp] theorem State.ev_ref (s : State) (e : Nat) (d : List (Nat × Nat)) : (s.ev e d).ref = s.ref := by simp [State.ev]
@[simp] theorem State.ev_outp (s : State) (e : Nat) (d : List (Nat × Nat)) : (s.ev e d).outp = s.outp := by simp [State.ev]
@[simp] theorem State.ev_pair (s : State) (e : Nat) (d : List (Nat × Nat)) : (s.ev e d).pair = s.pair := by simp [State.ev]
@[simp] theorem State.ev_mbx (s : State) (e : Nat) (d : List (Nat × Nat)) : (s.ev e d).mbx = s.mbx := by simp [State.ev]
@[simp] theorem State.ev_chk (s : State) (e : Nat) (d : List (Nat × Nat)) : (s.ev e d).chk = s.chk := by simp [State.ev]
@[simp] theorem State.ev_obs (s : State) (e : Nat) (d : List (Nat × Nat)) : (s.ev e d).obs = s.obs := by simp [State.ev]

@[simp] theorem State.evFn_pending (s : State) (e f : Nat) (d : List (Nat × Nat)) : (s.evFn e f d).pending = s.pending := by simp [State.evFn]
@[simp] theorem State.evFn_hw (s : State) (e f : Nat) (d : List (Nat × Nat)) : (s.evFn e f d).hw = s.hw := by simp [State.evFn]
@[simp] theorem State.evFn_guards (s : State) (e f : Nat) (d : List (Nat × Nat)) : (s.evFn e f d).guards = s.guards := by simp [State.evFn]
@[simp] theorem State.evFn_clk (s : State) (e f : Nat) (d : List (Nat × Nat)) : (s.evFn e f d).clk = s.clk := by simp [State.evFn]
@[simp] theorem State.evFn_regs (s : State) (e f : Nat) (d : List (Nat × Nat)) : (s.evFn e f d).regs = s.regs := by simp [State.evFn]
@[simp] theorem State.evFn_pend (s : State) (e f : Nat) (d : List (Nat × Nat)) : (s.evFn e f d).pend = s.pend := by simp [State.evFn]
@[simp] theorem State.evFn_hiLatch (s : State) (e f : Nat) (d : List (Nat × Nat)) : (s.evFn e f d).hiLatch = s.hiLatch := by simp [State.evFn]
@[simp] theorem State.evFn_loHold (s : State) (e f : Nat) (d : List (Nat × Nat)) : (s.evFn e f d).loHold = s.loHold := by simp [State.evFn]
@[simp] theorem State.evFn_out (s : State) (e f : Nat) (d : List (Nat × Nat)) : (s.evFn e f d).out = s.out := by simp [State.evFn]
@[simp] theorem State.evFn_freeCtr (s : State) (e f : Nat) (d : List (Nat × Nat)) : (s.evFn e f d).freeCtr = s.freeCtr := by simp [State.evFn]
@[simp] theorem State.evFn_store (s : State) (e f : Nat) (d : List (Nat × Nat)) : (s.evFn e f d).store = s.store := by simp [State.evFn]
@[simp] theorem State.evFn_sys (s : State) (e f : Nat) (d : List (Nat × Nat)) : (s.evFn e f d).sys = s.sys := by simp [State.evFn]
@[simp] theorem State.evFn_hst (s : State) (e f : Nat) (d : List (Nat × Nat)) : (s.evFn e f d).hst = s.hst := by simp [State.evFn]
@[simp] theorem State.evFn_ln (s : State) (e f : Nat) (d : List (Nat × Nat)) : (s.evFn e f d).ln = s.ln := by simp [State.evFn]
@[simp] theorem State.evFn_prt (s : State) (e f : Nat) (d : List (Nat × Nat)) : (s.evFn e f d).prt = s.prt := by simp [State.evFn]
@[simp] theorem State.evFn_cls (s : State) (e f : Nat) (d : List (Nat × Nat)) : (s.evFn e f d).cls = s.cls := by simp [State.evFn]
@[simp] theorem State.evFn_oas (s : State) (e f : Nat) (d : List (Nat × Nat)) : (s.evFn e f d).oas = s.oas := by simp [State.evFn]
@[simp] theorem State.evFn_swc (s : State) (e f : Nat) (d : List (Nat × Nat)) : (s.evFn e f d).swc = s.swc := by simp [State.evFn]
@[simp] theorem State.evFn_egr (s : State) (e f : Nat) (d : List (Nat × Nat)) : (s.evFn e f d).egr = s.egr := by simp [State.evFn]
@[simp] theorem State.evFn_spe (s : State) (e f : Nat) (d : List (Nat × Nat)) : (s.evFn e f d).spe = s.spe := by simp [State.evFn]
@[simp] theorem State.evFn_tme (s : State) (e f : Nat) (d : List (Nat × Nat)) : (s.evFn e f d).tme = s.tme := by simp [State.evFn]
@[simp] theorem State.evFn_seif (s : State) (e f : Nat) (d : List (Nat × Nat)) : (s.evFn e f d).seif = s.seif := by simp [State.evFn]
@[simp] theorem State.evFn_ref (s : State) (e f : Nat) (d : List (Nat × Nat)) : (s.evFn e f d).ref = s.ref := by simp [State.evFn]
@[simp] theorem State.evFn_outp (s : State) (e f : Nat) (d : List (Nat × Nat)) : (s.evFn e f d).outp = s.outp := by simp [State.evFn]
@[simp] theorem State.evFn_pair (s : State) (e f : Nat) (d : List (Nat × Nat)) : (s.evFn e f d).pair = s.pair := by simp [State.evFn]
@[simp] theorem State.evFn_mbx (s : State) (e f : Nat) (d : List (Nat × Nat)) : (s.evFn e f d).mbx = s.mbx := by simp [State.evFn]
@[simp] theorem State.evFn_chk (s : State) (e f : Nat) (d : List (Nat × Nat)) : (s.evFn e f d).chk = s.chk := by simp [State.evFn]
@[simp] theorem State.evFn_obs (s : State) (e f : Nat) (d : List (Nat × Nat)) : (s.evFn e f d).obs = s.obs := by simp [State.evFn]

@[simp] theorem State.evSevBy_pending (s : State) (e own : Nat) (d : List (Nat × Nat)) : (s.evSevBy e own d).pending = s.pending := by simp [State.evSevBy]
@[simp] theorem State.evSevBy_hw (s : State) (e own : Nat) (d : List (Nat × Nat)) : (s.evSevBy e own d).hw = s.hw := by simp [State.evSevBy]
@[simp] theorem State.evSevBy_guards (s : State) (e own : Nat) (d : List (Nat × Nat)) : (s.evSevBy e own d).guards = s.guards := by simp [State.evSevBy]
@[simp] theorem State.evSevBy_clk (s : State) (e own : Nat) (d : List (Nat × Nat)) : (s.evSevBy e own d).clk = s.clk := by simp [State.evSevBy]
@[simp] theorem State.evSevBy_regs (s : State) (e own : Nat) (d : List (Nat × Nat)) : (s.evSevBy e own d).regs = s.regs := by simp [State.evSevBy]
@[simp] theorem State.evSevBy_pend (s : State) (e own : Nat) (d : List (Nat × Nat)) : (s.evSevBy e own d).pend = s.pend := by simp [State.evSevBy]
@[simp] theorem State.evSevBy_hiLatch (s : State) (e own : Nat) (d : List (Nat × Nat)) : (s.evSevBy e own d).hiLatch = s.hiLatch := by simp [State.evSevBy]
@[simp] theorem State.evSevBy_loHold (s : State) (e own : Nat) (d : List (Nat × Nat)) : (s.evSevBy e own d).loHold = s.loHold := by simp [State.evSevBy]
@[simp] theorem State.evSevBy_out (s : State) (e own : Nat) (d : List (Nat × Nat)) : (s.evSevBy e own d).out = s.out := by simp [State.evSevBy]
@[simp] theorem State.evSevBy_freeCtr (s : State) (e own : Nat) (d : List (Nat × Nat)) : (s.evSevBy e own d).freeCtr = s.freeCtr := by simp [State.evSevBy]
@[simp] theorem State.evSevBy_store (s : State) (e own : Nat) (d : List (Nat × Nat)) : (s.evSevBy e own d).store = s.store := by simp [State.evSevBy]
@[simp] theorem State.evSevBy_sys (s : State) (e own : Nat) (d : List (Nat × Nat)) : (s.evSevBy e own d).sys = s.sys := by simp [State.evSevBy]
@[simp] theorem State.evSevBy_hst (s : State) (e own : Nat) (d : List (Nat × Nat)) : (s.evSevBy e own d).hst = s.hst := by simp [State.evSevBy]
@[simp] theorem State.evSevBy_ln (s : State) (e own : Nat) (d : List (Nat × Nat)) : (s.evSevBy e own d).ln = s.ln := by simp [State.evSevBy]
@[simp] theorem State.evSevBy_prt (s : State) (e own : Nat) (d : List (Nat × Nat)) : (s.evSevBy e own d).prt = s.prt := by simp [State.evSevBy]
@[simp] theorem State.evSevBy_cls (s : State) (e own : Nat) (d : List (Nat × Nat)) : (s.evSevBy e own d).cls = s.cls := by simp [State.evSevBy]
@[simp] theorem State.evSevBy_oas (s : State) (e own : Nat) (d : List (Nat × Nat)) : (s.evSevBy e own d).oas = s.oas := by simp [State.evSevBy]
@[simp] theorem State.evSevBy_swc (s : State) (e own : Nat) (d : List (Nat × Nat)) : (s.evSevBy e own d).swc = s.swc := by simp [State.evSevBy]
@[simp] theorem State.evSevBy_egr (s : State) (e own : Nat) (d : List (Nat × Nat)) : (s.evSevBy e own d).egr = s.egr := by simp [State.evSevBy]
@[simp] theorem State.evSevBy_spe (s : State) (e own : Nat) (d : List (Nat × Nat)) : (s.evSevBy e own d).spe = s.spe := by simp [State.evSevBy]
@[simp] theorem State.evSevBy_tme (s : State) (e own : Nat) (d : List (Nat × Nat)) : (s.evSevBy e own d).tme = s.tme := by simp [State.evSevBy]
@[simp] theorem State.evSevBy_seif (s : State) (e own : Nat) (d : List (Nat × Nat)) : (s.evSevBy e own d).seif = s.seif := by simp [State.evSevBy]
@[simp] theorem State.evSevBy_ref (s : State) (e own : Nat) (d : List (Nat × Nat)) : (s.evSevBy e own d).ref = s.ref := by simp [State.evSevBy]
@[simp] theorem State.evSevBy_outp (s : State) (e own : Nat) (d : List (Nat × Nat)) : (s.evSevBy e own d).outp = s.outp := by simp [State.evSevBy]
@[simp] theorem State.evSevBy_pair (s : State) (e own : Nat) (d : List (Nat × Nat)) : (s.evSevBy e own d).pair = s.pair := by simp [State.evSevBy]
@[simp] theorem State.evSevBy_mbx (s : State) (e own : Nat) (d : List (Nat × Nat)) : (s.evSevBy e own d).mbx = s.mbx := by simp [State.evSevBy]
@[simp] theorem State.evSevBy_chk (s : State) (e own : Nat) (d : List (Nat × Nat)) : (s.evSevBy e own d).chk = s.chk := by simp [State.evSevBy]
@[simp] theorem State.evSevBy_obs (s : State) (e own : Nat) (d : List (Nat × Nat)) : (s.evSevBy e own d).obs = s.obs := by simp [State.evSevBy]

@[simp] theorem State.evSum_pending (s : State) (e : Nat) (d : List (Nat × Nat)) (m : List Nat → List Nat → List Nat) : (s.evSum e d m).pending = s.pending := by simp [State.evSum]
@[simp] theorem State.evSum_hw (s : State) (e : Nat) (d : List (Nat × Nat)) (m : List Nat → List Nat → List Nat) : (s.evSum e d m).hw = s.hw := by simp [State.evSum]
@[simp] theorem State.evSum_guards (s : State) (e : Nat) (d : List (Nat × Nat)) (m : List Nat → List Nat → List Nat) : (s.evSum e d m).guards = s.guards := by simp [State.evSum]
@[simp] theorem State.evSum_clk (s : State) (e : Nat) (d : List (Nat × Nat)) (m : List Nat → List Nat → List Nat) : (s.evSum e d m).clk = s.clk := by simp [State.evSum]
@[simp] theorem State.evSum_regs (s : State) (e : Nat) (d : List (Nat × Nat)) (m : List Nat → List Nat → List Nat) : (s.evSum e d m).regs = s.regs := by simp [State.evSum]
@[simp] theorem State.evSum_pend (s : State) (e : Nat) (d : List (Nat × Nat)) (m : List Nat → List Nat → List Nat) : (s.evSum e d m).pend = s.pend := by simp [State.evSum]
@[simp] theorem State.evSum_hiLatch (s : State) (e : Nat) (d : List (Nat × Nat)) (m : List Nat → List Nat → List Nat) : (s.evSum e d m).hiLatch = s.hiLatch := by simp [State.evSum]
@[simp] theorem State.evSum_loHold (s : State) (e : Nat) (d : List (Nat × Nat)) (m : List Nat → List Nat → List Nat) : (s.evSum e d m).loHold = s.loHold := by simp [State.evSum]
@[simp] theorem State.evSum_out (s : State) (e : Nat) (d : List (Nat × Nat)) (m : List Nat → List Nat → List Nat) : (s.evSum e d m).out = s.out := by simp [State.evSum]
@[simp] theorem State.evSum_freeCtr (s : State) (e : Nat) (d : List (Nat × Nat)) (m : List Nat → List Nat → List Nat) : (s.evSum e d m).freeCtr = s.freeCtr := by simp [State.evSum]
@[simp] theorem State.evSum_store (s : State) (e : Nat) (d : List (Nat × Nat)) (m : List Nat → List Nat → List Nat) : (s.evSum e d m).store = s.store := by simp [State.evSum]
@[simp] theorem State.evSum_sys (s : State) (e : Nat) (d : List (Nat × Nat)) (m : List Nat → List Nat → List Nat) : (s.evSum e d m).sys = s.sys := by simp [State.evSum]
@[simp] theorem State.evSum_hst (s : State) (e : Nat) (d : List (Nat × Nat)) (m : List Nat → List Nat → List Nat) : (s.evSum e d m).hst = s.hst := by simp [State.evSum]
@[simp] theorem State.evSum_ln (s : State) (e : Nat) (d : List (Nat × Nat)) (m : List Nat → List Nat → List Nat) : (s.evSum e d m).ln = s.ln := by simp [State.evSum]
@[simp] theorem State.evSum_prt (s : State) (e : Nat) (d : List (Nat × Nat)) (m : List Nat → List Nat → List Nat) : (s.evSum e d m).prt = s.prt := by simp [State.evSum]
@[simp] theorem State.evSum_cls (s : State) (e : Nat) (d : List (Nat × Nat)) (m : List Nat → List Nat → List Nat) : (s.evSum e d m).cls = s.cls := by simp [State.evSum]
@[simp] theorem State.evSum_oas (s : State) (e : Nat) (d : List (Nat × Nat)) (m : List Nat → List Nat → List Nat) : (s.evSum e d m).oas = s.oas := by simp [State.evSum]
@[simp] theorem State.evSum_swc (s : State) (e : Nat) (d : List (Nat × Nat)) (m : List Nat → List Nat → List Nat) : (s.evSum e d m).swc = s.swc := by simp [State.evSum]
@[simp] theorem State.evSum_egr (s : State) (e : Nat) (d : List (Nat × Nat)) (m : List Nat → List Nat → List Nat) : (s.evSum e d m).egr = s.egr := by simp [State.evSum]
@[simp] theorem State.evSum_spe (s : State) (e : Nat) (d : List (Nat × Nat)) (m : List Nat → List Nat → List Nat) : (s.evSum e d m).spe = s.spe := by simp [State.evSum]
@[simp] theorem State.evSum_tme (s : State) (e : Nat) (d : List (Nat × Nat)) (m : List Nat → List Nat → List Nat) : (s.evSum e d m).tme = s.tme := by simp [State.evSum]
@[simp] theorem State.evSum_seif (s : State) (e : Nat) (d : List (Nat × Nat)) (m : List Nat → List Nat → List Nat) : (s.evSum e d m).seif = s.seif := by simp [State.evSum]
@[simp] theorem State.evSum_ref (s : State) (e : Nat) (d : List (Nat × Nat)) (m : List Nat → List Nat → List Nat) : (s.evSum e d m).ref = s.ref := by simp [State.evSum]
@[simp] theorem State.evSum_outp (s : State) (e : Nat) (d : List (Nat × Nat)) (m : List Nat → List Nat → List Nat) : (s.evSum e d m).outp = s.outp := by simp [State.evSum]
@[simp] theorem State.evSum_pair (s : State) (e : Nat) (d : List (Nat × Nat)) (m : List Nat → List Nat → List Nat) : (s.evSum e d m).pair = s.pair := by simp [State.evSum]
@[simp] theorem State.evSum_mbx (s : State) (e : Nat) (d : List (Nat × Nat)) (m : List Nat → List Nat → List Nat) : (s.evSum e d m).mbx = s.mbx := by simp [State.evSum]
@[simp] theorem State.evSum_chk (s : State) (e : Nat) (d : List (Nat × Nat)) (m : List Nat → List Nat → List Nat) : (s.evSum e d m).chk = s.chk := by simp [State.evSum]
@[simp] theorem State.evSum_obs (s : State) (e : Nat) (d : List (Nat × Nat)) (m : List Nat → List Nat → List Nat) : (s.evSum e d m).obs = s.obs := by simp [State.evSum]

@[simp] theorem State.evObj_pending (s : State) (e obj cpos : Nat) (f : Nat → List (Nat × Nat)) : (s.evObj e obj cpos f).pending = s.pending := by unfold State.evObj; dsimp only; rw [apply_ite State.pending]; simp
@[simp] theorem State.evObj_hw (s : State) (e obj cpos : Nat) (f : Nat → List (Nat × Nat)) : (s.evObj e obj cpos f).hw = s.hw := by unfold State.evObj; dsimp only; rw [apply_ite State.hw]; simp
@[simp] theorem State.evObj_guards (s : State) (e obj cpos : Nat) (f : Nat → List (Nat × Nat)) : (s.evObj e obj cpos f).guards = s.guards := by unfold State.evObj; dsimp only; rw [apply_ite State.guards]; simp
@[simp] theorem State.evObj_clk (s : State) (e obj cpos : Nat) (f : Nat → List (Nat × Nat)) : (s.evObj e obj cpos f).clk = s.clk := by unfold State.evObj; dsimp only; rw [apply_ite State.clk]; simp
@[simp] theorem State.evObj_regs (s : State) (e obj cpos : Nat) (f : Nat → List (Nat × Nat)) : (s.evObj e obj cpos f).regs = s.regs := by unfold State.evObj; dsimp only; rw [apply_ite State.regs]; simp
@[simp] theorem State.evObj_pend (s : State) (e obj cpos : Nat) (f : Nat → List (Nat × Nat)) : (s.evObj e obj cpos f).pend = s.pend := by unfold State.evObj; dsimp only; rw [apply_ite State.pend]; simp
@[simp] theorem State.evObj_hiLatch (s : State) (e obj cpos : Nat) (f : Nat → List (Nat × Nat)) : (s.evObj e obj cpos f).hiLatch = s.hiLatch := by unfold State.evObj; dsimp only; rw [apply_ite State.hiLatch]; simp
@[simp] theorem State.evObj_loHold (s : State) (e obj cpos : Nat) (f : Nat → List (Nat × Nat)) : (s.evObj e obj cpos f).loHold = s.loHold := by unfold State.evObj; dsimp only; rw [apply_ite State.loHold]; simp
@[simp] theorem State.evObj_out (s : State) (e obj cpos : Nat) (f : Nat → List (Nat × Nat)) : (s.evObj e obj cpos f).out = s.out := by unfold State.evObj; dsimp only; rw [apply_ite State.out]; simp
@[simp] theorem State.evObj_freeCtr (s : State) (e obj cpos : Nat) (f : Nat → List (Nat × Nat)) : (s.evObj e obj cpos f).freeCtr = s.freeCtr := by unfold State.evObj; dsimp only; rw [apply_ite State.freeCtr]; simp
@[simp] theorem State.evObj_store (s : State) (e obj cpos : Nat) (f : Nat → List (Nat × Nat)) : (s.evObj e obj cpos f).store = s.store := by unfold State.evObj; dsimp only; rw [apply_ite State.store]; simp
@[simp] theorem State.evObj_sys (s : State) (e obj cpos : Nat) (f : Nat → List (Nat × Nat)) : (s.evObj e obj cpos f).sys = s.sys := by unfold State.evObj; dsimp only; rw [apply_ite State.sys]; simp
@[simp] theorem State.evObj_hst (s : State) (e obj cpos : Nat) (f : Nat → List (Nat × Nat)) : (s.evObj e obj cpos f).hst = s.hst := by unfold State.evObj; dsimp only; rw [apply_ite State.hst]; simp
@[simp] theorem State.evObj_ln (s : State) (e obj cpos : Nat) (f : Nat → List (Nat × Nat)) : (s.evObj e obj cpos f).ln = s.ln := by unfold State.evObj; dsimp only; rw [apply_ite State.ln]; simp
@[simp] theorem State.evObj_prt (s : State) (e obj cpos : Nat) (f : Nat → List (Nat × Nat)) : (s.evObj e obj cpos f).prt = s.prt := by unfold State.evObj; dsimp only; rw [apply_ite State.prt]; simp
@[simp] theorem State.evObj_cls (s : State) (e obj cpos : Nat) (f : Nat → List (Nat × Nat)) : (s.evObj e obj cpos f).cls = s.cls := by unfold State.evObj; dsimp only; rw [apply_ite State.cls]; simp
@[simp] theorem State.evObj_oas (s : State) (e obj cpos : Nat) (f : Nat → List (Nat × Nat)) : (s.evObj e obj cpos f).oas = s.oas := by unfold State.evObj; dsimp only; rw [apply_ite State.oas]; simp
@[simp] theorem State.evObj_swc (s : State) (e obj cpos : Nat) (f : Nat → List (Nat × Nat)) : (s.evObj e obj cpos f).swc = s.swc := by unfold State.evObj; dsimp only; rw [apply_ite State.swc]; simp
@[simp] theorem State.evObj_egr (s : State) (e obj cpos : Nat) (f : Nat → List (Nat × Nat)) : (s.evObj e obj cpos f).egr = s.egr := by unfold State.evObj; dsimp only; rw [apply_ite State.egr]; simp
@[simp] theorem State.evObj_spe (s : State) (e obj cpos : Nat) (f : Nat → List (Nat × Nat)) : (s.evObj e obj cpos f).spe = s.spe := by unfold State.evObj; dsimp only; rw [apply_ite State.spe]; simp
@[simp] theorem State.evObj_tme (s : State) (e obj cpos : Nat) (f : Nat → List (Nat × Nat)) : (s.evObj e obj cpos f).tme = s.tme := by unfold State.evObj; dsimp only; rw [apply_ite State.tme]; simp
@[simp] theorem State.evObj_seif (s : State) (e obj cpos : Nat) (f : Nat → List (Nat × Nat)) : (s.evObj e obj cpos f).seif = s.seif := by unfold State.evObj; dsimp only; rw [apply_ite State.seif]; simp
@[simp] theorem State.evObj_ref (s : State) (e obj cpos : Nat) (f : Nat → List (Nat × Nat)) : (s.evObj e obj cpos f).ref = s.ref := by unfold State.evObj; dsimp only; rw [apply_ite State.ref]; simp
@[simp] theorem State.evObj_outp (s : State) (e obj cpos : Nat) (f : Nat → List (Nat × Nat)) : (s.evObj e obj cpos f).outp = s.outp := by unfold State.evObj; dsimp only; rw [apply_ite State.outp]; simp
@[simp] theorem State.evObj_pair (s : State) (e obj cpos : Nat) (f : Nat → List (Nat × Nat)) : (s.evObj e obj cpos f).pair = s.pair := by unfold State.evObj; dsimp only; rw [apply_ite State.pair]; simp
@[simp] theorem State.evObj_mbx (s : State) (e obj cpos : Nat) (f : Nat → List (Nat × Nat)) : (s.evObj e obj cpos f).mbx = s.mbx := by unfold State.evObj; dsimp only; rw [apply_ite State.mbx]; simp
@[simp] theorem State.evObj_chk (s : State) (e obj cpos : Nat) (f : Nat → List (Nat × Nat)) : (s.evObj e obj cpos f).chk = s.chk := by unfold State.evObj; dsimp only; rw [apply_ite State.chk]; simp
@[simp] theorem State.evObj_obs (s : State) (e obj cpos : Nat) (f : Nat → List (Nat × Nat)) : (s.evObj e obj cpos f).obs = s.obs := by unfold State.evObj; dsimp only; rw [apply_ite State.obs]; simp

@[simp] theorem State.evLow_pending (s : State) (e obj : Nat) (r : List (Nat × Nat)) : (s.evLow e obj r).pending = s.pending := by simp [State.evLow]
@[simp] theorem State.evLow_hw (s : State) (e obj : Nat) (r : List (Nat × Nat)) : (s.evLow e obj r).hw = s.hw := by simp [State.evLow]
@[simp] theorem State.evLow_guards (s : State) (e obj : Nat) (r : List (Nat × Nat)) : (s.evLow e obj r).guards = s.guards := by simp [State.evLow]
@[simp] theorem State.evLow_clk (s : State) (e obj : Nat) (r : List (Nat × Nat)) : (s.evLow e obj r).clk = s.clk := by simp [State.evLow]
@[simp] theorem State.evLow_regs (s : State) (e obj : Nat) (r : List (Nat × Nat)) : (s.evLow e obj r).regs = s.regs := by simp [State.evLow]
@[simp] theorem State.evLow_pend (s : State) (e obj : Nat) (r : List (Nat × Nat)) : (s.evLow e obj r).pend = s.pend := by simp [State.evLow]
@[simp] theorem State.evLow_hiLatch (s : State) (e obj : Nat) (r : List (Nat × Nat)) : (s.evLow e obj r).hiLatch = s.hiLatch := by simp [State.evLow]
@[simp] theorem State.evLow_loHold (s : State) (e obj : Nat) (r : List (Nat × Nat)) : (s.evLow e obj r).loHold = s.loHold := by simp [State.evLow]
@[simp] theorem State.evLow_out (s : State) (e obj : Nat) (r : List (Nat × Nat)) : (s.evLow e obj r).out = s.out := by simp [State.evLow]
@[simp] theorem State.evLow_freeCtr (s : State) (e obj : Nat) (r : List (Nat × Nat)) : (s.evLow e obj r).freeCtr = s.freeCtr := by simp [State.evLow]
@[simp] theorem State.evLow_store (s : State) (e obj : Nat) (r : List (Nat × Nat)) : (s.evLow e obj r).store = s.store := by simp [State.evLow]
@[simp] theorem State.evLow_sys (s : State) (e obj : Nat) (r : List (Nat × Nat)) : (s.evLow e obj r).sys = s.sys := by simp [State.evLow]
@[simp] theorem State.evLow_hst (s : State) (e obj : Nat) (r : List (Nat × Nat)) : (s.evLow e obj r).hst = s.hst := by simp [State.evLow]
@[simp] theorem State.evLow_ln (s : State) (e obj : Nat) (r : List (Nat × Nat)) : (s.evLow e obj r).ln = s.ln := by simp [State.evLow]
@[simp] theorem State.evLow_prt (s : State) (e obj : Nat) (r : List (Nat × Nat)) : (s.evLow e obj r).prt = s.prt := by simp [State.evLow]
@[simp] theorem State.evLow_cls (s : State) (e obj : Nat) (r : List (Nat × Nat)) : (s.evLow e obj r).cls = s.cls := by simp [State.evLow]
@[simp] theorem State.evLow_oas (s : State) (e obj : Nat) (r : List (Nat × Nat)) : (s.evLow e obj r).oas = s.oas := by simp [State.evLow]
@[simp] theorem State.evLow_swc (s : State) (e obj : Nat) (r : List (Nat × Nat)) : (s.evLow e obj r).swc = s.swc := by simp [State.evLow]
@[simp] theorem State.evLow_egr (s : State) (e obj : Nat) (r : List (Nat × Nat)) : (s.evLow e obj r).egr = s.egr := by simp [State.evLow]
@[simp] theorem State.evLow_spe (s : State) (e obj : Nat) (r : List (Nat × Nat)) : (s.evLow e obj r).spe = s.spe := by simp [State.evLow]
@[simp] theorem State.evLow_tme (s : State) (e obj : Nat) (r : List (Nat × Nat)) : (s.evLow e obj r).tme = s.tme := by simp [State.evLow]
@[simp] theorem State.evLow_seif (s : State) (e obj : Nat) (r : List (Nat × Nat)) : (s.evLow e obj r).seif = s.seif := by simp [State.evLow]
@[simp] theorem State.evLow_ref (s : State) (e obj : Nat) (r : List (Nat × Nat)) : (s.evLow e obj r).ref = s.ref := by simp [State.evLow]
@[simp] theorem State.evLow_outp (s : State) (e obj : Nat) (r : List (Nat × Nat)) : (s.evLow e obj r).outp = s.outp := by simp [State.evLow]
@[simp] theorem State.evLow_pair (s : State) (e obj : Nat) (r : List (Nat × Nat)) : (s.evLow e obj r).pair = s.pair := by simp [State.evLow]
@[simp] theorem State.evLow_mbx (s : State) (e obj : Nat) (r : List (Nat × Nat)) : (s.evLow e obj r).mbx = s.mbx := by simp [State.evLow]
@[simp] theorem State.evLow_chk (s : State) (e obj : Nat) (r : List (Nat × Nat)) : (s.evLow e obj r).chk = s.chk := by simp [State.evLow]
@[simp] theorem State.evLow_obs (s : State) (e obj : Nat) (r : List (Nat × Nat)) : (s.evLow e obj r).obs = s.obs := by simp [State.evLow]

@[simp] theorem State.evT_pending (s : State) (e : Nat) (l : List (Nat × Nat × Mg)) : (s.evT e l).pending = s.pending := by simp [State.evT]
@[simp] theorem State.evT_hw (s : State) (e : Nat) (l : List (Nat × Nat × Mg)) : (s.evT e l).hw = s.hw := by simp [State.evT]
@[simp] theorem State.evT_guards (s : State) (e : Nat) (l : List (Nat × Nat × Mg)) : (s.evT e l).guards = s.guards := by simp [State.evT]
@[simp] theorem State.evT_clk (s : State) (e : Nat) (l : List (Nat × Nat × Mg)) : (s.evT e l).clk = s.clk := by simp [State.evT]
@[simp] theorem State.evT_regs (s : State) (e : Nat) (l : List (Nat × Nat × Mg)) : (s.evT e l).regs = s.regs := by simp [State.evT]
@[simp] theorem State.evT_pend (s : State) (e : Nat) (l : List (Nat × Nat × Mg)) : (s.evT e l).pend = s.pend := by simp [State.evT]
@[simp] theorem State.evT_hiLatch (s : State) (e : Nat) (l : List (Nat × Nat × Mg)) : (s.evT e l).hiLatch = s.hiLatch := by simp [State.evT]
@[simp] theorem State.evT_loHold (s : State) (e : Nat) (l : List (Nat × Nat × Mg)) : (s.evT e l).loHold = s.loHold := by simp [State.evT]
@[simp] theorem State.evT_out (s : State) (e : Nat) (l : List (Nat × Nat × Mg)) : (s.evT e l).out = s.out := by simp [State.evT]
@[simp] theorem State.evT_freeCtr (s : State) (e : Nat) (l : List (Nat × Nat × Mg)) : (s.evT e l).freeCtr = s.freeCtr := by simp [State.evT]
@[simp] theorem State.evT_store (s : State) (e : Nat) (l : List (Nat × Nat × Mg)) : (s.evT e l).store = s.store := by simp [State.evT]
@[simp] theorem State.evT_sys (s : State) (e : Nat) (l : List (Nat × Nat × Mg)) : (s.evT e l).sys = s.sys := by simp [State.evT]
@[simp] theorem State.evT_hst (s : State) (e : Nat) (l : List (Nat × Nat × Mg)) : (s.evT e l).hst = s.hst := by simp [State.evT]
@[simp] theorem State.evT_ln (s : State) (e : Nat) (l : List (Nat × Nat × Mg)) : (s.evT e l).ln = s.ln := by simp [State.evT]
@[simp] theorem State.evT_prt (s : State) (e : Nat) (l : List (Nat × Nat × Mg)) : (s.evT e l).prt = s.prt := by simp [State.evT]
@[simp] theorem State.evT_cls (s : State) (e : Nat) (l : List (Nat × Nat × Mg)) : (s.evT e l).cls = s.cls := by simp [State.evT]
@[simp] theorem State.evT_oas (s : State) (e : Nat) (l : List (Nat × Nat × Mg)) : (s.evT e l).oas = s.oas := by simp [State.evT]
@[simp] theorem State.evT_swc (s : State) (e : Nat) (l : List (Nat × Nat × Mg)) : (s.evT e l).swc = s.swc := by simp [State.evT]
@[simp] theorem State.evT_egr (s : State) (e : Nat) (l : List (Nat × Nat × Mg)) : (s.evT e l).egr = s.egr := by simp [State.evT]
@[simp] theorem State.evT_spe (s : State) (e : Nat) (l : List (Nat × Nat × Mg)) : (s.evT e l).spe = s.spe := by simp [State.evT]
@[simp] theorem State.evT_tme (s : State) (e : Nat) (l : List (Nat × Nat × Mg)) : (s.evT e l).tme = s.tme := by simp [State.evT]
@[simp] theorem State.evT_seif (s : State) (e : Nat) (l : List (Nat × Nat × Mg)) : (s.evT e l).seif = s.seif := by simp [State.evT]
@[simp] theorem State.evT_ref (s : State) (e : Nat) (l : List (Nat × Nat × Mg)) : (s.evT e l).ref = s.ref := by simp [State.evT]
@[simp] theorem State.evT_outp (s : State) (e : Nat) (l : List (Nat × Nat × Mg)) : (s.evT e l).outp = s.outp := by simp [State.evT]
@[simp] theorem State.evT_pair (s : State) (e : Nat) (l : List (Nat × Nat × Mg)) : (s.evT e l).pair = s.pair := by simp [State.evT]
@[simp] theorem State.evT_mbx (s : State) (e : Nat) (l : List (Nat × Nat × Mg)) : (s.evT e l).mbx = s.mbx := by simp [State.evT]
@[simp] theorem State.evT_chk (s : State) (e : Nat) (l : List (Nat × Nat × Mg)) : (s.evT e l).chk = s.chk := by simp [State.evT]
@[simp] theorem State.evT_obs (s : State) (e : Nat) (l : List (Nat × Nat × Mg)) : (s.evT e l).obs = s.obs := by simp [State.evT]

@[simp] theorem State.evIf_pending (s : State) (c : Bool) (e : Nat) (d : List (Nat × Nat)) : (s.evIf c e d).pending = s.pending := by unfold State.evIf; split <;> simp
@[simp] theorem State.evIf_hw (s : State) (c : Bool) (e : Nat) (d : List (Nat × Nat)) : (s.evIf c e d).hw = s.hw := by unfold State.evIf; split <;> simp
@[simp] theorem State.evIf_guards (s : State) (c : Bool) (e : Nat) (d : List (Nat × Nat)) : (s.evIf c e d).guards = s.guards := by unfold State.evIf; split <;> simp
@[simp] theorem State.evIf_clk (s : State) (c : Bool) (e : Nat) (d : List (Nat × Nat)) : (s.evIf c e d).clk = s.clk := by unfold State.evIf; split <;> simp
@[simp] theorem State.evIf_regs (s : State) (c : Bool) (e : Nat) (d : List (Nat × Nat)) : (s.evIf c e d).regs = s.regs := by unfold State.evIf; split <;> simp
@[simp] theorem State.evIf_pend (s : State) (c : Bool) (e : Nat) (d : List (Nat × Nat)) : (s.evIf c e d).pend = s.pend := by unfold State.evIf; split <;> simp
@[simp] theorem State.evIf_hiLatch (s : State) (c : Bool) (e : Nat) (d : List (Nat × Nat)) : (s.evIf c e d).hiLatch = s.hiLatch := by unfold State.evIf; split <;> simp
@[simp] theorem State.evIf_loHold (s : State) (c : Bool) (e : Nat) (d : List (Nat × Nat)) : (s.evIf c e d).loHold = s.loHold := by unfold State.evIf; split <;> simp
@[simp] theorem State.evIf_out (s : State) (c : Bool) (e : Nat) (d : List (Nat × Nat)) : (s.evIf c e d).out = s.out := by unfold State.evIf; split <;> simp
@[simp] theorem State.evIf_freeCtr (s : State) (c : Bool) (e : Nat) (d : List (Nat × Nat)) : (s.evIf c e d).freeCtr = s.freeCtr := by unfold State.evIf; split <;> simp
@[simp] theorem State.evIf_store (s : State) (c : Bool) (e : Nat) (d : List (Nat × Nat)) : (s.evIf c e d).store = s.store := by unfold State.evIf; split <;> simp
@[simp] theorem State.evIf_sys (s : State) (c : Bool) (e : Nat) (d : List (Nat × Nat)) : (s.evIf c e d).sys = s.sys := by unfold State.evIf; split <;> simp
@[simp] theorem State.evIf_hst (s : State) (c : Bool) (e : Nat) (d : List (Nat × Nat)) : (s.evIf c e d).hst = s.hst := by unfold State.evIf; split <;> simp
@[simp] theorem State.evIf_ln (s : State) (c : Bool) (e : Nat) (d : List (Nat × Nat)) : (s.evIf c e d).ln = s.ln := by unfold State.evIf; split <;> simp
@[simp] theorem State.evIf_prt (s : State) (c : Bool) (e : Nat) (d : List (Nat × Nat)) : (s.evIf c e d).prt = s.prt := by unfold State.evIf; split <;> simp
@[simp] theorem State.evIf_cls (s : State) (c : Bool) (e : Nat) (d : List (Nat × Nat)) : (s.evIf c e d).cls = s.cls := by unfold State.evIf; split <;> simp
@[simp] theorem State.evIf_oas (s : State) (c : Bool) (e : Nat) (d : List (Nat × Nat)) : (s.evIf c e d).oas = s.oas := by unfold State.evIf; split <;> simp
@[simp] theorem State.evIf_swc (s : State) (c : Bool) (e : Nat) (d : List (Nat × Nat)) : (s.evIf c e d).swc = s.swc := by unfold State.evIf; split <;> simp
@[simp] theorem State.evIf_egr (s : State) (c : Bool) (e : Nat) (d : List (Nat × Nat)) : (s.evIf c e d).egr = s.egr := by unfold State.evIf; split <;> simp
@[simp] theorem State.evIf_spe (s : State) (c : Bool) (e : Nat) (d : List (Nat × Nat)) : (s.evIf c e d).spe = s.spe := by unfold State.evIf; split <;> simp
@[simp] theorem State.evIf_tme (s : State) (c : Bool) (e : Nat) (d : List (Nat × Nat)) : (s.evIf c e d).tme = s.tme := by unfold State.evIf; split <;> simp
@[simp] theorem State.evIf_seif (s : State) (c : Bool) (e : Nat) (d : List (Nat × Nat)) : (s.evIf c e d).seif = s.seif := by unfold State.evIf; split <;> simp
@[simp] theorem State.evIf_ref (s : State) (c : Bool) (e : Nat) (d : List (Nat × Nat)) : (s.evIf c e d).ref = s.ref := by unfold State.evIf; split <;> simp
@[simp] theorem State.evIf_outp (s : State) (c : Bool) (e : Nat) (d : List (Nat × Nat)) : (s.evIf c e d).outp = s.outp := by unfold State.evIf; split <;> simp
@[simp] theorem State.evIf_pair (s : State) (c : Bool) (e : Nat) (d : List (Nat × Nat)) : (s.evIf c e d).pair = s.pair := by unfold State.evIf; split <;> simp
@[simp] theorem State.evIf_mbx (s : State) (c : Bool) (e : Nat) (d : List (Nat × Nat)) : (s.evIf c e d).mbx = s.mbx := by unfold State.evIf; split <;> simp
@[simp] theorem State.evIf_chk (s : State) (c : Bool) (e : Nat) (d : List (Nat × Nat)) : (s.evIf c e d).chk = s.chk := by unfold State.evIf; split <;> simp
@[simp] theorem State.evIf_obs (s : State) (c : Bool) (e : Nat) (d : List (Nat × Nat)) : (s.evIf c e d).obs = s.obs := by unfold State.evIf; split <;> simp

/-! ### Performance counters -/

@[simp] theorem State.overflow_pending (s : State) (u k : Nat) : (s.overflow u k).pending = s.pending := by simp [State.overflow]
@[simp] theorem State.overflow_guards (s : State) (u k : Nat) : (s.overflow u k).guards = s.guards := by simp [State.overflow]
@[simp] theorem State.overflow_clk (s : State) (u k : Nat) : (s.overflow u k).clk = s.clk := by simp [State.overflow]
@[simp] theorem State.overflow_pend (s : State) (u k : Nat) : (s.overflow u k).pend = s.pend := by simp [State.overflow]
@[simp] theorem State.overflow_hiLatch (s : State) (u k : Nat) : (s.overflow u k).hiLatch = s.hiLatch := by simp [State.overflow]
@[simp] theorem State.overflow_loHold (s : State) (u k : Nat) : (s.overflow u k).loHold = s.loHold := by simp [State.overflow]
@[simp] theorem State.overflow_out (s : State) (u k : Nat) : (s.overflow u k).out = s.out := by simp [State.overflow]
@[simp] theorem State.overflow_freeCtr (s : State) (u k : Nat) : (s.overflow u k).freeCtr = s.freeCtr := by simp [State.overflow]
@[simp] theorem State.overflow_store (s : State) (u k : Nat) : (s.overflow u k).store = s.store := by simp [State.overflow]
@[simp] theorem State.overflow_sys (s : State) (u k : Nat) : (s.overflow u k).sys = s.sys := by simp [State.overflow]
@[simp] theorem State.overflow_hst (s : State) (u k : Nat) : (s.overflow u k).hst = s.hst := by simp [State.overflow]
@[simp] theorem State.overflow_ln (s : State) (u k : Nat) : (s.overflow u k).ln = s.ln := by simp [State.overflow]
@[simp] theorem State.overflow_prt (s : State) (u k : Nat) : (s.overflow u k).prt = s.prt := by simp [State.overflow]
@[simp] theorem State.overflow_cls (s : State) (u k : Nat) : (s.overflow u k).cls = s.cls := by simp [State.overflow]
@[simp] theorem State.overflow_oas (s : State) (u k : Nat) : (s.overflow u k).oas = s.oas := by simp [State.overflow]
@[simp] theorem State.overflow_swc (s : State) (u k : Nat) : (s.overflow u k).swc = s.swc := by simp [State.overflow]
@[simp] theorem State.overflow_egr (s : State) (u k : Nat) : (s.overflow u k).egr = s.egr := by simp [State.overflow]
@[simp] theorem State.overflow_spe (s : State) (u k : Nat) : (s.overflow u k).spe = s.spe := by simp [State.overflow]
@[simp] theorem State.overflow_tme (s : State) (u k : Nat) : (s.overflow u k).tme = s.tme := by simp [State.overflow]
@[simp] theorem State.overflow_seif (s : State) (u k : Nat) : (s.overflow u k).seif = s.seif := by simp [State.overflow]
@[simp] theorem State.overflow_ref (s : State) (u k : Nat) : (s.overflow u k).ref = s.ref := by simp [State.overflow]
@[simp] theorem State.overflow_outp (s : State) (u k : Nat) : (s.overflow u k).outp = s.outp := by simp [State.overflow]
@[simp] theorem State.overflow_pair (s : State) (u k : Nat) : (s.overflow u k).pair = s.pair := by simp [State.overflow]
@[simp] theorem State.overflow_mbx (s : State) (u k : Nat) : (s.overflow u k).mbx = s.mbx := by simp [State.overflow]
@[simp] theorem State.overflow_chk (s : State) (u k : Nat) : (s.overflow u k).chk = s.chk := by simp [State.overflow]
@[simp] theorem State.overflow_obs (s : State) (u k : Nat) : (s.overflow u k).obs = s.obs := by simp [State.overflow]

@[simp] theorem addCounter_pending (s : State) (u k n : Nat) : (addCounter s u k n).pending = s.pending := by unfold addCounter; dsimp only; split <;> simp
@[simp] theorem addCounter_guards (s : State) (u k n : Nat) : (addCounter s u k n).guards = s.guards := by unfold addCounter; dsimp only; split <;> simp
@[simp] theorem addCounter_clk (s : State) (u k n : Nat) : (addCounter s u k n).clk = s.clk := by unfold addCounter; dsimp only; split <;> simp
@[simp] theorem addCounter_pend (s : State) (u k n : Nat) : (addCounter s u k n).pend = s.pend := by unfold addCounter; dsimp only; split <;> simp
@[simp] theorem addCounter_hiLatch (s : State) (u k n : Nat) : (addCounter s u k n).hiLatch = s.hiLatch := by unfold addCounter; dsimp only; split <;> simp
@[simp] theorem addCounter_loHold (s : State) (u k n : Nat) : (addCounter s u k n).loHold = s.loHold := by unfold addCounter; dsimp only; split <;> simp
@[simp] theorem addCounter_out (s : State) (u k n : Nat) : (addCounter s u k n).out = s.out := by unfold addCounter; dsimp only; split <;> simp
@[simp] theorem addCounter_freeCtr (s : State) (u k n : Nat) : (addCounter s u k n).freeCtr = s.freeCtr := by unfold addCounter; dsimp only; split <;> simp
@[simp] theorem addCounter_store (s : State) (u k n : Nat) : (addCounter s u k n).store = s.store := by unfold addCounter; dsimp only; split <;> simp
@[simp] theorem addCounter_sys (s : State) (u k n : Nat) : (addCounter s u k n).sys = s.sys := by unfold addCounter; dsimp only; split <;> simp
@[simp] theorem addCounter_hst (s : State) (u k n : Nat) : (addCounter s u k n).hst = s.hst := by unfold addCounter; dsimp only; split <;> simp
@[simp] theorem addCounter_ln (s : State) (u k n : Nat) : (addCounter s u k n).ln = s.ln := by unfold addCounter; dsimp only; split <;> simp
@[simp] theorem addCounter_prt (s : State) (u k n : Nat) : (addCounter s u k n).prt = s.prt := by unfold addCounter; dsimp only; split <;> simp
@[simp] theorem addCounter_cls (s : State) (u k n : Nat) : (addCounter s u k n).cls = s.cls := by unfold addCounter; dsimp only; split <;> simp
@[simp] theorem addCounter_oas (s : State) (u k n : Nat) : (addCounter s u k n).oas = s.oas := by unfold addCounter; dsimp only; split <;> simp
@[simp] theorem addCounter_swc (s : State) (u k n : Nat) : (addCounter s u k n).swc = s.swc := by unfold addCounter; dsimp only; split <;> simp
@[simp] theorem addCounter_egr (s : State) (u k n : Nat) : (addCounter s u k n).egr = s.egr := by unfold addCounter; dsimp only; split <;> simp
@[simp] theorem addCounter_spe (s : State) (u k n : Nat) : (addCounter s u k n).spe = s.spe := by unfold addCounter; dsimp only; split <;> simp
@[simp] theorem addCounter_tme (s : State) (u k n : Nat) : (addCounter s u k n).tme = s.tme := by unfold addCounter; dsimp only; split <;> simp
@[simp] theorem addCounter_seif (s : State) (u k n : Nat) : (addCounter s u k n).seif = s.seif := by unfold addCounter; dsimp only; split <;> simp
@[simp] theorem addCounter_ref (s : State) (u k n : Nat) : (addCounter s u k n).ref = s.ref := by unfold addCounter; dsimp only; split <;> simp
@[simp] theorem addCounter_outp (s : State) (u k n : Nat) : (addCounter s u k n).outp = s.outp := by unfold addCounter; dsimp only; split <;> simp
@[simp] theorem addCounter_pair (s : State) (u k n : Nat) : (addCounter s u k n).pair = s.pair := by unfold addCounter; dsimp only; split <;> simp
@[simp] theorem addCounter_mbx (s : State) (u k n : Nat) : (addCounter s u k n).mbx = s.mbx := by unfold addCounter; dsimp only; split <;> simp
@[simp] theorem addCounter_chk (s : State) (u k n : Nat) : (addCounter s u k n).chk = s.chk := by unfold addCounter; dsimp only; split <;> simp
@[simp] theorem addCounter_obs (s : State) (u k n : Nat) : (addCounter s u k n).obs = s.obs := by unfold addCounter; dsimp only; split <;> simp

theorem foldl_keeps {α β : Type} (p : State → β) (g : State → α → State) (h : ∀ s a, p (g s a) = p s) (l : List α) (s : State) :
    p (l.foldl g s) = p s := by
  induction l generalizing s with
  | nil => rfl
  | cons a t ih => simp [List.foldl_cons, ih, h]

@[simp] theorem State.tally_pending (s : State) (u item q b kind idx n : Nat) : (s.tally u item q b kind idx n).pending = s.pending := by
  unfold State.tally; split
  · rfl
  · exact foldl_keeps (fun s => s.pending) _ (by intro s k; split <;> simp) _ _
@[simp] theorem State.tally_guards (s : State) (u item q b kind idx n : Nat) : (s.tally u item q b kind idx n).guards = s.guards := by
  unfold State.tally; split
  · rfl
  · exact foldl_keeps (fun s => s.guards) _ (by intro s k; split <;> simp) _ _
@[simp] theorem State.tally_clk (s : State) (u item q b kind idx n : Nat) : (s.tally u item q b kind idx n).clk = s.clk := by
  unfold State.tally; split
  · rfl
  · exact foldl_keeps (fun s => s.clk) _ (by intro s k; split <;> simp) _ _
@[simp] theorem State.tally_pend (s : State) (u item q b kind idx n : Nat) : (s.tally u item q b kind idx n).pend = s.pend := by
  unfold State.tally; split
  · rfl
  · exact foldl_keeps (fun s => s.pend) _ (by intro s k; split <;> simp) _ _
@[simp] theorem State.tally_hiLatch (s : State) (u item q b kind idx n : Nat) : (s.tally u item q b kind idx n).hiLatch = s.hiLatch := by
  unfold State.tally; split
  · rfl
  · exact foldl_keeps (fun s => s.hiLatch) _ (by intro s k; split <;> simp) _ _
@[simp] theorem State.tally_loHold (s : State) (u item q b kind idx n : Nat) : (s.tally u item q b kind idx n).loHold = s.loHold := by
  unfold State.tally; split
  · rfl
  · exact foldl_keeps (fun s => s.loHold) _ (by intro s k; split <;> simp) _ _
@[simp] theorem State.tally_out (s : State) (u item q b kind idx n : Nat) : (s.tally u item q b kind idx n).out = s.out := by
  unfold State.tally; split
  · rfl
  · exact foldl_keeps (fun s => s.out) _ (by intro s k; split <;> simp) _ _
@[simp] theorem State.tally_freeCtr (s : State) (u item q b kind idx n : Nat) : (s.tally u item q b kind idx n).freeCtr = s.freeCtr := by
  unfold State.tally; split
  · rfl
  · exact foldl_keeps (fun s => s.freeCtr) _ (by intro s k; split <;> simp) _ _
@[simp] theorem State.tally_store (s : State) (u item q b kind idx n : Nat) : (s.tally u item q b kind idx n).store = s.store := by
  unfold State.tally; split
  · rfl
  · exact foldl_keeps (fun s => s.store) _ (by intro s k; split <;> simp) _ _
@[simp] theorem State.tally_sys (s : State) (u item q b kind idx n : Nat) : (s.tally u item q b kind idx n).sys = s.sys := by
  unfold State.tally; split
  · rfl
  · exact foldl_keeps (fun s => s.sys) _ (by intro s k; split <;> simp) _ _
@[simp] theorem State.tally_hst (s : State) (u item q b kind idx n : Nat) : (s.tally u item q b kind idx n).hst = s.hst := by
  unfold State.tally; split
  · rfl
  · exact foldl_keeps (fun s => s.hst) _ (by intro s k; split <;> simp) _ _
@[simp] theorem State.tally_ln (s : State) (u item q b kind idx n : Nat) : (s.tally u item q b kind idx n).ln = s.ln := by
  unfold State.tally; split
  · rfl
  · exact foldl_keeps (fun s => s.ln) _ (by intro s k; split <;> simp) _ _
@[simp] theorem State.tally_prt (s : State) (u item q b kind idx n : Nat) : (s.tally u item q b kind idx n).prt = s.prt := by
  unfold State.tally; split
  · rfl
  · exact foldl_keeps (fun s => s.prt) _ (by intro s k; split <;> simp) _ _
@[simp] theorem State.tally_cls (s : State) (u item q b kind idx n : Nat) : (s.tally u item q b kind idx n).cls = s.cls := by
  unfold State.tally; split
  · rfl
  · exact foldl_keeps (fun s => s.cls) _ (by intro s k; split <;> simp) _ _
@[simp] theorem State.tally_oas (s : State) (u item q b kind idx n : Nat) : (s.tally u item q b kind idx n).oas = s.oas := by
  unfold State.tally; split
  · rfl
  · exact foldl_keeps (fun s => s.oas) _ (by intro s k; split <;> simp) _ _
@[simp] theorem State.tally_swc (s : State) (u item q b kind idx n : Nat) : (s.tally u item q b kind idx n).swc = s.swc := by
  unfold State.tally; split
  · rfl
  · exact foldl_keeps (fun s => s.swc) _ (by intro s k; split <;> simp) _ _
@[simp] theorem State.tally_egr (s : State) (u item q b kind idx n : Nat) : (s.tally u item q b kind idx n).egr = s.egr := by
  unfold State.tally; split
  · rfl
  · exact foldl_keeps (fun s => s.egr) _ (by intro s k; split <;> simp) _ _
@[simp] theorem State.tally_spe (s : State) (u item q b kind idx n : Nat) : (s.tally u item q b kind idx n).spe = s.spe := by
  unfold State.tally; split
  · rfl
  · exact foldl_keeps (fun s => s.spe) _ (by intro s k; split <;> simp) _ _
@[simp] theorem State.tally_tme (s : State) (u item q b kind idx n : Nat) : (s.tally u item q b kind idx n).tme = s.tme := by
  unfold State.tally; split
  · rfl
  · exact foldl_keeps (fun s => s.tme) _ (by intro s k; split <;> simp) _ _
@[simp] theorem State.tally_seif (s : State) (u item q b kind idx n : Nat) : (s.tally u item q b kind idx n).seif = s.seif := by
  unfold State.tally; split
  · rfl
  · exact foldl_keeps (fun s => s.seif) _ (by intro s k; split <;> simp) _ _
@[simp] theorem State.tally_ref (s : State) (u item q b kind idx n : Nat) : (s.tally u item q b kind idx n).ref = s.ref := by
  unfold State.tally; split
  · rfl
  · exact foldl_keeps (fun s => s.ref) _ (by intro s k; split <;> simp) _ _
@[simp] theorem State.tally_outp (s : State) (u item q b kind idx n : Nat) : (s.tally u item q b kind idx n).outp = s.outp := by
  unfold State.tally; split
  · rfl
  · exact foldl_keeps (fun s => s.outp) _ (by intro s k; split <;> simp) _ _
@[simp] theorem State.tally_pair (s : State) (u item q b kind idx n : Nat) : (s.tally u item q b kind idx n).pair = s.pair := by
  unfold State.tally; split
  · rfl
  · exact foldl_keeps (fun s => s.pair) _ (by intro s k; split <;> simp) _ _
@[simp] theorem State.tally_mbx (s : State) (u item q b kind idx n : Nat) : (s.tally u item q b kind idx n).mbx = s.mbx := by
  unfold State.tally; split
  · rfl
  · exact foldl_keeps (fun s => s.mbx) _ (by intro s k; split <;> simp) _ _
@[simp] theorem State.tally_chk (s : State) (u item q b kind idx n : Nat) : (s.tally u item q b kind idx n).chk = s.chk := by
  unfold State.tally; split
  · rfl
  · exact foldl_keeps (fun s => s.chk) _ (by intro s k; split <;> simp) _ _
@[simp] theorem State.tally_obs (s : State) (u item q b kind idx n : Nat) : (s.tally u item q b kind idx n).obs = s.obs := by
  unfold State.tally; split
  · rfl
  · exact foldl_keeps (fun s => s.obs) _ (by intro s k; split <;> simp) _ _

@[simp] theorem State.tally1_pending (s : State) (u item idx : Nat) : (s.tally1 u item idx).pending = s.pending := by simp [State.tally1]
@[simp] theorem State.tally1_guards (s : State) (u item idx : Nat) : (s.tally1 u item idx).guards = s.guards := by simp [State.tally1]
@[simp] theorem State.tally1_clk (s : State) (u item idx : Nat) : (s.tally1 u item idx).clk = s.clk := by simp [State.tally1]
@[simp] theorem State.tally1_pend (s : State) (u item idx : Nat) : (s.tally1 u item idx).pend = s.pend := by simp [State.tally1]
@[simp] theorem State.tally1_hiLatch (s : State) (u item idx : Nat) : (s.tally1 u item idx).hiLatch = s.hiLatch := by simp [State.tally1]
@[simp] theorem State.tally1_loHold (s : State) (u item idx : Nat) : (s.tally1 u item idx).loHold = s.loHold := by simp [State.tally1]
@[simp] theorem State.tally1_out (s : State) (u item idx : Nat) : (s.tally1 u item idx).out = s.out := by simp [State.tally1]
@[simp] theorem State.tally1_freeCtr (s : State) (u item idx : Nat) : (s.tally1 u item idx).freeCtr = s.freeCtr := by simp [State.tally1]
@[simp] theorem State.tally1_store (s : State) (u item idx : Nat) : (s.tally1 u item idx).store = s.store := by simp [State.tally1]
@[simp] theorem State.tally1_sys (s : State) (u item idx : Nat) : (s.tally1 u item idx).sys = s.sys := by simp [State.tally1]
@[simp] theorem State.tally1_hst (s : State) (u item idx : Nat) : (s.tally1 u item idx).hst = s.hst := by simp [State.tally1]
@[simp] theorem State.tally1_ln (s : State) (u item idx : Nat) : (s.tally1 u item idx).ln = s.ln := by simp [State.tally1]
@[simp] theorem State.tally1_prt (s : State) (u item idx : Nat) : (s.tally1 u item idx).prt = s.prt := by simp [State.tally1]
@[simp] theorem State.tally1_cls (s : State) (u item idx : Nat) : (s.tally1 u item idx).cls = s.cls := by simp [State.tally1]
@[simp] theorem State.tally1_oas (s : State) (u item idx : Nat) : (s.tally1 u item idx).oas = s.oas := by simp [State.tally1]
@[simp] theorem State.tally1_swc (s : State) (u item idx : Nat) : (s.tally1 u item idx).swc = s.swc := by simp [State.tally1]
@[simp] theorem State.tally1_egr (s : State) (u item idx : Nat) : (s.tally1 u item idx).egr = s.egr := by simp [State.tally1]
@[simp] theorem State.tally1_spe (s : State) (u item idx : Nat) : (s.tally1 u item idx).spe = s.spe := by simp [State.tally1]
@[simp] theorem State.tally1_tme (s : State) (u item idx : Nat) : (s.tally1 u item idx).tme = s.tme := by simp [State.tally1]
@[simp] theorem State.tally1_seif (s : State) (u item idx : Nat) : (s.tally1 u item idx).seif = s.seif := by simp [State.tally1]
@[simp] theorem State.tally1_ref (s : State) (u item idx : Nat) : (s.tally1 u item idx).ref = s.ref := by simp [State.tally1]
@[simp] theorem State.tally1_outp (s : State) (u item idx : Nat) : (s.tally1 u item idx).outp = s.outp := by simp [State.tally1]
@[simp] theorem State.tally1_pair (s : State) (u item idx : Nat) : (s.tally1 u item idx).pair = s.pair := by simp [State.tally1]
@[simp] theorem State.tally1_mbx (s : State) (u item idx : Nat) : (s.tally1 u item idx).mbx = s.mbx := by simp [State.tally1]
@[simp] theorem State.tally1_chk (s : State) (u item idx : Nat) : (s.tally1 u item idx).chk = s.chk := by simp [State.tally1]
@[simp] theorem State.tally1_obs (s : State) (u item idx : Nat) : (s.tally1 u item idx).obs = s.obs := by simp [State.tally1]

@[simp] theorem State.tallyAny_pending (s : State) (u item kind : Nat) (objs : List Nat) : (s.tallyAny u item kind objs).pending = s.pending := by
  unfold State.tallyAny
  exact foldl_keeps (fun s => s.pending) _ (by intro s k; split <;> simp) _ _
@[simp] theorem State.tallyAny_guards (s : State) (u item kind : Nat) (objs : List Nat) : (s.tallyAny u item kind objs).guards = s.guards := by
  unfold State.tallyAny
  exact foldl_keeps (fun s => s.guards) _ (by intro s k; split <;> simp) _ _
@[simp] theorem State.tallyAny_clk (s : State) (u item kind : Nat) (objs : List Nat) : (s.tallyAny u item kind objs).clk = s.clk := by
  unfold State.tallyAny
  exact foldl_keeps (fun s => s.clk) _ (by intro s k; split <;> simp) _ _
@[simp] theorem State.tallyAny_pend (s : State) (u item kind : Nat) (objs : List Nat) : (s.tallyAny u item kind objs).pend = s.pend := by
  unfold State.tallyAny
  exact foldl_keeps (fun s => s.pend) _ (by intro s k; split <;> simp) _ _
@[simp] theorem State.tallyAny_hiLatch (s : State) (u item kind : Nat) (objs : List Nat) : (s.tallyAny u item kind objs).hiLatch = s.hiLatch := by
  unfold State.tallyAny
  exact foldl_keeps (fun s => s.hiLatch) _ (by intro s k; split <;> simp) _ _
@[simp] theorem State.tallyAny_loHold (s : State) (u item kind : Nat) (objs : List Nat) : (s.tallyAny u item kind objs).loHold = s.loHold := by
  unfold State.tallyAny
  exact foldl_keeps (fun s => s.loHold) _ (by intro s k; split <;> simp) _ _
@[simp] theorem State.tallyAny_out (s : State) (u item kind : Nat) (objs : List Nat) : (s.tallyAny u item kind objs).out = s.out := by
  unfold State.tallyAny
  exact foldl_keeps (fun s => s.out) _ (by intro s k; split <;> simp) _ _
@[simp] theorem State.tallyAny_freeCtr (s : State) (u item kind : Nat) (objs : List Nat) : (s.tallyAny u item kind objs).freeCtr = s.freeCtr := by
  unfold State.tallyAny
  exact foldl_keeps (fun s => s.freeCtr) _ (by intro s k; split <;> simp) _ _
@[simp] theorem State.tallyAny_store (s : State) (u item kind : Nat) (objs : List Nat) : (s.tallyAny u item kind objs).store = s.store := by
  unfold State.tallyAny
  exact foldl_keeps (fun s => s.store) _ (by intro s k; split <;> simp) _ _
@[simp] theorem State.tallyAny_sys (s : State) (u item kind : Nat) (objs : List Nat) : (s.tallyAny u item kind objs).sys = s.sys := by
  unfold State.tallyAny
  exact foldl_keeps (fun s => s.sys) _ (by intro s k; split <;> simp) _ _
@[simp] theorem State.tallyAny_hst (s : State) (u item kind : Nat) (objs : List Nat) : (s.tallyAny u item kind objs).hst = s.hst := by
  unfold State.tallyAny
  exact foldl_keeps (fun s => s.hst) _ (by intro s k; split <;> simp) _ _
@[simp] theorem State.tallyAny_ln (s : State) (u item kind : Nat) (objs : List Nat) : (s.tallyAny u item kind objs).ln = s.ln := by
  unfold State.tallyAny
  exact foldl_keeps (fun s => s.ln) _ (by intro s k; split <;> simp) _ _
@[simp] theorem State.tallyAny_prt (s : State) (u item kind : Nat) (objs : List Nat) : (s.tallyAny u item kind objs).prt = s.prt := by
  unfold State.tallyAny
  exact foldl_keeps (fun s => s.prt) _ (by intro s k; split <;> simp) _ _
@[simp] theorem State.tallyAny_cls (s : State) (u item kind : Nat) (objs : List Nat) : (s.tallyAny u item kind objs).cls = s.cls := by
  unfold State.tallyAny
  exact foldl_keeps (fun s => s.cls) _ (by intro s k; split <;> simp) _ _
@[simp] theorem State.tallyAny_oas (s : State) (u item kind : Nat) (objs : List Nat) : (s.tallyAny u item kind objs).oas = s.oas := by
  unfold State.tallyAny
  exact foldl_keeps (fun s => s.oas) _ (by intro s k; split <;> simp) _ _
@[simp] theorem State.tallyAny_swc (s : State) (u item kind : Nat) (objs : List Nat) : (s.tallyAny u item kind objs).swc = s.swc := by
  unfold State.tallyAny
  exact foldl_keeps (fun s => s.swc) _ (by intro s k; split <;> simp) _ _
@[simp] theorem State.tallyAny_egr (s : State) (u item kind : Nat) (objs : List Nat) : (s.tallyAny u item kind objs).egr = s.egr := by
  unfold State.tallyAny
  exact foldl_keeps (fun s => s.egr) _ (by intro s k; split <;> simp) _ _
@[simp] theorem State.tallyAny_spe (s : State) (u item kind : Nat) (objs : List Nat) : (s.tallyAny u item kind objs).spe = s.spe := by
  unfold State.tallyAny
  exact foldl_keeps (fun s => s.spe) _ (by intro s k; split <;> simp) _ _
@[simp] theorem State.tallyAny_tme (s : State) (u item kind : Nat) (objs : List Nat) : (s.tallyAny u item kind objs).tme = s.tme := by
  unfold State.tallyAny
  exact foldl_keeps (fun s => s.tme) _ (by intro s k; split <;> simp) _ _
@[simp] theorem State.tallyAny_seif (s : State) (u item kind : Nat) (objs : List Nat) : (s.tallyAny u item kind objs).seif = s.seif := by
  unfold State.tallyAny
  exact foldl_keeps (fun s => s.seif) _ (by intro s k; split <;> simp) _ _
@[simp] theorem State.tallyAny_ref (s : State) (u item kind : Nat) (objs : List Nat) : (s.tallyAny u item kind objs).ref = s.ref := by
  unfold State.tallyAny
  exact foldl_keeps (fun s => s.ref) _ (by intro s k; split <;> simp) _ _
@[simp] theorem State.tallyAny_outp (s : State) (u item kind : Nat) (objs : List Nat) : (s.tallyAny u item kind objs).outp = s.outp := by
  unfold State.tallyAny
  exact foldl_keeps (fun s => s.outp) _ (by intro s k; split <;> simp) _ _
@[simp] theorem State.tallyAny_pair (s : State) (u item kind : Nat) (objs : List Nat) : (s.tallyAny u item kind objs).pair = s.pair := by
  unfold State.tallyAny
  exact foldl_keeps (fun s => s.pair) _ (by intro s k; split <;> simp) _ _
@[simp] theorem State.tallyAny_mbx (s : State) (u item kind : Nat) (objs : List Nat) : (s.tallyAny u item kind objs).mbx = s.mbx := by
  unfold State.tallyAny
  exact foldl_keeps (fun s => s.mbx) _ (by intro s k; split <;> simp) _ _
@[simp] theorem State.tallyAny_chk (s : State) (u item kind : Nat) (objs : List Nat) : (s.tallyAny u item kind objs).chk = s.chk := by
  unfold State.tallyAny
  exact foldl_keeps (fun s => s.chk) _ (by intro s k; split <;> simp) _ _
@[simp] theorem State.tallyAny_obs (s : State) (u item kind : Nat) (objs : List Nat) : (s.tallyAny u item kind objs).obs = s.obs := by
  unfold State.tallyAny
  exact foldl_keeps (fun s => s.obs) _ (by intro s k; split <;> simp) _ _

@[simp] theorem State.evCount_pending (s : State) (e obj : Nat) (f : Nat → List (Nat × Nat × Mg)) : (s.evCount e obj f).pending = s.pending := by unfold State.evCount; dsimp only; rw [apply_ite State.pending]; simp
@[simp] theorem State.evCount_hw (s : State) (e obj : Nat) (f : Nat → List (Nat × Nat × Mg)) : (s.evCount e obj f).hw = s.hw := by unfold State.evCount; dsimp only; rw [apply_ite State.hw]; simp
@[simp] theorem State.evCount_guards (s : State) (e obj : Nat) (f : Nat → List (Nat × Nat × Mg)) : (s.evCount e obj f).guards = s.guards := by unfold State.evCount; dsimp only; rw [apply_ite State.guards]; simp
@[simp] theorem State.evCount_clk (s : State) (e obj : Nat) (f : Nat → List (Nat × Nat × Mg)) : (s.evCount e obj f).clk = s.clk := by unfold State.evCount; dsimp only; rw [apply_ite State.clk]; simp
@[simp] theorem State.evCount_regs (s : State) (e obj : Nat) (f : Nat → List (Nat × Nat × Mg)) : (s.evCount e obj f).regs = s.regs := by unfold State.evCount; dsimp only; rw [apply_ite State.regs]; simp
@[simp] theorem State.evCount_pend (s : State) (e obj : Nat) (f : Nat → List (Nat × Nat × Mg)) : (s.evCount e obj f).pend = s.pend := by unfold State.evCount; dsimp only; rw [apply_ite State.pend]; simp
@[simp] theorem State.evCount_hiLatch (s : State) (e obj : Nat) (f : Nat → List (Nat × Nat × Mg)) : (s.evCount e obj f).hiLatch = s.hiLatch := by unfold State.evCount; dsimp only; rw [apply_ite State.hiLatch]; simp
@[simp] theorem State.evCount_loHold (s : State) (e obj : Nat) (f : Nat → List (Nat × Nat × Mg)) : (s.evCount e obj f).loHold = s.loHold := by unfold State.evCount; dsimp only; rw [apply_ite State.loHold]; simp
@[simp] theorem State.evCount_out (s : State) (e obj : Nat) (f : Nat → List (Nat × Nat × Mg)) : (s.evCount e obj f).out = s.out := by unfold State.evCount; dsimp only; rw [apply_ite State.out]; simp
@[simp] theorem State.evCount_freeCtr (s : State) (e obj : Nat) (f : Nat → List (Nat × Nat × Mg)) : (s.evCount e obj f).freeCtr = s.freeCtr := by unfold State.evCount; dsimp only; rw [apply_ite State.freeCtr]; simp
@[simp] theorem State.evCount_store (s : State) (e obj : Nat) (f : Nat → List (Nat × Nat × Mg)) : (s.evCount e obj f).store = s.store := by unfold State.evCount; dsimp only; rw [apply_ite State.store]; simp
@[simp] theorem State.evCount_sys (s : State) (e obj : Nat) (f : Nat → List (Nat × Nat × Mg)) : (s.evCount e obj f).sys = s.sys := by unfold State.evCount; dsimp only; rw [apply_ite State.sys]; simp
@[simp] theorem State.evCount_hst (s : State) (e obj : Nat) (f : Nat → List (Nat × Nat × Mg)) : (s.evCount e obj f).hst = s.hst := by unfold State.evCount; dsimp only; rw [apply_ite State.hst]; simp
@[simp] theorem State.evCount_ln (s : State) (e obj : Nat) (f : Nat → List (Nat × Nat × Mg)) : (s.evCount e obj f).ln = s.ln := by unfold State.evCount; dsimp only; rw [apply_ite State.ln]; simp
@[simp] theorem State.evCount_prt (s : State) (e obj : Nat) (f : Nat → List (Nat × Nat × Mg)) : (s.evCount e obj f).prt = s.prt := by unfold State.evCount; dsimp only; rw [apply_ite State.prt]; simp
@[simp] theorem State.evCount_cls (s : State) (e obj : Nat) (f : Nat → List (Nat × Nat × Mg)) : (s.evCount e obj f).cls = s.cls := by unfold State.evCount; dsimp only; rw [apply_ite State.cls]; simp
@[simp] theorem State.evCount_oas (s : State) (e obj : Nat) (f : Nat → List (Nat × Nat × Mg)) : (s.evCount e obj f).oas = s.oas := by unfold State.evCount; dsimp only; rw [apply_ite State.oas]; simp
@[simp] theorem State.evCount_swc (s : State) (e obj : Nat) (f : Nat → List (Nat × Nat × Mg)) : (s.evCount e obj f).swc = s.swc := by unfold State.evCount; dsimp only; rw [apply_ite State.swc]; simp
@[simp] theorem State.evCount_egr (s : State) (e obj : Nat) (f : Nat → List (Nat × Nat × Mg)) : (s.evCount e obj f).egr = s.egr := by unfold State.evCount; dsimp only; rw [apply_ite State.egr]; simp
@[simp] theorem State.evCount_spe (s : State) (e obj : Nat) (f : Nat → List (Nat × Nat × Mg)) : (s.evCount e obj f).spe = s.spe := by unfold State.evCount; dsimp only; rw [apply_ite State.spe]; simp
@[simp] theorem State.evCount_tme (s : State) (e obj : Nat) (f : Nat → List (Nat × Nat × Mg)) : (s.evCount e obj f).tme = s.tme := by unfold State.evCount; dsimp only; rw [apply_ite State.tme]; simp
@[simp] theorem State.evCount_seif (s : State) (e obj : Nat) (f : Nat → List (Nat × Nat × Mg)) : (s.evCount e obj f).seif = s.seif := by unfold State.evCount; dsimp only; rw [apply_ite State.seif]; simp
@[simp] theorem State.evCount_ref (s : State) (e obj : Nat) (f : Nat → List (Nat × Nat × Mg)) : (s.evCount e obj f).ref = s.ref := by unfold State.evCount; dsimp only; rw [apply_ite State.ref]; simp
@[simp] theorem State.evCount_outp (s : State) (e obj : Nat) (f : Nat → List (Nat × Nat × Mg)) : (s.evCount e obj f).outp = s.outp := by unfold State.evCount; dsimp only; rw [apply_ite State.outp]; simp
@[simp] theorem State.evCount_pair (s : State) (e obj : Nat) (f : Nat → List (Nat × Nat × Mg)) : (s.evCount e obj f).pair = s.pair := by unfold State.evCount; dsimp only; rw [apply_ite State.pair]; simp
@[simp] theorem State.evCount_mbx (s : State) (e obj : Nat) (f : Nat → List (Nat × Nat × Mg)) : (s.evCount e obj f).mbx = s.mbx := by unfold State.evCount; dsimp only; rw [apply_ite State.mbx]; simp
@[simp] theorem State.evCount_chk (s : State) (e obj : Nat) (f : Nat → List (Nat × Nat × Mg)) : (s.evCount e obj f).chk = s.chk := by unfold State.evCount; dsimp only; rw [apply_ite State.chk]; simp
@[simp] theorem State.evCount_obs (s : State) (e obj : Nat) (f : Nat → List (Nat × Nat × Mg)) : (s.evCount e obj f).obs = s.obs := by unfold State.evCount; dsimp only; rw [apply_ite State.obs]; simp

@[simp] theorem State.evTally_pending (s : State) (e obj : Nat) (l : List (Nat × Nat × Mg)) : (s.evTally e obj l).pending = s.pending := by simp [State.evTally]
@[simp] theorem State.evTally_hw (s : State) (e obj : Nat) (l : List (Nat × Nat × Mg)) : (s.evTally e obj l).hw = s.hw := by simp [State.evTally]
@[simp] theorem State.evTally_guards (s : State) (e obj : Nat) (l : List (Nat × Nat × Mg)) : (s.evTally e obj l).guards = s.guards := by simp [State.evTally]
@[simp] theorem State.evTally_clk (s : State) (e obj : Nat) (l : List (Nat × Nat × Mg)) : (s.evTally e obj l).clk = s.clk := by simp [State.evTally]
@[simp] theorem State.evTally_regs (s : State) (e obj : Nat) (l : List (Nat × Nat × Mg)) : (s.evTally e obj l).regs = s.regs := by simp [State.evTally]
@[simp] theorem State.evTally_pend (s : State) (e obj : Nat) (l : List (Nat × Nat × Mg)) : (s.evTally e obj l).pend = s.pend := by simp [State.evTally]
@[simp] theorem State.evTally_hiLatch (s : State) (e obj : Nat) (l : List (Nat × Nat × Mg)) : (s.evTally e obj l).hiLatch = s.hiLatch := by simp [State.evTally]
@[simp] theorem State.evTally_loHold (s : State) (e obj : Nat) (l : List (Nat × Nat × Mg)) : (s.evTally e obj l).loHold = s.loHold := by simp [State.evTally]
@[simp] theorem State.evTally_out (s : State) (e obj : Nat) (l : List (Nat × Nat × Mg)) : (s.evTally e obj l).out = s.out := by simp [State.evTally]
@[simp] theorem State.evTally_freeCtr (s : State) (e obj : Nat) (l : List (Nat × Nat × Mg)) : (s.evTally e obj l).freeCtr = s.freeCtr := by simp [State.evTally]
@[simp] theorem State.evTally_store (s : State) (e obj : Nat) (l : List (Nat × Nat × Mg)) : (s.evTally e obj l).store = s.store := by simp [State.evTally]
@[simp] theorem State.evTally_sys (s : State) (e obj : Nat) (l : List (Nat × Nat × Mg)) : (s.evTally e obj l).sys = s.sys := by simp [State.evTally]
@[simp] theorem State.evTally_hst (s : State) (e obj : Nat) (l : List (Nat × Nat × Mg)) : (s.evTally e obj l).hst = s.hst := by simp [State.evTally]
@[simp] theorem State.evTally_ln (s : State) (e obj : Nat) (l : List (Nat × Nat × Mg)) : (s.evTally e obj l).ln = s.ln := by simp [State.evTally]
@[simp] theorem State.evTally_prt (s : State) (e obj : Nat) (l : List (Nat × Nat × Mg)) : (s.evTally e obj l).prt = s.prt := by simp [State.evTally]
@[simp] theorem State.evTally_cls (s : State) (e obj : Nat) (l : List (Nat × Nat × Mg)) : (s.evTally e obj l).cls = s.cls := by simp [State.evTally]
@[simp] theorem State.evTally_oas (s : State) (e obj : Nat) (l : List (Nat × Nat × Mg)) : (s.evTally e obj l).oas = s.oas := by simp [State.evTally]
@[simp] theorem State.evTally_swc (s : State) (e obj : Nat) (l : List (Nat × Nat × Mg)) : (s.evTally e obj l).swc = s.swc := by simp [State.evTally]
@[simp] theorem State.evTally_egr (s : State) (e obj : Nat) (l : List (Nat × Nat × Mg)) : (s.evTally e obj l).egr = s.egr := by simp [State.evTally]
@[simp] theorem State.evTally_spe (s : State) (e obj : Nat) (l : List (Nat × Nat × Mg)) : (s.evTally e obj l).spe = s.spe := by simp [State.evTally]
@[simp] theorem State.evTally_tme (s : State) (e obj : Nat) (l : List (Nat × Nat × Mg)) : (s.evTally e obj l).tme = s.tme := by simp [State.evTally]
@[simp] theorem State.evTally_seif (s : State) (e obj : Nat) (l : List (Nat × Nat × Mg)) : (s.evTally e obj l).seif = s.seif := by simp [State.evTally]
@[simp] theorem State.evTally_ref (s : State) (e obj : Nat) (l : List (Nat × Nat × Mg)) : (s.evTally e obj l).ref = s.ref := by simp [State.evTally]
@[simp] theorem State.evTally_outp (s : State) (e obj : Nat) (l : List (Nat × Nat × Mg)) : (s.evTally e obj l).outp = s.outp := by simp [State.evTally]
@[simp] theorem State.evTally_pair (s : State) (e obj : Nat) (l : List (Nat × Nat × Mg)) : (s.evTally e obj l).pair = s.pair := by simp [State.evTally]
@[simp] theorem State.evTally_mbx (s : State) (e obj : Nat) (l : List (Nat × Nat × Mg)) : (s.evTally e obj l).mbx = s.mbx := by simp [State.evTally]
@[simp] theorem State.evTally_chk (s : State) (e obj : Nat) (l : List (Nat × Nat × Mg)) : (s.evTally e obj l).chk = s.chk := by simp [State.evTally]
@[simp] theorem State.evTally_obs (s : State) (e obj : Nat) (l : List (Nat × Nat × Mg)) : (s.evTally e obj l).obs = s.obs := by simp [State.evTally]

end Machine
end Sys2Proof
end

