-- ==== Sys2Proof/Laws/Agree.lean ====
section
/-!
SUPPORT. States that agree but for the accounts: what keeps the agreement. A claim that a command yields a state is proved by
walking through the command's updates with these.
-/
namespace Sys2Proof
namespace Machine

theorem Agree.refl (s : State) : Agree s s := ⟨rfl, fun _ _ _ _ => rfl⟩

theorem Agree.symm {s t : State} (h : Agree s t) : Agree t s := ⟨h.1.symm, fun f i a b => (h.2 f i a b).symm⟩

theorem Agree.trans {s t u : State} (h : Agree s t) (k : Agree t u) : Agree s u :=
  ⟨h.1.trans k.1, fun f i a b => (h.2 f i a b).trans (k.2 f i a b)⟩

/-- What a register reads after a write, whichever they are. -/
theorem State.reg_setReg_any (s : State) (f g : Fld) (i j v : Nat) : (s.setReg f i v).reg g j =
    if g.key j = f.key i then (if v % 2 ^ f.width = f.reset i then g.reset j else v % 2 ^ f.width) else s.reg g j := by
  unfold State.reg State.setReg
  by_cases h : g.key j = f.key i
  · rw [if_pos h, h]
    unfold tset
    split
    · exact tget_tdel_self _ _ _
    · exact tget_tins_self _ _ _ _
  · rw [if_neg h]; exact tget_tset_ne _ _ _ h _

theorem Agree.setReg {t x : State} (h : Agree t x) (f : Fld) (i v : Nat) : Agree (t.setReg f i v) (x.setReg f i v) := by
  refine ⟨h.1, fun g j a b => ?_⟩
  rw [State.reg_setReg_any, State.reg_setReg_any, h.2 g j a b]

/-- A write of an account changes nothing else. -/
theorem Agree.account {f : Fld} (hf : Fld.isAccount f = true) (s : State) {i : Nat} (v : Nat) (hi : i < 8192) : Agree (s.setReg f i v) s := by
  refine ⟨rfl, fun g j a b => ?_⟩
  have hne : g ≠ f := by rintro rfl; simp [hf] at a
  exact State.reg_setReg_ne s hne v hi b

theorem State.reg_of_regs {s t : State} (h : s.regs = t.regs) (f : Fld) (i : Nat) : s.reg f i = t.reg f i := by
  unfold State.reg; rw [h]

theorem agree_raiseBy (s : State) (e own : Nat) (d : List Nat) (m : List Nat → List Nat → List Nat) (fn : Option Nat) :
    Agree (s.raiseBy e own d m fn) s := by
  refine ⟨?_, fun f i _ _ => State.reg_of_regs (by simp) f i⟩
  unfold State.raiseBy; split <;> rfl

theorem agree_ev (s : State) (e : Nat) (d : List (Nat × Nat)) : Agree (s.ev e d) s := agree_raiseBy _ _ _ _ _ _
theorem agree_evFn (s : State) (e f : Nat) (d : List (Nat × Nat)) : Agree (s.evFn e f d) s := agree_raiseBy _ _ _ _ _ _
theorem agree_evSevBy (s : State) (e own : Nat) (d : List (Nat × Nat)) : Agree (s.evSevBy e own d) s := agree_raiseBy _ _ _ _ _ _
theorem agree_evSum (s : State) (e : Nat) (d : List (Nat × Nat)) (m : List Nat → List Nat → List Nat) : Agree (s.evSum e d m) s :=
  agree_raiseBy _ _ _ _ _ _
theorem agree_evT (s : State) (e : Nat) (l : List (Nat × Nat × Mg)) : Agree (s.evT e l) s := agree_evSum _ _ _ _
theorem agree_evIf (s : State) (c : Bool) (e : Nat) (d : List (Nat × Nat)) : Agree (s.evIf c e d) s := by
  unfold State.evIf; split
  · exact agree_ev _ _ _
  · exact Agree.refl _

theorem agree_evAcc (s : State) (a : Tab EvAcc) : Agree ({ s with evAcc := a } : State) s := ⟨rfl, fun _ _ _ _ => rfl⟩

/-- Whether or not an account is then replaced, the agreement stands. -/
theorem Agree.ite_evAcc {r s : State} (h : Agree r s) (c : Prop) [Decidable c] (a : Tab EvAcc) :
    Agree (if c then r else { r with evAcc := a }) s := by
  split
  · exact h
  · exact (agree_evAcc _ _).trans h

theorem agree_evObj (s : State) (e obj cpos : Nat) (f : Nat → List (Nat × Nat)) : Agree (s.evObj e obj cpos f) s :=
  (agree_raiseBy s _ _ _ _ _).ite_evAcc _ _

theorem agree_evCount (s : State) (e obj : Nat) (f : Nat → List (Nat × Nat × Mg)) : Agree (s.evCount e obj f) s :=
  (agree_raiseBy s _ _ _ _ _).ite_evAcc _ _

theorem agree_evTally (s : State) (e obj : Nat) (l : List (Nat × Nat × Mg)) : Agree (s.evTally e obj l) s := agree_evCount _ _ _ _

theorem agree_evLow (s : State) (e obj : Nat) (r : List (Nat × Nat)) : Agree (s.evLow e obj r) s := agree_evObj _ _ _ _ _

theorem agree_fig (s : State) (f : Figs → Figs) : Agree (s.fig f) s := ⟨rfl, fun _ _ _ _ => rfl⟩
theorem agree_guard (s : State) (b n : Nat) : Agree (s.guard b n) s := ⟨rfl, fun _ _ _ _ => rfl⟩
theorem agree_hwNote (s : State) (f : Fld) (i v : Nat) : Agree (s.hwNote f i v) s := ⟨rfl, fun _ _ _ _ => rfl⟩
theorem agree_noteWrite (s : State) (who a v m old : Nat) : Agree (s.noteWrite who a v m old) s := ⟨rfl, fun _ _ _ _ => rfl⟩
theorem agree_hwSet (s : State) (f : Fld) (i v : Nat) : Agree (s.hwSet f i v) (s.setReg f i (s.reg f i ||| v)) := agree_hwNote _ _ _ _
theorem agree_hwCount (s : State) (f : Fld) (i n : Nat) : Agree (s.hwCount f i n) (s.countReg f i n) := agree_hwNote _ _ _ _

theorem agree_addCounter (s : State) {u k : Nat} (n : Nat) (hu : u < 1000) (hk : k < 8) : Agree (addCounter s u k n) s := by
  have h1 : ∀ v w, Agree ((s.setReg .OBS_U_CNT_VALUE (u * 8 + k) v).hwNote .OBS_U_CNT_VALUE (u * 8 + k) w) s :=
    fun v w => (agree_hwNote _ _ _ _).trans (Agree.account rfl s v (by omega))
  unfold addCounter
  dsimp only
  split
  · exact h1 _ _
  · unfold State.overflow
    exact (agree_evSum _ _ _ _).trans ((agree_hwSet _ _ _ _).trans ((Agree.account rfl _ _ (by omega)).trans (h1 _ _)))

theorem agree_foldl {α : Type} (g : State → α → State) (l : List α) (h : ∀ s a, a ∈ l → Agree (g s a) s) (s : State) :
    Agree (l.foldl g s) s := by
  induction l generalizing s with
  | nil => exact Agree.refl _
  | cons a t ih =>
    rw [List.foldl_cons]
    exact (ih (fun s b hb => h s b (List.mem_cons_of_mem _ hb)) _).trans (h s a (List.mem_cons_self ..))

/-- Counting changes only accounts. -/
theorem agree_tally (s : State) {u : Nat} (item q b kind idx n : Nat) (hu : u < 1000) : Agree (s.tally u item q b kind idx n) s := by
  unfold State.tally
  split
  · exact Agree.refl _
  · refine agree_foldl _ _ (fun s k hk => ?_) _
    split
    · exact agree_addCounter s n hu (List.mem_range.mp hk)
    · exact Agree.refl _

theorem agree_tallyAny (s : State) {u : Nat} (item kind : Nat) (objs : List Nat) (hu : u < 1000) : Agree (s.tallyAny u item kind objs) s := by
  unfold State.tallyAny
  refine agree_foldl _ _ (fun s k hk => ?_) _
  split
  · exact agree_addCounter s _ hu (List.mem_range.mp hk)
  · exact Agree.refl _

theorem agree_tally1 (s : State) {u : Nat} (item idx : Nat) (hu : u < 1000) : Agree (s.tally1 u item idx) s :=
  agree_tally s _ _ _ _ _ _ hu

/-- Agreement passes through every update that is a function of the body alone and leaves the registers and accounts alone. -/
theorem Agree.map {t x : State} (h : Agree t x) (g : State → State)
    (hb : ∀ s, (g s).body = (g s.body).body) (hr : ∀ s, (g s).regs = s.regs) : Agree (g t) (g x) := by
  refine ⟨?_, fun f i a b => ?_⟩
  · rw [hb t, hb x, h.1]
  · rw [State.reg_of_regs (hr t), State.reg_of_regs (hr x), h.2 f i a b]

theorem Agree.emit {t x : State} (h : Agree t x) (o : Out) : Agree (t.emit o) (x.emit o) :=
  h.map (·.emit o) (fun _ => rfl) (fun _ => rfl)

theorem Agree.fresh {t x : State} (h : Agree t x) : Agree t.fresh x.fresh :=
  h.map State.fresh (fun _ => rfl) (fun _ => rfl)

theorem Agree.setRegs {t x : State} (h : Agree t x) (l : List (Fld × Nat × Nat)) : Agree (t.setRegs l) (x.setRegs l) := by
  unfold State.setRegs
  induction l generalizing t x with
  | nil => exact h
  | cons a l ih => rw [List.foldl_cons, List.foldl_cons]; exact ih (h.setReg _ _ _)

theorem Agree.hst {t x : State} (h : Agree t x) : t.hst = x.hst := by
  have := congrArg State.hst h.1; exact this
theorem Agree.clk {t x : State} (h : Agree t x) : t.clk = x.clk := by
  have := congrArg State.clk h.1; exact this
theorem Agree.obs {t x : State} (h : Agree t x) : t.obs = x.obs := by
  have := congrArg State.obs h.1; exact this
theorem Agree.sys {t x : State} (h : Agree t x) : t.sys = x.sys := by
  have := congrArg State.sys h.1; exact this
theorem Agree.reg {t x : State} (h : Agree t x) {f : Fld} (hf : Fld.isAccount f = false) {i : Nat} (hi : i < 8192) :
    t.reg f i = x.reg f i := h.2 f i hf hi

theorem Agree.sampLose {t x : State} (h : Agree t x) {k : Nat} (hk : k < 8192) (b : Bool) : Agree (t.sampLose k b) (x.sampLose k b) := by
  unfold State.sampLose
  refine (agree_evSum _ _ _ _).trans (Agree.trans ?_ (agree_evSum _ _ _ _).symm)
  unfold State.wrapReg
  split
  · rw [h.reg rfl hk]; exact h.setReg _ _ _
  · rw [h.reg rfl hk]; exact h.setReg _ _ _

theorem Agree.setObs {t x : State} (h : Agree t x) (v : Obs) : Agree { t with obs := v } { x with obs := v } :=
  h.map (fun s => { s with obs := v }) (fun _ => rfl) (fun _ => rfl)

theorem Agree.sampWrite {t x : State} (h : Agree t x) {k : Nat} (hk : k < 8192) (r : List Nat) : Agree (t.sampWrite k r) (x.sampWrite k r) := by
  unfold State.sampWrite
  dsimp only
  rw [h.reg (f := .OBS_SAMP_SIZE_LOG2_SIZE) rfl hk, h.reg (f := .OBS_SAMP_TAIL_TAIL) rfl hk, h.reg (f := .OBS_SAMP_HEAD_HEAD) rfl hk,
    h.reg (f := .OBS_SAMP_CFG_MAX_TICK) rfl hk, h.reg (f := .OBS_SAMP_BASE_ADDR) rfl hk, h.obs]
  split
  · exact h.sampLose hk _
  · split
    · exact h.sampLose hk _
    · have e : ∀ (s : State) (o : Out) (f : Fld) (i v : Nat), ((s.emit o).setReg f i v).obs = s.obs := fun _ _ _ _ _ => rfl
      rw [e, e, h.obs]
      exact ((h.emit _).setReg _ _ _).setObs _

theorem Agree.sampCommand {t x : State} (h : Agree t x) (c : Cmd) (st : Nat) : Agree (t.sampCommand c st) (x.sampCommand c st) := by
  unfold State.sampCommand
  split
  · exact h
  · unfold State.wrapNs State.taiNs
    rw [h.clk]
    exact h.sampWrite (by decide) _

theorem Agree.setHst {t x : State} (h : Agree t x) (v : Hst) : Agree { t with hst := v } { x with hst := v } :=
  h.map (fun s => { s with hst := v }) (fun _ => rfl) (fun _ => rfl)

/-! Agreeing states have the same fields, and replacing one keeps the agreement. -/
theorem Agree.pending {t x : State} (h : Agree t x) : t.pending = x.pending := by
  have := congrArg State.pending h.1; exact this
theorem Agree.setPending {t x : State} (h : Agree t x) (v : List Instr) : Agree { t with pending := v } { x with pending := v } :=
  h.map (fun s => { s with pending := v }) (fun _ => rfl) (fun _ => rfl)
theorem Agree.setClk {t x : State} (h : Agree t x) (v : Clock) : Agree { t with clk := v } { x with clk := v } :=
  h.map (fun s => { s with clk := v }) (fun _ => rfl) (fun _ => rfl)
theorem Agree.pend {t x : State} (h : Agree t x) : t.pend = x.pend := by
  have := congrArg State.pend h.1; exact this
theorem Agree.setPend {t x : State} (h : Agree t x) (v : Tab (Option Nat)) : Agree { t with pend := v } { x with pend := v } :=
  h.map (fun s => { s with pend := v }) (fun _ => rfl) (fun _ => rfl)
theorem Agree.hiLatch {t x : State} (h : Agree t x) : t.hiLatch = x.hiLatch := by
  have := congrArg State.hiLatch h.1; exact this
theorem Agree.setHiLatch {t x : State} (h : Agree t x) (v : Tab (Option (Nat × Nat))) : Agree { t with hiLatch := v } { x with hiLatch := v } :=
  h.map (fun s => { s with hiLatch := v }) (fun _ => rfl) (fun _ => rfl)
theorem Agree.loHold {t x : State} (h : Agree t x) : t.loHold = x.loHold := by
  have := congrArg State.loHold h.1; exact this
theorem Agree.setLoHold {t x : State} (h : Agree t x) (v : Tab (Option (Nat × Nat))) : Agree { t with loHold := v } { x with loHold := v } :=
  h.map (fun s => { s with loHold := v }) (fun _ => rfl) (fun _ => rfl)
theorem Agree.out {t x : State} (h : Agree t x) : t.out = x.out := by
  have := congrArg State.out h.1; exact this
theorem Agree.setOut {t x : State} (h : Agree t x) (v : List Out) : Agree { t with out := v } { x with out := v } :=
  h.map (fun s => { s with out := v }) (fun _ => rfl) (fun _ => rfl)
theorem Agree.freeCtr {t x : State} (h : Agree t x) : t.freeCtr = x.freeCtr := by
  have := congrArg State.freeCtr h.1; exact this
theorem Agree.setFreeCtr {t x : State} (h : Agree t x) (v : Nat) : Agree { t with freeCtr := v } { x with freeCtr := v } :=
  h.map (fun s => { s with freeCtr := v }) (fun _ => rfl) (fun _ => rfl)
theorem Agree.store {t x : State} (h : Agree t x) : t.store = x.store := by
  have := congrArg State.store h.1; exact this
theorem Agree.setStore {t x : State} (h : Agree t x) (v : Tab (List Ver)) : Agree { t with store := v } { x with store := v } :=
  h.map (fun s => { s with store := v }) (fun _ => rfl) (fun _ => rfl)
theorem Agree.setSys {t x : State} (h : Agree t x) (v : Sys) : Agree { t with sys := v } { x with sys := v } :=
  h.map (fun s => { s with sys := v }) (fun _ => rfl) (fun _ => rfl)
theorem Agree.ln {t x : State} (h : Agree t x) : t.ln = x.ln := by
  have := congrArg State.ln h.1; exact this
theorem Agree.setLn {t x : State} (h : Agree t x) (v : Ln) : Agree { t with ln := v } { x with ln := v } :=
  h.map (fun s => { s with ln := v }) (fun _ => rfl) (fun _ => rfl)
theorem Agree.prt {t x : State} (h : Agree t x) : t.prt = x.prt := by
  have := congrArg State.prt h.1; exact this
theorem Agree.setPrt {t x : State} (h : Agree t x) (v : Prt) : Agree { t with prt := v } { x with prt := v } :=
  h.map (fun s => { s with prt := v }) (fun _ => rfl) (fun _ => rfl)
theorem Agree.cls {t x : State} (h : Agree t x) : t.cls = x.cls := by
  have := congrArg State.cls h.1; exact this
theorem Agree.setCls {t x : State} (h : Agree t x) (v : Cls) : Agree { t with cls := v } { x with cls := v } :=
  h.map (fun s => { s with cls := v }) (fun _ => rfl) (fun _ => rfl)
theorem Agree.oas {t x : State} (h : Agree t x) : t.oas = x.oas := by
  have := congrArg State.oas h.1; exact this
theorem Agree.setOas {t x : State} (h : Agree t x) (v : Oas) : Agree { t with oas := v } { x with oas := v } :=
  h.map (fun s => { s with oas := v }) (fun _ => rfl) (fun _ => rfl)
theorem Agree.swc {t x : State} (h : Agree t x) : t.swc = x.swc := by
  have := congrArg State.swc h.1; exact this
theorem Agree.setSwc {t x : State} (h : Agree t x) (v : Swc) : Agree { t with swc := v } { x with swc := v } :=
  h.map (fun s => { s with swc := v }) (fun _ => rfl) (fun _ => rfl)
theorem Agree.egr {t x : State} (h : Agree t x) : t.egr = x.egr := by
  have := congrArg State.egr h.1; exact this
theorem Agree.setEgr {t x : State} (h : Agree t x) (v : Egr) : Agree { t with egr := v } { x with egr := v } :=
  h.map (fun s => { s with egr := v }) (fun _ => rfl) (fun _ => rfl)
theorem Agree.spe {t x : State} (h : Agree t x) : t.spe = x.spe := by
  have := congrArg State.spe h.1; exact this
theorem Agree.setSpe {t x : State} (h : Agree t x) (v : Spe) : Agree { t with spe := v } { x with spe := v } :=
  h.map (fun s => { s with spe := v }) (fun _ => rfl) (fun _ => rfl)
theorem Agree.tme {t x : State} (h : Agree t x) : t.tme = x.tme := by
  have := congrArg State.tme h.1; exact this
theorem Agree.setTme {t x : State} (h : Agree t x) (v : Tme) : Agree { t with tme := v } { x with tme := v } :=
  h.map (fun s => { s with tme := v }) (fun _ => rfl) (fun _ => rfl)
theorem Agree.seif {t x : State} (h : Agree t x) : t.seif = x.seif := by
  have := congrArg State.seif h.1; exact this
theorem Agree.setSeif {t x : State} (h : Agree t x) (v : Seif) : Agree { t with seif := v } { x with seif := v } :=
  h.map (fun s => { s with seif := v }) (fun _ => rfl) (fun _ => rfl)
theorem Agree.ref {t x : State} (h : Agree t x) : t.ref = x.ref := by
  have := congrArg State.ref h.1; exact this
theorem Agree.setRef {t x : State} (h : Agree t x) (v : Ref) : Agree { t with ref := v } { x with ref := v } :=
  h.map (fun s => { s with ref := v }) (fun _ => rfl) (fun _ => rfl)
theorem Agree.outp {t x : State} (h : Agree t x) : t.outp = x.outp := by
  have := congrArg State.outp h.1; exact this
theorem Agree.setOutp {t x : State} (h : Agree t x) (v : Outp) : Agree { t with outp := v } { x with outp := v } :=
  h.map (fun s => { s with outp := v }) (fun _ => rfl) (fun _ => rfl)
theorem Agree.pair {t x : State} (h : Agree t x) : t.pair = x.pair := by
  have := congrArg State.pair h.1; exact this
theorem Agree.setPair {t x : State} (h : Agree t x) (v : Pair) : Agree { t with pair := v } { x with pair := v } :=
  h.map (fun s => { s with pair := v }) (fun _ => rfl) (fun _ => rfl)
theorem Agree.mbx {t x : State} (h : Agree t x) : t.mbx = x.mbx := by
  have := congrArg State.mbx h.1; exact this
theorem Agree.setMbx {t x : State} (h : Agree t x) (v : Mbx) : Agree { t with mbx := v } { x with mbx := v } :=
  h.map (fun s => { s with mbx := v }) (fun _ => rfl) (fun _ => rfl)
theorem Agree.chk {t x : State} (h : Agree t x) : t.chk = x.chk := by
  have := congrArg State.chk h.1; exact this
theorem Agree.setChk {t x : State} (h : Agree t x) (v : Chk) : Agree { t with chk := v } { x with chk := v } :=
  h.map (fun s => { s with chk := v }) (fun _ => rfl) (fun _ => rfl)
theorem Agree.cairn {t x : State} (h : Agree t x) :
    ({ t.cairn with evt := [], sevCnt := [], figs := Figs.zero } : Cairn) = { x.cairn with evt := [], sevCnt := [], figs := Figs.zero } := by
  have := congrArg State.cairn h.1; exact this
theorem Agree.setCairn {t x : State} (h : Agree t x) (v : Cairn) : Agree { t with cairn := v } { x with cairn := v } :=
  h.map (fun s => { s with cairn := v }) (fun _ => rfl) (fun _ => rfl)

theorem Agree.settle {t x : State} (h : Agree t x) (fn : Nat) : Agree (t.settle fn) (x.settle fn) := by
  unfold State.settle
  rw [h.hst]
  split
  · exact h
  · exact (h.setReg _ _ _).setReg _ _ _

theorem Agree.completeWith {t x : State} (h : Agree t x) (id : Nat) (r : Cpl) : Agree (t.completeWith id r) (x.completeWith id r) := by
  unfold State.completeWith
  rw [h.hst]
  split
  · exact h
  · split
    · exact ((h.setHst _).sampCommand _ _).settle _
    · exact h.setHst _

theorem Agree.complete {t x : State} (h : Agree t x) (id st : Nat) (r : List Nat) : Agree (t.complete id st r) (x.complete id st r) :=
  h.completeWith _ _

/-- Agreement passes through the replacement of the queue and the clock. -/
theorem Agree.frame {t x : State} (h : Agree t x) (s : State) :
    Agree { t with pending := s.pending, clk := s.clk } { x with pending := s.pending, clk := s.clk } :=
  h.map (fun y => { y with pending := s.pending, clk := s.clk }) (fun _ => rfl) (fun _ => rfl)

/-- A command that time does not move yields what its work agrees with. -/
theorem yields_run {i : Instr} {s x : State} {f : State → State} (he : exec i s = run f s) (h : Agree (f s) x) : Yields i s x :=
  ⟨_, he, h.frame s⟩

end Machine
end Sys2Proof
end

