-- ==== Sys2Proof/Laws/Commands.lean ====
section
/-!
SUPPORT. What every Igzozel command shares: what the fetch, the completion and the start of a long operation leave alone,
and what a descriptor that starts at once comes down to.
-/
namespace Sys2Proof
namespace Machine

@[simp] theorem State.sampLose_pending (s : State) (k : Nat) (b : Bool) : (s.sampLose k b).pending = s.pending := by
  unfold State.sampLose; dsimp only; rw [State.evSum_pending]; split <;> rfl
@[simp] theorem State.sampLose_clk (s : State) (k : Nat) (b : Bool) : (s.sampLose k b).clk = s.clk := by
  unfold State.sampLose; dsimp only; rw [State.evSum_clk]; split <;> rfl
@[simp] theorem State.sampLose_pend (s : State) (k : Nat) (b : Bool) : (s.sampLose k b).pend = s.pend := by
  unfold State.sampLose; dsimp only; rw [State.evSum_pend]; split <;> rfl
@[simp] theorem State.sampLose_hiLatch (s : State) (k : Nat) (b : Bool) : (s.sampLose k b).hiLatch = s.hiLatch := by
  unfold State.sampLose; dsimp only; rw [State.evSum_hiLatch]; split <;> rfl
@[simp] theorem State.sampLose_loHold (s : State) (k : Nat) (b : Bool) : (s.sampLose k b).loHold = s.loHold := by
  unfold State.sampLose; dsimp only; rw [State.evSum_loHold]; split <;> rfl
@[simp] theorem State.sampLose_store (s : State) (k : Nat) (b : Bool) : (s.sampLose k b).store = s.store := by
  unfold State.sampLose; dsimp only; rw [State.evSum_store]; split <;> rfl
@[simp] theorem State.sampLose_sys (s : State) (k : Nat) (b : Bool) : (s.sampLose k b).sys = s.sys := by
  unfold State.sampLose; dsimp only; rw [State.evSum_sys]; split <;> rfl
@[simp] theorem State.sampLose_ln (s : State) (k : Nat) (b : Bool) : (s.sampLose k b).ln = s.ln := by
  unfold State.sampLose; dsimp only; rw [State.evSum_ln]; split <;> rfl
@[simp] theorem State.sampLose_prt (s : State) (k : Nat) (b : Bool) : (s.sampLose k b).prt = s.prt := by
  unfold State.sampLose; dsimp only; rw [State.evSum_prt]; split <;> rfl
@[simp] theorem State.sampLose_cls (s : State) (k : Nat) (b : Bool) : (s.sampLose k b).cls = s.cls := by
  unfold State.sampLose; dsimp only; rw [State.evSum_cls]; split <;> rfl
@[simp] theorem State.sampLose_oas (s : State) (k : Nat) (b : Bool) : (s.sampLose k b).oas = s.oas := by
  unfold State.sampLose; dsimp only; rw [State.evSum_oas]; split <;> rfl
@[simp] theorem State.sampLose_swc (s : State) (k : Nat) (b : Bool) : (s.sampLose k b).swc = s.swc := by
  unfold State.sampLose; dsimp only; rw [State.evSum_swc]; split <;> rfl
@[simp] theorem State.sampLose_egr (s : State) (k : Nat) (b : Bool) : (s.sampLose k b).egr = s.egr := by
  unfold State.sampLose; dsimp only; rw [State.evSum_egr]; split <;> rfl
@[simp] theorem State.sampLose_spe (s : State) (k : Nat) (b : Bool) : (s.sampLose k b).spe = s.spe := by
  unfold State.sampLose; dsimp only; rw [State.evSum_spe]; split <;> rfl
@[simp] theorem State.sampLose_tme (s : State) (k : Nat) (b : Bool) : (s.sampLose k b).tme = s.tme := by
  unfold State.sampLose; dsimp only; rw [State.evSum_tme]; split <;> rfl
@[simp] theorem State.sampLose_seif (s : State) (k : Nat) (b : Bool) : (s.sampLose k b).seif = s.seif := by
  unfold State.sampLose; dsimp only; rw [State.evSum_seif]; split <;> rfl
@[simp] theorem State.sampLose_ref (s : State) (k : Nat) (b : Bool) : (s.sampLose k b).ref = s.ref := by
  unfold State.sampLose; dsimp only; rw [State.evSum_ref]; split <;> rfl
@[simp] theorem State.sampLose_outp (s : State) (k : Nat) (b : Bool) : (s.sampLose k b).outp = s.outp := by
  unfold State.sampLose; dsimp only; rw [State.evSum_outp]; split <;> rfl
@[simp] theorem State.sampLose_pair (s : State) (k : Nat) (b : Bool) : (s.sampLose k b).pair = s.pair := by
  unfold State.sampLose; dsimp only; rw [State.evSum_pair]; split <;> rfl
@[simp] theorem State.sampLose_mbx (s : State) (k : Nat) (b : Bool) : (s.sampLose k b).mbx = s.mbx := by
  unfold State.sampLose; dsimp only; rw [State.evSum_mbx]; split <;> rfl
@[simp] theorem State.sampLose_chk (s : State) (k : Nat) (b : Bool) : (s.sampLose k b).chk = s.chk := by
  unfold State.sampLose; dsimp only; rw [State.evSum_chk]; split <;> rfl
@[simp] theorem State.sampLose_hst (s : State) (k : Nat) (b : Bool) : (s.sampLose k b).hst = s.hst := by
  unfold State.sampLose; dsimp only; rw [State.evSum_hst]; split <;> rfl
@[simp] theorem State.sampLose_out (s : State) (k : Nat) (b : Bool) : (s.sampLose k b).out = s.out := by
  unfold State.sampLose; dsimp only; rw [State.evSum_out]; split <;> rfl
@[simp] theorem State.sampLose_freeCtr (s : State) (k : Nat) (b : Bool) : (s.sampLose k b).freeCtr = s.freeCtr := by
  unfold State.sampLose; dsimp only; rw [State.evSum_freeCtr]; split <;> rfl

@[simp] theorem State.sampWrite_pending (s : State) (k : Nat) (r : List Nat) : (s.sampWrite k r).pending = s.pending := by
  unfold State.sampWrite; dsimp only; split
  · exact State.sampLose_pending _ _ _
  · split
    · exact State.sampLose_pending _ _ _
    · rfl
@[simp] theorem State.sampWrite_clk (s : State) (k : Nat) (r : List Nat) : (s.sampWrite k r).clk = s.clk := by
  unfold State.sampWrite; dsimp only; split
  · exact State.sampLose_clk _ _ _
  · split
    · exact State.sampLose_clk _ _ _
    · rfl
@[simp] theorem State.sampWrite_pend (s : State) (k : Nat) (r : List Nat) : (s.sampWrite k r).pend = s.pend := by
  unfold State.sampWrite; dsimp only; split
  · exact State.sampLose_pend _ _ _
  · split
    · exact State.sampLose_pend _ _ _
    · rfl
@[simp] theorem State.sampWrite_hiLatch (s : State) (k : Nat) (r : List Nat) : (s.sampWrite k r).hiLatch = s.hiLatch := by
  unfold State.sampWrite; dsimp only; split
  · exact State.sampLose_hiLatch _ _ _
  · split
    · exact State.sampLose_hiLatch _ _ _
    · rfl
@[simp] theorem State.sampWrite_loHold (s : State) (k : Nat) (r : List Nat) : (s.sampWrite k r).loHold = s.loHold := by
  unfold State.sampWrite; dsimp only; split
  · exact State.sampLose_loHold _ _ _
  · split
    · exact State.sampLose_loHold _ _ _
    · rfl
@[simp] theorem State.sampWrite_store (s : State) (k : Nat) (r : List Nat) : (s.sampWrite k r).store = s.store := by
  unfold State.sampWrite; dsimp only; split
  · exact State.sampLose_store _ _ _
  · split
    · exact State.sampLose_store _ _ _
    · rfl
@[simp] theorem State.sampWrite_sys (s : State) (k : Nat) (r : List Nat) : (s.sampWrite k r).sys = s.sys := by
  unfold State.sampWrite; dsimp only; split
  · exact State.sampLose_sys _ _ _
  · split
    · exact State.sampLose_sys _ _ _
    · rfl
@[simp] theorem State.sampWrite_ln (s : State) (k : Nat) (r : List Nat) : (s.sampWrite k r).ln = s.ln := by
  unfold State.sampWrite; dsimp only; split
  · exact State.sampLose_ln _ _ _
  · split
    · exact State.sampLose_ln _ _ _
    · rfl
@[simp] theorem State.sampWrite_prt (s : State) (k : Nat) (r : List Nat) : (s.sampWrite k r).prt = s.prt := by
  unfold State.sampWrite; dsimp only; split
  · exact State.sampLose_prt _ _ _
  · split
    · exact State.sampLose_prt _ _ _
    · rfl
@[simp] theorem State.sampWrite_cls (s : State) (k : Nat) (r : List Nat) : (s.sampWrite k r).cls = s.cls := by
  unfold State.sampWrite; dsimp only; split
  · exact State.sampLose_cls _ _ _
  · split
    · exact State.sampLose_cls _ _ _
    · rfl
@[simp] theorem State.sampWrite_oas (s : State) (k : Nat) (r : List Nat) : (s.sampWrite k r).oas = s.oas := by
  unfold State.sampWrite; dsimp only; split
  · exact State.sampLose_oas _ _ _
  · split
    · exact State.sampLose_oas _ _ _
    · rfl
@[simp] theorem State.sampWrite_swc (s : State) (k : Nat) (r : List Nat) : (s.sampWrite k r).swc = s.swc := by
  unfold State.sampWrite; dsimp only; split
  · exact State.sampLose_swc _ _ _
  · split
    · exact State.sampLose_swc _ _ _
    · rfl
@[simp] theorem State.sampWrite_egr (s : State) (k : Nat) (r : List Nat) : (s.sampWrite k r).egr = s.egr := by
  unfold State.sampWrite; dsimp only; split
  · exact State.sampLose_egr _ _ _
  · split
    · exact State.sampLose_egr _ _ _
    · rfl
@[simp] theorem State.sampWrite_spe (s : State) (k : Nat) (r : List Nat) : (s.sampWrite k r).spe = s.spe := by
  unfold State.sampWrite; dsimp only; split
  · exact State.sampLose_spe _ _ _
  · split
    · exact State.sampLose_spe _ _ _
    · rfl
@[simp] theorem State.sampWrite_tme (s : State) (k : Nat) (r : List Nat) : (s.sampWrite k r).tme = s.tme := by
  unfold State.sampWrite; dsimp only; split
  · exact State.sampLose_tme _ _ _
  · split
    · exact State.sampLose_tme _ _ _
    · rfl
@[simp] theorem State.sampWrite_seif (s : State) (k : Nat) (r : List Nat) : (s.sampWrite k r).seif = s.seif := by
  unfold State.sampWrite; dsimp only; split
  · exact State.sampLose_seif _ _ _
  · split
    · exact State.sampLose_seif _ _ _
    · rfl
@[simp] theorem State.sampWrite_ref (s : State) (k : Nat) (r : List Nat) : (s.sampWrite k r).ref = s.ref := by
  unfold State.sampWrite; dsimp only; split
  · exact State.sampLose_ref _ _ _
  · split
    · exact State.sampLose_ref _ _ _
    · rfl
@[simp] theorem State.sampWrite_outp (s : State) (k : Nat) (r : List Nat) : (s.sampWrite k r).outp = s.outp := by
  unfold State.sampWrite; dsimp only; split
  · exact State.sampLose_outp _ _ _
  · split
    · exact State.sampLose_outp _ _ _
    · rfl
@[simp] theorem State.sampWrite_pair (s : State) (k : Nat) (r : List Nat) : (s.sampWrite k r).pair = s.pair := by
  unfold State.sampWrite; dsimp only; split
  · exact State.sampLose_pair _ _ _
  · split
    · exact State.sampLose_pair _ _ _
    · rfl
@[simp] theorem State.sampWrite_mbx (s : State) (k : Nat) (r : List Nat) : (s.sampWrite k r).mbx = s.mbx := by
  unfold State.sampWrite; dsimp only; split
  · exact State.sampLose_mbx _ _ _
  · split
    · exact State.sampLose_mbx _ _ _
    · rfl
@[simp] theorem State.sampWrite_chk (s : State) (k : Nat) (r : List Nat) : (s.sampWrite k r).chk = s.chk := by
  unfold State.sampWrite; dsimp only; split
  · exact State.sampLose_chk _ _ _
  · split
    · exact State.sampLose_chk _ _ _
    · rfl
@[simp] theorem State.sampWrite_hst (s : State) (k : Nat) (r : List Nat) : (s.sampWrite k r).hst = s.hst := by
  unfold State.sampWrite; dsimp only; split
  · exact State.sampLose_hst _ _ _
  · split
    · exact State.sampLose_hst _ _ _
    · rfl
@[simp] theorem State.sampWrite_freeCtr (s : State) (k : Nat) (r : List Nat) : (s.sampWrite k r).freeCtr = s.freeCtr := by
  unfold State.sampWrite; dsimp only; split
  · exact State.sampLose_freeCtr _ _ _
  · split
    · exact State.sampLose_freeCtr _ _ _
    · rfl

@[simp] theorem State.sampCommand_pending (s : State) (c : Cmd) (st : Nat) : (s.sampCommand c st).pending = s.pending := by
  unfold State.sampCommand; split
  · rfl
  · exact State.sampWrite_pending _ _ _
@[simp] theorem State.sampCommand_clk (s : State) (c : Cmd) (st : Nat) : (s.sampCommand c st).clk = s.clk := by
  unfold State.sampCommand; split
  · rfl
  · exact State.sampWrite_clk _ _ _
@[simp] theorem State.sampCommand_pend (s : State) (c : Cmd) (st : Nat) : (s.sampCommand c st).pend = s.pend := by
  unfold State.sampCommand; split
  · rfl
  · exact State.sampWrite_pend _ _ _
@[simp] theorem State.sampCommand_hiLatch (s : State) (c : Cmd) (st : Nat) : (s.sampCommand c st).hiLatch = s.hiLatch := by
  unfold State.sampCommand; split
  · rfl
  · exact State.sampWrite_hiLatch _ _ _
@[simp] theorem State.sampCommand_loHold (s : State) (c : Cmd) (st : Nat) : (s.sampCommand c st).loHold = s.loHold := by
  unfold State.sampCommand; split
  · rfl
  · exact State.sampWrite_loHold _ _ _
@[simp] theorem State.sampCommand_store (s : State) (c : Cmd) (st : Nat) : (s.sampCommand c st).store = s.store := by
  unfold State.sampCommand; split
  · rfl
  · exact State.sampWrite_store _ _ _
@[simp] theorem State.sampCommand_sys (s : State) (c : Cmd) (st : Nat) : (s.sampCommand c st).sys = s.sys := by
  unfold State.sampCommand; split
  · rfl
  · exact State.sampWrite_sys _ _ _
@[simp] theorem State.sampCommand_ln (s : State) (c : Cmd) (st : Nat) : (s.sampCommand c st).ln = s.ln := by
  unfold State.sampCommand; split
  · rfl
  · exact State.sampWrite_ln _ _ _
@[simp] theorem State.sampCommand_prt (s : State) (c : Cmd) (st : Nat) : (s.sampCommand c st).prt = s.prt := by
  unfold State.sampCommand; split
  · rfl
  · exact State.sampWrite_prt _ _ _
@[simp] theorem State.sampCommand_cls (s : State) (c : Cmd) (st : Nat) : (s.sampCommand c st).cls = s.cls := by
  unfold State.sampCommand; split
  · rfl
  · exact State.sampWrite_cls _ _ _
@[simp] theorem State.sampCommand_oas (s : State) (c : Cmd) (st : Nat) : (s.sampCommand c st).oas = s.oas := by
  unfold State.sampCommand; split
  · rfl
  · exact State.sampWrite_oas _ _ _
@[simp] theorem State.sampCommand_swc (s : State) (c : Cmd) (st : Nat) : (s.sampCommand c st).swc = s.swc := by
  unfold State.sampCommand; split
  · rfl
  · exact State.sampWrite_swc _ _ _
@[simp] theorem State.sampCommand_egr (s : State) (c : Cmd) (st : Nat) : (s.sampCommand c st).egr = s.egr := by
  unfold State.sampCommand; split
  · rfl
  · exact State.sampWrite_egr _ _ _
@[simp] theorem State.sampCommand_spe (s : State) (c : Cmd) (st : Nat) : (s.sampCommand c st).spe = s.spe := by
  unfold State.sampCommand; split
  · rfl
  · exact State.sampWrite_spe _ _ _
@[simp] theorem State.sampCommand_tme (s : State) (c : Cmd) (st : Nat) : (s.sampCommand c st).tme = s.tme := by
  unfold State.sampCommand; split
  · rfl
  · exact State.sampWrite_tme _ _ _
@[simp] theorem State.sampCommand_seif (s : State) (c : Cmd) (st : Nat) : (s.sampCommand c st).seif = s.seif := by
  unfold State.sampCommand; split
  · rfl
  · exact State.sampWrite_seif _ _ _
@[simp] theorem State.sampCommand_ref (s : State) (c : Cmd) (st : Nat) : (s.sampCommand c st).ref = s.ref := by
  unfold State.sampCommand; split
  · rfl
  · exact State.sampWrite_ref _ _ _
@[simp] theorem State.sampCommand_outp (s : State) (c : Cmd) (st : Nat) : (s.sampCommand c st).outp = s.outp := by
  unfold State.sampCommand; split
  · rfl
  · exact State.sampWrite_outp _ _ _
@[simp] theorem State.sampCommand_pair (s : State) (c : Cmd) (st : Nat) : (s.sampCommand c st).pair = s.pair := by
  unfold State.sampCommand; split
  · rfl
  · exact State.sampWrite_pair _ _ _
@[simp] theorem State.sampCommand_mbx (s : State) (c : Cmd) (st : Nat) : (s.sampCommand c st).mbx = s.mbx := by
  unfold State.sampCommand; split
  · rfl
  · exact State.sampWrite_mbx _ _ _
@[simp] theorem State.sampCommand_chk (s : State) (c : Cmd) (st : Nat) : (s.sampCommand c st).chk = s.chk := by
  unfold State.sampCommand; split
  · rfl
  · exact State.sampWrite_chk _ _ _
@[simp] theorem State.sampCommand_hst (s : State) (c : Cmd) (st : Nat) : (s.sampCommand c st).hst = s.hst := by
  unfold State.sampCommand; split
  · rfl
  · exact State.sampWrite_hst _ _ _
@[simp] theorem State.sampCommand_freeCtr (s : State) (c : Cmd) (st : Nat) : (s.sampCommand c st).freeCtr = s.freeCtr := by
  unfold State.sampCommand; split
  · rfl
  · exact State.sampWrite_freeCtr _ _ _

@[simp] theorem State.settle_pending (s : State) (fn : Nat) : (s.settle fn).pending = s.pending := by
  unfold State.settle; split <;> rfl
@[simp] theorem State.settle_clk (s : State) (fn : Nat) : (s.settle fn).clk = s.clk := by
  unfold State.settle; split <;> rfl
@[simp] theorem State.settle_pend (s : State) (fn : Nat) : (s.settle fn).pend = s.pend := by
  unfold State.settle; split <;> rfl
@[simp] theorem State.settle_hiLatch (s : State) (fn : Nat) : (s.settle fn).hiLatch = s.hiLatch := by
  unfold State.settle; split <;> rfl
@[simp] theorem State.settle_loHold (s : State) (fn : Nat) : (s.settle fn).loHold = s.loHold := by
  unfold State.settle; split <;> rfl
@[simp] theorem State.settle_store (s : State) (fn : Nat) : (s.settle fn).store = s.store := by
  unfold State.settle; split <;> rfl
@[simp] theorem State.settle_sys (s : State) (fn : Nat) : (s.settle fn).sys = s.sys := by
  unfold State.settle; split <;> rfl
@[simp] theorem State.settle_ln (s : State) (fn : Nat) : (s.settle fn).ln = s.ln := by
  unfold State.settle; split <;> rfl
@[simp] theorem State.settle_prt (s : State) (fn : Nat) : (s.settle fn).prt = s.prt := by
  unfold State.settle; split <;> rfl
@[simp] theorem State.settle_cls (s : State) (fn : Nat) : (s.settle fn).cls = s.cls := by
  unfold State.settle; split <;> rfl
@[simp] theorem State.settle_oas (s : State) (fn : Nat) : (s.settle fn).oas = s.oas := by
  unfold State.settle; split <;> rfl
@[simp] theorem State.settle_swc (s : State) (fn : Nat) : (s.settle fn).swc = s.swc := by
  unfold State.settle; split <;> rfl
@[simp] theorem State.settle_egr (s : State) (fn : Nat) : (s.settle fn).egr = s.egr := by
  unfold State.settle; split <;> rfl
@[simp] theorem State.settle_spe (s : State) (fn : Nat) : (s.settle fn).spe = s.spe := by
  unfold State.settle; split <;> rfl
@[simp] theorem State.settle_tme (s : State) (fn : Nat) : (s.settle fn).tme = s.tme := by
  unfold State.settle; split <;> rfl
@[simp] theorem State.settle_seif (s : State) (fn : Nat) : (s.settle fn).seif = s.seif := by
  unfold State.settle; split <;> rfl
@[simp] theorem State.settle_ref (s : State) (fn : Nat) : (s.settle fn).ref = s.ref := by
  unfold State.settle; split <;> rfl
@[simp] theorem State.settle_outp (s : State) (fn : Nat) : (s.settle fn).outp = s.outp := by
  unfold State.settle; split <;> rfl
@[simp] theorem State.settle_pair (s : State) (fn : Nat) : (s.settle fn).pair = s.pair := by
  unfold State.settle; split <;> rfl
@[simp] theorem State.settle_mbx (s : State) (fn : Nat) : (s.settle fn).mbx = s.mbx := by
  unfold State.settle; split <;> rfl
@[simp] theorem State.settle_chk (s : State) (fn : Nat) : (s.settle fn).chk = s.chk := by
  unfold State.settle; split <;> rfl
@[simp] theorem State.settle_hst (s : State) (fn : Nat) : (s.settle fn).hst = s.hst := by
  unfold State.settle; split <;> rfl
@[simp] theorem State.settle_freeCtr (s : State) (fn : Nat) : (s.settle fn).freeCtr = s.freeCtr := by
  unfold State.settle; split <;> rfl
@[simp] theorem State.settle_out (s : State) (fn : Nat) : (s.settle fn).out = s.out := by
  unfold State.settle; split <;> rfl
@[simp] theorem State.settle_evAcc (s : State) (fn : Nat) : (s.settle fn).evAcc = s.evAcc := by
  unfold State.settle; split <;> rfl
@[simp] theorem State.settle_obs (s : State) (fn : Nat) : (s.settle fn).obs = s.obs := by
  unfold State.settle; split <;> rfl
@[simp] theorem State.settle_cairn (s : State) (fn : Nat) : (s.settle fn).cairn = s.cairn := by
  unfold State.settle; split <;> rfl

@[simp] theorem State.completeWith_pending (s : State) (id : Nat) (r : Cpl) : (s.completeWith id r).pending = s.pending := by
  unfold State.completeWith; split
  · rfl
  · split
    · rw [State.settle_pending, State.sampCommand_pending]
    · rfl
@[simp] theorem State.completeWith_clk (s : State) (id : Nat) (r : Cpl) : (s.completeWith id r).clk = s.clk := by
  unfold State.completeWith; split
  · rfl
  · split
    · rw [State.settle_clk, State.sampCommand_clk]
    · rfl
@[simp] theorem State.completeWith_pend (s : State) (id : Nat) (r : Cpl) : (s.completeWith id r).pend = s.pend := by
  unfold State.completeWith; split
  · rfl
  · split
    · rw [State.settle_pend, State.sampCommand_pend]
    · rfl
@[simp] theorem State.completeWith_hiLatch (s : State) (id : Nat) (r : Cpl) : (s.completeWith id r).hiLatch = s.hiLatch := by
  unfold State.completeWith; split
  · rfl
  · split
    · rw [State.settle_hiLatch, State.sampCommand_hiLatch]
    · rfl
@[simp] theorem State.completeWith_loHold (s : State) (id : Nat) (r : Cpl) : (s.completeWith id r).loHold = s.loHold := by
  unfold State.completeWith; split
  · rfl
  · split
    · rw [State.settle_loHold, State.sampCommand_loHold]
    · rfl
@[simp] theorem State.completeWith_store (s : State) (id : Nat) (r : Cpl) : (s.completeWith id r).store = s.store := by
  unfold State.completeWith; split
  · rfl
  · split
    · rw [State.settle_store, State.sampCommand_store]
    · rfl
@[simp] theorem State.completeWith_sys (s : State) (id : Nat) (r : Cpl) : (s.completeWith id r).sys = s.sys := by
  unfold State.completeWith; split
  · rfl
  · split
    · rw [State.settle_sys, State.sampCommand_sys]
    · rfl
@[simp] theorem State.completeWith_ln (s : State) (id : Nat) (r : Cpl) : (s.completeWith id r).ln = s.ln := by
  unfold State.completeWith; split
  · rfl
  · split
    · rw [State.settle_ln, State.sampCommand_ln]
    · rfl
@[simp] theorem State.completeWith_prt (s : State) (id : Nat) (r : Cpl) : (s.completeWith id r).prt = s.prt := by
  unfold State.completeWith; split
  · rfl
  · split
    · rw [State.settle_prt, State.sampCommand_prt]
    · rfl
@[simp] theorem State.completeWith_cls (s : State) (id : Nat) (r : Cpl) : (s.completeWith id r).cls = s.cls := by
  unfold State.completeWith; split
  · rfl
  · split
    · rw [State.settle_cls, State.sampCommand_cls]
    · rfl
@[simp] theorem State.completeWith_oas (s : State) (id : Nat) (r : Cpl) : (s.completeWith id r).oas = s.oas := by
  unfold State.completeWith; split
  · rfl
  · split
    · rw [State.settle_oas, State.sampCommand_oas]
    · rfl
@[simp] theorem State.completeWith_swc (s : State) (id : Nat) (r : Cpl) : (s.completeWith id r).swc = s.swc := by
  unfold State.completeWith; split
  · rfl
  · split
    · rw [State.settle_swc, State.sampCommand_swc]
    · rfl
@[simp] theorem State.completeWith_egr (s : State) (id : Nat) (r : Cpl) : (s.completeWith id r).egr = s.egr := by
  unfold State.completeWith; split
  · rfl
  · split
    · rw [State.settle_egr, State.sampCommand_egr]
    · rfl
@[simp] theorem State.completeWith_spe (s : State) (id : Nat) (r : Cpl) : (s.completeWith id r).spe = s.spe := by
  unfold State.completeWith; split
  · rfl
  · split
    · rw [State.settle_spe, State.sampCommand_spe]
    · rfl
@[simp] theorem State.completeWith_tme (s : State) (id : Nat) (r : Cpl) : (s.completeWith id r).tme = s.tme := by
  unfold State.completeWith; split
  · rfl
  · split
    · rw [State.settle_tme, State.sampCommand_tme]
    · rfl
@[simp] theorem State.completeWith_seif (s : State) (id : Nat) (r : Cpl) : (s.completeWith id r).seif = s.seif := by
  unfold State.completeWith; split
  · rfl
  · split
    · rw [State.settle_seif, State.sampCommand_seif]
    · rfl
@[simp] theorem State.completeWith_ref (s : State) (id : Nat) (r : Cpl) : (s.completeWith id r).ref = s.ref := by
  unfold State.completeWith; split
  · rfl
  · split
    · rw [State.settle_ref, State.sampCommand_ref]
    · rfl
@[simp] theorem State.completeWith_outp (s : State) (id : Nat) (r : Cpl) : (s.completeWith id r).outp = s.outp := by
  unfold State.completeWith; split
  · rfl
  · split
    · rw [State.settle_outp, State.sampCommand_outp]
    · rfl
@[simp] theorem State.completeWith_pair (s : State) (id : Nat) (r : Cpl) : (s.completeWith id r).pair = s.pair := by
  unfold State.completeWith; split
  · rfl
  · split
    · rw [State.settle_pair, State.sampCommand_pair]
    · rfl
@[simp] theorem State.completeWith_mbx (s : State) (id : Nat) (r : Cpl) : (s.completeWith id r).mbx = s.mbx := by
  unfold State.completeWith; split
  · rfl
  · split
    · rw [State.settle_mbx, State.sampCommand_mbx]
    · rfl
@[simp] theorem State.completeWith_chk (s : State) (id : Nat) (r : Cpl) : (s.completeWith id r).chk = s.chk := by
  unfold State.completeWith; split
  · rfl
  · split
    · rw [State.settle_chk, State.sampCommand_chk]
    · rfl
@[simp] theorem State.completeWith_freeCtr (s : State) (id : Nat) (r : Cpl) : (s.completeWith id r).freeCtr = s.freeCtr := by
  unfold State.completeWith; split
  · rfl
  · split
    · rw [State.settle_freeCtr, State.sampCommand_freeCtr]
    · rfl

@[simp] theorem State.complete_pending (s : State) (id st : Nat) (r : List Nat) : (s.complete id st r).pending = s.pending :=
  State.completeWith_pending _ _ _
@[simp] theorem State.complete_clk (s : State) (id st : Nat) (r : List Nat) : (s.complete id st r).clk = s.clk :=
  State.completeWith_clk _ _ _
@[simp] theorem State.complete_pend (s : State) (id st : Nat) (r : List Nat) : (s.complete id st r).pend = s.pend :=
  State.completeWith_pend _ _ _
@[simp] theorem State.complete_hiLatch (s : State) (id st : Nat) (r : List Nat) : (s.complete id st r).hiLatch = s.hiLatch :=
  State.completeWith_hiLatch _ _ _
@[simp] theorem State.complete_loHold (s : State) (id st : Nat) (r : List Nat) : (s.complete id st r).loHold = s.loHold :=
  State.completeWith_loHold _ _ _
@[simp] theorem State.complete_store (s : State) (id st : Nat) (r : List Nat) : (s.complete id st r).store = s.store :=
  State.completeWith_store _ _ _
@[simp] theorem State.complete_sys (s : State) (id st : Nat) (r : List Nat) : (s.complete id st r).sys = s.sys :=
  State.completeWith_sys _ _ _
@[simp] theorem State.complete_ln (s : State) (id st : Nat) (r : List Nat) : (s.complete id st r).ln = s.ln :=
  State.completeWith_ln _ _ _
@[simp] theorem State.complete_prt (s : State) (id st : Nat) (r : List Nat) : (s.complete id st r).prt = s.prt :=
  State.completeWith_prt _ _ _
@[simp] theorem State.complete_cls (s : State) (id st : Nat) (r : List Nat) : (s.complete id st r).cls = s.cls :=
  State.completeWith_cls _ _ _
@[simp] theorem State.complete_oas (s : State) (id st : Nat) (r : List Nat) : (s.complete id st r).oas = s.oas :=
  State.completeWith_oas _ _ _
@[simp] theorem State.complete_swc (s : State) (id st : Nat) (r : List Nat) : (s.complete id st r).swc = s.swc :=
  State.completeWith_swc _ _ _
@[simp] theorem State.complete_egr (s : State) (id st : Nat) (r : List Nat) : (s.complete id st r).egr = s.egr :=
  State.completeWith_egr _ _ _
@[simp] theorem State.complete_spe (s : State) (id st : Nat) (r : List Nat) : (s.complete id st r).spe = s.spe :=
  State.completeWith_spe _ _ _
@[simp] theorem State.complete_tme (s : State) (id st : Nat) (r : List Nat) : (s.complete id st r).tme = s.tme :=
  State.completeWith_tme _ _ _
@[simp] theorem State.complete_seif (s : State) (id st : Nat) (r : List Nat) : (s.complete id st r).seif = s.seif :=
  State.completeWith_seif _ _ _
@[simp] theorem State.complete_ref (s : State) (id st : Nat) (r : List Nat) : (s.complete id st r).ref = s.ref :=
  State.completeWith_ref _ _ _
@[simp] theorem State.complete_outp (s : State) (id st : Nat) (r : List Nat) : (s.complete id st r).outp = s.outp :=
  State.completeWith_outp _ _ _
@[simp] theorem State.complete_pair (s : State) (id st : Nat) (r : List Nat) : (s.complete id st r).pair = s.pair :=
  State.completeWith_pair _ _ _
@[simp] theorem State.complete_mbx (s : State) (id st : Nat) (r : List Nat) : (s.complete id st r).mbx = s.mbx :=
  State.completeWith_mbx _ _ _
@[simp] theorem State.complete_chk (s : State) (id st : Nat) (r : List Nat) : (s.complete id st r).chk = s.chk :=
  State.completeWith_chk _ _ _
@[simp] theorem State.complete_freeCtr (s : State) (id st : Nat) (r : List Nat) : (s.complete id st r).freeCtr = s.freeCtr :=
  State.completeWith_freeCtr _ _ _

@[simp] theorem State.sampCandidate_pending (s : State) (k : Nat) (b : Bool) : (s.sampCandidate k b).1.pending = s.pending := by
  unfold State.sampCandidate; dsimp only; repeat' split
  all_goals rfl
@[simp] theorem State.sampCandidate_clk (s : State) (k : Nat) (b : Bool) : (s.sampCandidate k b).1.clk = s.clk := by
  unfold State.sampCandidate; dsimp only; repeat' split
  all_goals rfl
@[simp] theorem State.sampCandidate_pend (s : State) (k : Nat) (b : Bool) : (s.sampCandidate k b).1.pend = s.pend := by
  unfold State.sampCandidate; dsimp only; repeat' split
  all_goals rfl
@[simp] theorem State.sampCandidate_hiLatch (s : State) (k : Nat) (b : Bool) : (s.sampCandidate k b).1.hiLatch = s.hiLatch := by
  unfold State.sampCandidate; dsimp only; repeat' split
  all_goals rfl
@[simp] theorem State.sampCandidate_loHold (s : State) (k : Nat) (b : Bool) : (s.sampCandidate k b).1.loHold = s.loHold := by
  unfold State.sampCandidate; dsimp only; repeat' split
  all_goals rfl
@[simp] theorem State.sampCandidate_store (s : State) (k : Nat) (b : Bool) : (s.sampCandidate k b).1.store = s.store := by
  unfold State.sampCandidate; dsimp only; repeat' split
  all_goals rfl
@[simp] theorem State.sampCandidate_sys (s : State) (k : Nat) (b : Bool) : (s.sampCandidate k b).1.sys = s.sys := by
  unfold State.sampCandidate; dsimp only; repeat' split
  all_goals rfl
@[simp] theorem State.sampCandidate_ln (s : State) (k : Nat) (b : Bool) : (s.sampCandidate k b).1.ln = s.ln := by
  unfold State.sampCandidate; dsimp only; repeat' split
  all_goals rfl
@[simp] theorem State.sampCandidate_prt (s : State) (k : Nat) (b : Bool) : (s.sampCandidate k b).1.prt = s.prt := by
  unfold State.sampCandidate; dsimp only; repeat' split
  all_goals rfl
@[simp] theorem State.sampCandidate_cls (s : State) (k : Nat) (b : Bool) : (s.sampCandidate k b).1.cls = s.cls := by
  unfold State.sampCandidate; dsimp only; repeat' split
  all_goals rfl
@[simp] theorem State.sampCandidate_oas (s : State) (k : Nat) (b : Bool) : (s.sampCandidate k b).1.oas = s.oas := by
  unfold State.sampCandidate; dsimp only; repeat' split
  all_goals rfl
@[simp] theorem State.sampCandidate_swc (s : State) (k : Nat) (b : Bool) : (s.sampCandidate k b).1.swc = s.swc := by
  unfold State.sampCandidate; dsimp only; repeat' split
  all_goals rfl
@[simp] theorem State.sampCandidate_egr (s : State) (k : Nat) (b : Bool) : (s.sampCandidate k b).1.egr = s.egr := by
  unfold State.sampCandidate; dsimp only; repeat' split
  all_goals rfl
@[simp] theorem State.sampCandidate_spe (s : State) (k : Nat) (b : Bool) : (s.sampCandidate k b).1.spe = s.spe := by
  unfold State.sampCandidate; dsimp only; repeat' split
  all_goals rfl
@[simp] theorem State.sampCandidate_tme (s : State) (k : Nat) (b : Bool) : (s.sampCandidate k b).1.tme = s.tme := by
  unfold State.sampCandidate; dsimp only; repeat' split
  all_goals rfl
@[simp] theorem State.sampCandidate_seif (s : State) (k : Nat) (b : Bool) : (s.sampCandidate k b).1.seif = s.seif := by
  unfold State.sampCandidate; dsimp only; repeat' split
  all_goals rfl
@[simp] theorem State.sampCandidate_ref (s : State) (k : Nat) (b : Bool) : (s.sampCandidate k b).1.ref = s.ref := by
  unfold State.sampCandidate; dsimp only; repeat' split
  all_goals rfl
@[simp] theorem State.sampCandidate_outp (s : State) (k : Nat) (b : Bool) : (s.sampCandidate k b).1.outp = s.outp := by
  unfold State.sampCandidate; dsimp only; repeat' split
  all_goals rfl
@[simp] theorem State.sampCandidate_pair (s : State) (k : Nat) (b : Bool) : (s.sampCandidate k b).1.pair = s.pair := by
  unfold State.sampCandidate; dsimp only; repeat' split
  all_goals rfl
@[simp] theorem State.sampCandidate_mbx (s : State) (k : Nat) (b : Bool) : (s.sampCandidate k b).1.mbx = s.mbx := by
  unfold State.sampCandidate; dsimp only; repeat' split
  all_goals rfl
@[simp] theorem State.sampCandidate_chk (s : State) (k : Nat) (b : Bool) : (s.sampCandidate k b).1.chk = s.chk := by
  unfold State.sampCandidate; dsimp only; repeat' split
  all_goals rfl
@[simp] theorem State.sampCandidate_hst (s : State) (k : Nat) (b : Bool) : (s.sampCandidate k b).1.hst = s.hst := by
  unfold State.sampCandidate; dsimp only; repeat' split
  all_goals rfl
@[simp] theorem State.sampCandidate_out (s : State) (k : Nat) (b : Bool) : (s.sampCandidate k b).1.out = s.out := by
  unfold State.sampCandidate; dsimp only; repeat' split
  all_goals rfl

@[simp] theorem State.fetch_pending (s : State) (h : Hdr) (opc : Nat) : (s.fetch h opc).pending = s.pending := by
  unfold State.fetch; simp
@[simp] theorem State.fetch_clk (s : State) (h : Hdr) (opc : Nat) : (s.fetch h opc).clk = s.clk := by
  unfold State.fetch; simp
@[simp] theorem State.fetch_pend (s : State) (h : Hdr) (opc : Nat) : (s.fetch h opc).pend = s.pend := by
  unfold State.fetch; simp
@[simp] theorem State.fetch_hiLatch (s : State) (h : Hdr) (opc : Nat) : (s.fetch h opc).hiLatch = s.hiLatch := by
  unfold State.fetch; simp
@[simp] theorem State.fetch_loHold (s : State) (h : Hdr) (opc : Nat) : (s.fetch h opc).loHold = s.loHold := by
  unfold State.fetch; simp
@[simp] theorem State.fetch_store (s : State) (h : Hdr) (opc : Nat) : (s.fetch h opc).store = s.store := by
  unfold State.fetch; simp
@[simp] theorem State.fetch_sys (s : State) (h : Hdr) (opc : Nat) : (s.fetch h opc).sys = s.sys := by
  unfold State.fetch; simp
@[simp] theorem State.fetch_ln (s : State) (h : Hdr) (opc : Nat) : (s.fetch h opc).ln = s.ln := by
  unfold State.fetch; simp
@[simp] theorem State.fetch_prt (s : State) (h : Hdr) (opc : Nat) : (s.fetch h opc).prt = s.prt := by
  unfold State.fetch; simp
@[simp] theorem State.fetch_cls (s : State) (h : Hdr) (opc : Nat) : (s.fetch h opc).cls = s.cls := by
  unfold State.fetch; simp
@[simp] theorem State.fetch_oas (s : State) (h : Hdr) (opc : Nat) : (s.fetch h opc).oas = s.oas := by
  unfold State.fetch; simp
@[simp] theorem State.fetch_swc (s : State) (h : Hdr) (opc : Nat) : (s.fetch h opc).swc = s.swc := by
  unfold State.fetch; simp
@[simp] theorem State.fetch_egr (s : State) (h : Hdr) (opc : Nat) : (s.fetch h opc).egr = s.egr := by
  unfold State.fetch; simp
@[simp] theorem State.fetch_spe (s : State) (h : Hdr) (opc : Nat) : (s.fetch h opc).spe = s.spe := by
  unfold State.fetch; simp
@[simp] theorem State.fetch_tme (s : State) (h : Hdr) (opc : Nat) : (s.fetch h opc).tme = s.tme := by
  unfold State.fetch; simp
@[simp] theorem State.fetch_seif (s : State) (h : Hdr) (opc : Nat) : (s.fetch h opc).seif = s.seif := by
  unfold State.fetch; simp
@[simp] theorem State.fetch_ref (s : State) (h : Hdr) (opc : Nat) : (s.fetch h opc).ref = s.ref := by
  unfold State.fetch; simp
@[simp] theorem State.fetch_outp (s : State) (h : Hdr) (opc : Nat) : (s.fetch h opc).outp = s.outp := by
  unfold State.fetch; simp
@[simp] theorem State.fetch_pair (s : State) (h : Hdr) (opc : Nat) : (s.fetch h opc).pair = s.pair := by
  unfold State.fetch; simp
@[simp] theorem State.fetch_mbx (s : State) (h : Hdr) (opc : Nat) : (s.fetch h opc).mbx = s.mbx := by
  unfold State.fetch; simp
@[simp] theorem State.fetch_chk (s : State) (h : Hdr) (opc : Nat) : (s.fetch h opc).chk = s.chk := by
  unfold State.fetch; simp
@[simp] theorem State.fetch_out (s : State) (h : Hdr) (opc : Nat) : (s.fetch h opc).out = s.out := by
  unfold State.fetch; simp

@[simp] theorem State.charged_pending (s : State) (h : Hdr) (sp : Spec) : (s.charged h sp).pending = s.pending := by simp [State.charged, State.fetched]
@[simp] theorem State.charged_clk (s : State) (h : Hdr) (sp : Spec) : (s.charged h sp).clk = s.clk := by simp [State.charged, State.fetched]
@[simp] theorem State.charged_pend (s : State) (h : Hdr) (sp : Spec) : (s.charged h sp).pend = s.pend := by simp [State.charged, State.fetched]
@[simp] theorem State.charged_hiLatch (s : State) (h : Hdr) (sp : Spec) : (s.charged h sp).hiLatch = s.hiLatch := by simp [State.charged, State.fetched]
@[simp] theorem State.charged_loHold (s : State) (h : Hdr) (sp : Spec) : (s.charged h sp).loHold = s.loHold := by simp [State.charged, State.fetched]
@[simp] theorem State.charged_store (s : State) (h : Hdr) (sp : Spec) : (s.charged h sp).store = s.store := by simp [State.charged, State.fetched]
@[simp] theorem State.charged_ln (s : State) (h : Hdr) (sp : Spec) : (s.charged h sp).ln = s.ln := by simp [State.charged, State.fetched]
@[simp] theorem State.charged_prt (s : State) (h : Hdr) (sp : Spec) : (s.charged h sp).prt = s.prt := by simp [State.charged, State.fetched]
@[simp] theorem State.charged_cls (s : State) (h : Hdr) (sp : Spec) : (s.charged h sp).cls = s.cls := by simp [State.charged, State.fetched]
@[simp] theorem State.charged_oas (s : State) (h : Hdr) (sp : Spec) : (s.charged h sp).oas = s.oas := by simp [State.charged, State.fetched]
@[simp] theorem State.charged_swc (s : State) (h : Hdr) (sp : Spec) : (s.charged h sp).swc = s.swc := by simp [State.charged, State.fetched]
@[simp] theorem State.charged_egr (s : State) (h : Hdr) (sp : Spec) : (s.charged h sp).egr = s.egr := by simp [State.charged, State.fetched]
@[simp] theorem State.charged_spe (s : State) (h : Hdr) (sp : Spec) : (s.charged h sp).spe = s.spe := by simp [State.charged, State.fetched]
@[simp] theorem State.charged_tme (s : State) (h : Hdr) (sp : Spec) : (s.charged h sp).tme = s.tme := by simp [State.charged, State.fetched]
@[simp] theorem State.charged_seif (s : State) (h : Hdr) (sp : Spec) : (s.charged h sp).seif = s.seif := by simp [State.charged, State.fetched]
@[simp] theorem State.charged_ref (s : State) (h : Hdr) (sp : Spec) : (s.charged h sp).ref = s.ref := by simp [State.charged, State.fetched]
@[simp] theorem State.charged_outp (s : State) (h : Hdr) (sp : Spec) : (s.charged h sp).outp = s.outp := by simp [State.charged, State.fetched]
@[simp] theorem State.charged_pair (s : State) (h : Hdr) (sp : Spec) : (s.charged h sp).pair = s.pair := by simp [State.charged, State.fetched]
@[simp] theorem State.charged_mbx (s : State) (h : Hdr) (sp : Spec) : (s.charged h sp).mbx = s.mbx := by simp [State.charged, State.fetched]
@[simp] theorem State.charged_chk (s : State) (h : Hdr) (sp : Spec) : (s.charged h sp).chk = s.chk := by simp [State.charged, State.fetched]
@[simp] theorem State.charged_out (s : State) (h : Hdr) (sp : Spec) : (s.charged h sp).out = s.out := by simp [State.charged, State.fetched]

/-- A descriptor that is fetched and starts at once, and passes the checks of R124, does its command's own work. -/
theorem issue_starts {s : State} {h : Hdr} {sp : Spec} (i : Instr) (st : Starts s h sp) :
    s.issue h i sp = run (fun s => sp.work s.hst.nextId (s.charged h sp)) s := by
  obtain ⟨h1, h2, h3, h4, h5, h6, h7⟩ := st
  unfold State.issue run State.present
  have h3' : ¬ fetchBudget ≤ tget 0 s.hst.fetched h.fn := by omega
  have h6' : ¬ (h.fence = true ∧ (s.fetched h sp).ringBusy h.fn h.sq s.hst.nextId = true) := by
    rintro ⟨a, b⟩; rw [h6 a] at b; exact absurd b (by decide)
  have hw : ¬ ((!(s.fetched h sp).execWindow) = true ∨ ((s.fetched h sp).hst.waiting.any fun w => sameRing w h.fn h.sq) = true ∨
      (h.fence = true ∧ (s.fetched h sp).ringBusy h.fn h.sq s.hst.nextId = true)) := by
    rintro (a | a | a)
    · rw [h4] at a; exact absurd a (by decide)
    · rw [h5] at a; exact absurd a (by decide)
    · exact h6' a
  have hb : (s.fetched h sp).begin h sp s.hst.nextId ((s.fetched h sp).earlyChecks h sp.opc (s.fetched h sp).wrapNs) =
      sp.work s.hst.nextId (s.charged h sp) := by
    unfold State.acceptance at h7
    unfold State.begin
    dsimp only
    rw [h7]
    rfl
  simp only [h1, h2, h3', Bool.not_true, Bool.false_eq_true, if_false]
  unfold State.fetched at hw hb
  rw [if_neg hw, hb]

/-- A command that starts yields what its work agrees with. -/
theorem yields_starts {i : Instr} {s x : State} {h : Hdr} {sp : Spec} (he : exec i s = s.issue h i sp) (st : Starts s h sp)
    (ha : Agree (sp.work s.hst.nextId (s.charged h sp)) x) : Yields i s x :=
  yields_run (he.trans (issue_starts i st)) ha

/-- The same, for work that is given in another form. -/
theorem yields_work {i : Instr} {s : State} {h : Hdr} {sp : Spec} {w : State → State} (he : exec i s = s.issue h i sp)
    (st : Starts s h sp) (hw : ∀ u, Agree (sp.work s.hst.nextId u) (w u)) : Yields i s (w (s.charged h sp)) :=
  yields_starts he st (hw _)

end Machine
end Sys2Proof
end

