-- ==== Sys2Proof/Laws/Clock.lean ====
section
/-!
SUPPORT. The clock over the rows that make time pass, the idle step and the runs of time inside a tick: what each keeps of it, and that no other row moves it but by a reset.
-/
namespace Sys2Proof
namespace Machine
open State

/-- No command touches the queue of waiting commands. -/
theorem exec_pending (i : Instr) (s t : State) : exec i s = .next t → t.pending = s.pending := by
  cases i <;> (intro h; injection h with h; subst h; rfl)

/-- A command that is not one of the three rows of time leaves the clock, or restarts it. -/
theorem exec_clk (i : Instr) (s t : State) (hm : movesTime i = false) : exec i s = .next t → t.clk = s.clk ∨ t.clk = Clock.start := by
  cases i <;> first
   | (simp [movesTime] at hm; done)
   | (intro h; injection h with h; subst h; exact Or.inl rfl)
   | (intro h; injection h with h; subst h; dsimp only; split; exact Or.inl rfl; exact Or.inr rfl)

/-- Work that does not move time keeps the clock in order. -/
theorem clockOk_still {f : State → State} {s : State} (h : Clock.ok s.clk) : Clock.ok (State.still f s).clk := h

/-- Running time never takes it back (R378). -/
theorem acc_le_runTime (s : State) (n : Nat) : s.clk.acc ≤ (s.runTime n).clk.acc := by
  unfold State.runTime; exact Nat.le_max_left _ _

/-- Running `n` cycles that fit the tick keeps the clock in order. -/
theorem clockOk_runTime {s : State} (h : Clock.ok s.clk) (n : Nat) (hn : s.clk.cycle + n ≤ s.clk.tickLen) : Clock.ok (s.runTime n).clk := by
  obtain ⟨a,b,c⟩ := h
  refine ⟨?_, b, hn⟩
  have := acc_le_runTime s n
  have h2 : s.clk.acc / 2^40 ≤ (s.runTime n).clk.acc / 2^40 := Nat.div_le_div_right this
  exact le_trans a h2

/-- Running to a cycle keeps the clock in order. -/
theorem clockOk_runTo {s : State} (h : Clock.ok s.clk) (n : Nat) : Clock.ok (s.runTo n).clk := by
  unfold State.runTo
  apply clockOk_runTime h
  have := h.2.2
  omega

/-- The cycle that a run to `n` reaches. -/
theorem runTo_cycle (s : State) (n : Nat) : (s.runTo n).clk.cycle = max s.clk.cycle (min n s.clk.tickLen) := by
  unfold State.runTo State.runTime; dsimp only; omega

/-- A run does not change the length of the tick. -/
theorem runTo_tickLen (s : State) (n : Nat) : (s.runTo n).clk.tickLen = s.clk.tickLen := rfl

/-- Leaving the boundary moves no time. -/
theorem leaveBoundary_clk (s : State) : s.leaveBoundary.clk = s.clk := by 
  unfold leaveBoundary; split
  · rw [State.still_clk]
  · rfl

/-- A tick is a whole number of spans of 16 CORE cycles (R16, R46). -/
theorem ticksTo_dvd (s : State) (n : Nat) : 16 ∣ ticksTo s n := by unfold ticksTo; exact Dvd.intro _ rfl

/-- A step of time that starts at a whole span leaves the clock in order. -/
theorem clockOk_stepClock {s : State} (r : StepReq) (h : 16 ∣ s.clk.cycle) : Clock.ok (s.stepClock r).clk := by
  unfold stepClock
  refine ⟨?_, ?_, ?_⟩
  · dsimp only; omega
  · exact (Nat.dvd_add_iff_right h).mp (ticksTo_dvd _ _)
  · exact Nat.le_add_right _ _

/-- One step of time. -/
theorem stepOnce_clk (s : State) (r : StepReq) : (s.stepOnce r).clk = (s.stepClock r).clk := by
  unfold State.stepOnce; rw [State.still_clk]

/-- The steps of time at CORE cycle 16 keep the clock in order. -/
theorem steps_ok (l : List StepReq) {s : State} (h : Clock.ok s.clk) (hc : 16 ∣ s.clk.cycle) :
    Clock.ok (l.foldl State.stepOnce s).clk ∧ 16 ∣ (l.foldl State.stepOnce s).clk.cycle := by
  induction l generalizing s with
  | nil => exact ⟨h, hc⟩
  | cons r l ih =>
    rw [List.foldl_cons]
    refine ih ?_ ?_ <;> rw [stepOnce_clk]
    · exact clockOk_stepClock r hc
    · exact hc

/-- CORE cycle 16 keeps the clock in order. -/
theorem clockOk_atExec {s : State} (h : Clock.ok s.clk) (hc : 16 ∣ s.clk.cycle) : Clock.ok s.atExec.clk := by
  unfold atExec
  rw [State.still_clk]
  exact (steps_ok _ h hc).1

/-- A run to CORE cycle 16 ends at a whole span. -/
theorem runTo16_dvd {s : State} (h : Clock.ok s.clk) (hc : s.clk.cycle ≤ 16) : 16 ∣ (s.leaveBoundary.runTo 16).clk.cycle := by
  rw [runTo_cycle, leaveBoundary_clk]
  have := h.2.1
  have := h.2.2
  omega

/-- Leaving the boundary keeps the clock in order. -/
theorem clockOk_leaveBoundary {s : State} (h : Clock.ok s.clk) : Clock.ok s.leaveBoundary.clk := by rw [leaveBoundary_clk]; exact h

/-- Work passed on the way moves no time. -/
theorem passed_clk (s : State) : s.cyclePassed.clk = s.clk := by unfold State.cyclePassed; rw [State.still_clk]

/-- Reaching command execution keeps the clock in order. -/
theorem clockOk_reachExec {s : State} (h : Clock.ok s.clk) : Clock.ok s.reachExec.clk := by
  unfold reachExec; split
  · exact clockOk_atExec (by rw [passed_clk]; exact clockOk_runTo (clockOk_leaveBoundary h) _) (by rw [passed_clk]; exact runTo16_dvd h (by omega))
  · exact h

/-- QUIET_WINDOW_CAPTURE keeps the clock in order. -/
theorem clockOk_capture {s : State} (h : Clock.ok s.clk) : Clock.ok (doQuietWindowCapture s).clk := by
  unfold doQuietWindowCapture; split
  · exact h
  · rw [State.still_clk, passed_clk]; exact clockOk_runTo (clockOk_reachExec h) _

/-- TIME_STEP_APPLY keeps the clock in order. -/
theorem clockOk_stepApply {s : State} (h : Clock.ok s.clk) : Clock.ok (doTimeStepApply s).clk := by
  unfold doTimeStepApply; split
  · exact h
  · exact clockOk_atExec (by rw [passed_clk]; exact clockOk_runTo (clockOk_leaveBoundary h) _) (by rw [passed_clk]; exact runTo16_dvd h (by omega))

/-- TICK_BOUNDARY keeps the clock in order. -/
theorem clockOk_boundary {s : State} (x) (h : Clock.ok s.clk) : Clock.ok (doTickBoundary x s).clk := by
  unfold doTickBoundary; split
  · exact h
  · refine ⟨?_, ?_, ?_⟩
    · show 1000 * (_ / 2^40/1000) ≤ _ / 2^40
      exact Nat.mul_div_le _ _
    · exact ticksTo_dvd _ _
    · exact Nat.zero_le _

/-- The clock after an idle step. -/
theorem idle_clk (s : State) (hn : ¬(s.sys.held = true ∨ s.clk.tickLen ≤ s.clk.cycle + 1)) :
    (doIdle s).clk = (let u := (s.leaveBoundary.runTime 1).cyclePassed; if u.clk.cycle = 16 then u.atExec else u).clk := by
  unfold doIdle
  rw [if_neg hn]
  dsimp only
  generalize (if (s.leaveBoundary.runTime 1).cyclePassed.clk.cycle = 16 then (s.leaveBoundary.runTime 1).cyclePassed.atExec
    else (s.leaveBoundary.runTime 1).cyclePassed) = v
  split
  · rw [State.still_clk]
  · rfl

/-- An idle step keeps the clock in order. -/
theorem clockOk_idle {s : State} (h : Clock.ok s.clk) : Clock.ok (doIdle s).clk := by
  by_cases hn : s.sys.held = true ∨ s.clk.tickLen ≤ s.clk.cycle + 1
  · unfold doIdle; rw [if_pos hn]; exact h
  · rw [idle_clk s hn]
    have h1 : Clock.ok (s.leaveBoundary.runTime 1).cyclePassed.clk := by
      rw [passed_clk]; exact clockOk_runTime (clockOk_leaveBoundary h) 1 (by rw [leaveBoundary_clk]; omega)
    dsimp only
    split
    · next h3 => exact clockOk_atExec h1 (by rw [h3])
    · exact h1

/-- The steps of time make no boundary. -/
theorem steps_cnt (l : List StepReq) (s : State) : (l.foldl State.stepOnce s).clk.cycle = s.clk.cycle ∧
    (l.foldl State.stepOnce s).clk.tickCount = s.clk.tickCount := by
  induction l generalizing s with
  | nil => exact ⟨rfl, rfl⟩
  | cons r l ih => rw [List.foldl_cons, (ih _).1, (ih _).2, stepOnce_clk]; exact ⟨rfl, rfl⟩

/-- CORE cycle 16 adds no cycle. -/
theorem atExec_cc (u : State) : u.atExec.clk.cycle = u.clk.cycle ∧ u.atExec.clk.tickCount = u.clk.tickCount := by
  unfold atExec; rw [State.still_clk]; exact steps_cnt _ _

/-- An idle step is a run of one cycle. -/
theorem idle_run (s : State) : (s.leaveBoundary.runTime 1).cyclePassed.clk.cycle = s.clk.cycle + 1 ∧
    (s.leaveBoundary.runTime 1).cyclePassed.clk.tickCount = s.clk.tickCount := by
  rw [passed_clk]; unfold State.runTime; dsimp only; rw [leaveBoundary_clk]; exact ⟨rfl, rfl⟩

/-- An idle step inside a tick adds one CORE cycle. -/
theorem idle_cycle (s : State) (h1 : s.sys.held = false) (h2 : s.clk.cycle + 1 < s.clk.tickLen) :
    (doIdle s).clk.cycle = s.clk.cycle + 1 ∧ (doIdle s).clk.tickCount = s.clk.tickCount := by
  rw [idle_clk s (by rw [h1]; simp; omega)]
  dsimp only
  split
  · rw [(atExec_cc _).1, (atExec_cc _).2]; exact idle_run s
  · exact idle_run s

/-- A run of time makes no boundary. -/
theorem runTime_tickCount (s : State) (n : Nat) : (s.runTime n).clk.tickCount = s.clk.tickCount := rfl

/-- CORE cycle 16 makes no boundary. -/
theorem atExec_tickCount (u : State) : (u.atExec).clk.tickCount = u.clk.tickCount := (atExec_cc u).2

/-- Leaving the boundary makes none. -/
theorem leaveBoundary_tickCount (u : State) : u.leaveBoundary.clk.tickCount = u.clk.tickCount := by rw [leaveBoundary_clk]

/-- Reaching command execution makes no boundary. -/
theorem reachExec_tickCount (u : State) : u.reachExec.clk.tickCount = u.clk.tickCount := by
  unfold reachExec; split
  · rw [atExec_tickCount, passed_clk]; unfold State.runTo; rw [runTime_tickCount, leaveBoundary_tickCount]
  · rfl

/-- The capture makes no boundary. -/
theorem capture_tickCount (s : State) : (doQuietWindowCapture s).clk.tickCount = s.clk.tickCount := by
  unfold doQuietWindowCapture; split
  · rfl
  · dsimp only; rw [State.still_clk, passed_clk]; unfold State.runTo; rw [runTime_tickCount, reachExec_tickCount]

/-- A step of time makes no boundary (R47). -/
theorem stepApply_tickCount (s : State) : (doTimeStepApply s).clk.tickCount = s.clk.tickCount := by
  unfold doTimeStepApply; split
  · rfl
  · rw [atExec_tickCount, passed_clk]; unfold State.runTo; rw [runTime_tickCount, leaveBoundary_tickCount]

/-- Running to the end of the tick makes no boundary. -/
theorem runToEnd_tickCount (s : State) : s.runToEnd.clk.tickCount = s.clk.tickCount := by
  unfold State.runToEnd; dsimp only; split <;> rfl

/-- A boundary adds one to the tick count (R47). -/
theorem boundary_tickCount (x : BoundaryIn) (s : State) (h : s.sys.held = false) : (doTickBoundary x s).clk.tickCount = s.clk.tickCount + 1 := by
  unfold doTickBoundary
  rw [if_neg (by rw [h]; decide)]
  show ((doQuietWindowCapture s).runToEnd).clk.tickCount + 1 = _
  rw [runToEnd_tickCount, capture_tickCount]

/-- An idle step makes no boundary. -/
theorem idle_tickCount (s : State) : (doIdle s).clk.tickCount = s.clk.tickCount := by
  by_cases hn : s.sys.held = true ∨ s.clk.tickLen ≤ s.clk.cycle + 1
  · unfold doIdle; rw [if_pos hn]
  · rw [idle_clk s hn]
    dsimp only
    split
    · rw [(atExec_cc _).2]; exact (idle_run s).2
    · exact (idle_run s).2

/-- Work that does not move time leaves the clock. -/
theorem still_clk (f : State → State) (s : State) : (State.still f s).clk = s.clk := rfl

/-- A new length of the tick changes nothing else of the clock. -/
theorem setTickLen_clk (s : State) : s.setTickLen.clk.cycle = s.clk.cycle ∧ s.setTickLen.clk.tickCount = s.clk.tickCount ∧ s.setTickLen.clk.tick = s.clk.tick ∧ s.setTickLen.clk.acc = s.clk.acc := ⟨rfl, rfl, rfl, rfl⟩

/-- What the clock reads at the start of a tick. -/
theorem advance_clk (c : Clock) : c.advance.cycle = 0 ∧ c.advance.tickCount = c.tickCount + 1 ∧ c.advance.tick = c.advance.acc / 2 ^ 40 / 1000 := by
  unfold Clock.advance; exact ⟨rfl, rfl, rfl⟩

end Machine
end Sys2Proof
end

