-- ==== Sys2Proof/Laws/Registers.lean ====
section
/-!
SUPPORT. Register accesses without an effect of their own, and what no register write moves.
-/
namespace Sys2Proof
namespace Machine

/-- What every step of a fold keeps, the fold keeps. -/
theorem foldl_keep {α β : Type} (p : State → β) (g : State → α → State) (h : ∀ s a, p (g s a) = p s) (l : List α) (s : State) :
    p (l.foldl g s) = p s := by
  induction l generalizing s with
  | nil => rfl
  | cons a t ih => rw [List.foldl_cons, ih, h]

/-- An offset of BAR0 lies below the per-function windows. -/
theorem lt_of_bar0 {a : Nat} (h : a < 0x4000000) : a < 0x5000000 := by omega

/-- A read of registers without effects of their own is a plain read. -/
theorem readReg_plain (s : State) (who a : Nat) (hr : s.reaches who a false = true) (h4 : a % 4 = 0) (hb : a < 0x4000000)
    (ht : a < 0x500010 ∨ 0x500020 ≤ a) (ha : ((fieldsAt a).all fun x => !readActs x.1) = true) :
    s.readReg who a = s.readPlain who a := by
  unfold State.readReg
  rw [if_neg (by simp [hr, h4]), if_neg (by omega), if_neg (by omega), if_neg (by omega), if_neg (by omega)]
  split <;> first
    | rfl
    | (rename_i h; rw [h] at ha; simp [readActs] at ha)

/-- A write of registers without effects of their own stores its fields. -/
theorem storeReg_plain (s : State) (who a v m : Nat) (data : List Line) (ha : ((fieldsAt a).all fun x => !writeActs x.1) = true) :
    s.storeReg who a v m data = s.storeFields (fieldsAt a) v m a := by
  unfold State.storeReg
  dsimp only
  split <;> first
    | rfl
    | (rename_i h; rw [h] at ha; exact Bool.noConfusion (show false = true from List.all_eq_true.mp ha _ (List.mem_cons_self ..)))
    | skip
  rename_i h
  rw [h] at ha
  rw [if_neg]
  intro hc
  obtain ⟨x, hx, hf⟩ := List.any_eq_true.mp hc
  have := List.all_eq_true.mp ha x (List.mem_cons_of_mem _ hx)
  rw [eq_of_beq hf] at this
  exact absurd this (by decide)

/-- Storing a field moves no time. -/
theorem storeField_clk (s : State) (f : Fld) (i v m a : Nat) : (s.storeField f i v m a).clk = s.clk := by
  unfold State.storeField
  dsimp only
  split
  · rfl
  · split <;> first | rfl | skip
    split
    · rfl
    · split
      · rfl
      · unfold State.frozenEvent; dsimp only; split <;> simp

/-- Storing fields moves no time. -/
theorem storeFields_clk (s : State) (l : List (Fld × Nat)) (v m a : Nat) : (s.storeFields l v m a).clk = s.clk := by
  unfold State.storeFields
  exact foldl_keep State.clk (fun (s : State) (x : Fld × Nat) => s.storeField x.1 x.2 v m a) (fun s x => storeField_clk s x.1 x.2 v m a) _ s

/-- A write in the order of its cycle (R626), of registers without effects of their own. -/
theorem storeOrdered_plain (s : State) (who a v m : Nat) (data : List Line) (ha : ((fieldsAt a).all fun x => !writeActs x.1) = true) :
    ∃ w, s.storeOrdered who a v m data = (s.stored who a (fieldsAt a) v m).noteWrite who a v m w := by
  refine ⟨s.regWord (fieldsAt a), ?_⟩
  unfold State.storeOrdered State.stored
  simp only [storeReg_plain _ _ _ _ _ _ ha]

/-- Storing a word moves no time. -/
theorem stored_clk (s : State) (who a : Nat) (l : List (Fld × Nat)) (v m : Nat) : (s.stored who a l v m).clk = s.clk := by
  unfold State.stored; dsimp only
  split
  · exact storeFields_clk _ _ _ _ _
  · rw [storeFields_clk, storeFields_clk]

/-- What a write of registers without effects of their own leaves. -/
theorem storeOrdered_yields {s x u : State} {who a v m : Nat} {data : List Line} (ha : ((fieldsAt a).all fun x => !writeActs x.1) = true)
    (hx : u.stored who a (fieldsAt a) v m = x) (hc : u.clk = s.clk) :
    (u.storeOrdered who a v m data).clk = s.clk ∧ Agree (u.storeOrdered who a v m data) x := by
  obtain ⟨w, hw⟩ := storeOrdered_plain u who a v m data ha
  rw [hw, ← hx]
  exact ⟨(stored_clk _ _ _ _ _ _).trans hc, agree_noteWrite _ _ _ _ _ _⟩

/-- A wake by a register write moves no time. -/
theorem wakeFor_clk (s : State) (a : Nat) : (s.wakeFor a).clk = s.clk := by
  unfold State.wakeFor State.setSub State.powerEvent
  split
  · dsimp only; split
    · rfl
    · simp
  · rfl

/-- Writing other fields leaves a field. -/
theorem setRegs_reg_of_ne (l : List (Fld × Nat × Nat)) (s : State) (f : Fld) (k : Nat) (hk : k < 8192) (h : ∀ x ∈ l, x.1 ≠ f ∧ x.2.1 < 8192) :
    (s.setRegs l).reg f k = s.reg f k := by
  unfold State.setRegs
  induction l generalizing s with
  | nil => rfl
  | cons a t ih =>
    rw [List.foldl_cons, ih _ (fun x hx => h x (List.mem_cons_of_mem _ hx))]
    have := h a (List.mem_cons_self ..)
    exact State.reg_setReg_ne _ (Ne.symm this.1) _ this.2 hk

/-- A one-bit field as a flag. -/
theorem flag_eq_true (s : State) (f : Fld) (i : Nat) : s.flag f i = true ↔ s.reg f i = 1 := by unfold State.flag; simp

/-- A one-bit field as a flag that is down. -/
theorem flag_eq_false (s : State) (f : Fld) (i : Nat) : s.flag f i = false ↔ s.reg f i ≠ 1 := by unfold State.flag; simp

end Machine
end Sys2Proof
end

