-- ==== Sys2Proof/Laws/Reset.lean ====
section
/-!
SUPPORT. What resets, the begin of a start and the abandoning of locks keep: the frames of the rows of ch. 21 and of a function reset.
-/
namespace Sys2Proof
namespace Machine

/-- A reset row answers the state of its reset. -/
theorem yields_reset {i : Instr} {s x : State} {f : State → State} (he : exec i s = runReset f s) (hc : (f s).clk = s.clk)
    (h : Agree (f s) x) : Yields i s x := by
  refine ⟨_, he, ?_⟩
  rw [if_pos hc]
  exact h.frame s

/-- Abandoning locks leaves the system block. -/
theorem abandon_sys (s : State) (who : Nat) : (s.abandon who).sys = s.sys := by
  unfold State.abandon; dsimp only
  split
  · rfl
  · rw [State.ev_sys]
    refine foldl_keep State.sys _ ?_ _ _
    intro s a
    rw [State.tally_sys]; unfold State.lockFree; rfl

/-- Abandoning locks moves no time. -/
theorem abandon_clk (s : State) (who : Nat) : (s.abandon who).clk = s.clk := by
  unfold State.abandon; dsimp only
  split
  · rfl
  · rw [State.ev_clk]
    refine foldl_keep State.clk _ ?_ _ _
    intro s a
    rw [State.tally_clk]; unfold State.lockFree; rfl

/-- Abandoning locks leaves the host interface. -/
theorem abandon_hst (s : State) (who : Nat) : (s.abandon who).hst = s.hst := by
  unfold State.abandon; dsimp only
  split
  · rfl
  · rw [State.ev_hst]
    refine foldl_keep State.hst _ ?_ _ _
    intro s a
    rw [State.tally_hst]; unfold State.lockFree; rfl

/-- Abandoning locks leaves the tables. -/
theorem abandon_store (s : State) (who : Nat) : (s.abandon who).store = s.store := by
  unfold State.abandon; dsimp only
  split
  · rfl
  · rw [State.ev_store]
    refine foldl_keep State.store _ ?_ _ _
    intro s a
    rw [State.tally_store]; unfold State.lockFree; rfl

/-- The mailbox block holds no register. -/
theorem regs_of_mbx (x : State) (m : Mbx) : ({ x with mbx := m } : State).regs = x.regs := rfl

/-- A kicked read that ends changes no register. -/
theorem reg_kickDone (s : State) (fn : Nat) (f : Fld) (i : Nat) : (s.kickDone fn).reg f i = s.reg f i := rfl

/-- Abandoning locks leaves RUN and the event rings. -/
theorem abandon_reg (s : State) (who : Nat) (f : Fld) (hf : f ∈ [Fld.HST_FN_CTRL_RUN, .HST_EVQ_CTRL_EN]) (i : Nat) (hi : i < 8192) :
    (s.abandon who).reg f i = s.reg f i := by
  have ha : Fld.isAccount f = false := by simp at hf; rcases hf with rfl | rfl <;> decide
  unfold State.abandon; dsimp only
  split
  · rfl
  · rw [Agree.reg (agree_ev _ _ _) ha hi]
    have : ∀ (l : List Nat) (u : State), (∀ k ∈ l, k < 64) →
        (l.foldl (fun (s : State) k => (s.lockFree k true).tally 2 5 1 0 1 k 1) u).reg f i = u.reg f i := by
      intro l
      induction l with
      | nil => intro u _; rfl
      | cons a t ih =>
        intro u h
        rw [List.foldl_cons, ih _ fun k hk => h k (List.mem_cons_of_mem _ hk),
          Agree.reg (agree_tally _ _ _ _ _ _ _ (by decide)) ha hi]
        have h6 := h a List.mem_cons_self
        have e : (u.lockFree a true).regs = (u.setRegs [(.MBX_LOCK_HELD, a, 0), (.MBX_LOCK_OWNER, a, 0), (.MBX_LOCK_ABANDONED, a, b2n true)]).regs := by unfold State.lockFree; exact regs_of_mbx _ _
        rw [State.reg_of_regs e]
        refine setRegs_reg_of_ne _ u f i hi ?_
        intro x hx
        simp only [List.mem_cons, List.not_mem_nil, or_false] at hx
        simp at hf
        rcases hf with rfl | rfl <;> rcases hx with rfl | rfl | rfl <;> exact ⟨by dsimp only; decide, by simp only []; omega⟩
    refine this _ _ ?_
    intro k hk
    exact List.mem_range.1 (List.mem_filter.1 hk).1

/-- What a function reset leaves (R118, R119). -/
theorem fnReset_spec (s : State) (fn cause : Nat) (h : fn < 16) :
    (s.fnReset fn cause).reg .HST_FN_CTRL_RUN fn = 0 ∧ (s.fnReset fn cause).reg .HST_EVQ_CTRL_EN fn = 0 ∧
      (s.fnReset fn cause).hst.cmds = s.hst.cmds.filter (fun c => c.fn != fn) ∧
      (s.fnReset fn cause).hst.finals = s.hst.finals.filter (fun c => c.fn != fn) ∧
      (s.fnReset fn cause).hst.waiting = s.hst.waiting ∧
      (s.fnReset fn cause).hst.numVf = s.hst.numVf ∧ (s.fnReset fn cause).clk = s.clk ∧ (s.fnReset fn cause).store = s.store := by
  have hset : ∀ (u : State) , (u.settle fn).hst = u.hst ∧ (u.settle fn).clk = u.clk ∧ (u.settle fn).store = u.store ∧
      (u.settle fn).reg .HST_FN_CTRL_RUN fn = u.reg .HST_FN_CTRL_RUN fn ∧ (u.settle fn).reg .HST_EVQ_CTRL_EN fn = u.reg .HST_EVQ_CTRL_EN fn := by
    intro u; unfold State.settle; split
    · exact ⟨rfl, rfl, rfl, rfl, rfl⟩
    · refine ⟨by simp only [State.setReg_hst], by simp only [State.setReg_clk], by simp only [State.setReg_store], ?_, ?_⟩ <;>
        rw [State.reg_setReg_ne _ (by decide) _ (by omega) (by omega), State.reg_setReg_ne _ (by decide) _ (by omega) (by omega)]
  have hr : ∀ (v : State) (g : Fld), g = .HST_FN_CTRL_RUN ∨ g = .HST_EVQ_CTRL_EN → (v.setRegs ([(.HST_FN_CTRL_RUN, fn, 0), (.HST_EVQ_CTRL_EN, fn, 0), (.HST_EVQ_STATUS_FULL, fn, 0)] ++
    ((List.range 256).map fun n => (Fld.HST_SQ_CTRL_EN, ring fn n, 0)) ++ ((List.range 256).map fun n => (Fld.HST_CQ_CTRL_EN, ring fn n, 0)) ++ ((List.range 256).map fun n => (Fld.HST_CQ_STATUS_FULL, ring fn n, 0)) ++
    (List.range 7).flatMap fun t => [(Fld.HST_SHADOW_CTRL_EN, fn * 7 + t, 0), (Fld.HST_SHADOW_STATUS_ACTIVE, fn * 7 + t, 0)])).reg g fn = 0 := by
    intro v g hg
    have split_ : ∀ (a b : List (Fld × Nat × Nat)), v.setRegs (a ++ b) = (v.setRegs a).setRegs b := fun a b => by unfold State.setRegs; rw [List.foldl_append]
    rw [List.append_assoc, List.append_assoc, List.append_assoc, split_, setRegs_reg_of_ne _ _ g fn (by omega)]
    · unfold State.setRegs; simp only [List.foldl_cons, List.foldl_nil]
      rw [State.reg_setReg_ne _ (by rcases hg with rfl | rfl <;> decide) _ (by omega) (by omega)]
      rcases hg with rfl | rfl
      · rw [State.reg_setReg_ne _ (by decide) _ (by omega) (by omega), State.reg_setReg]; exact Nat.zero_mod _
      · rw [State.reg_setReg]; exact Nat.zero_mod _
    · intro x hx
      simp only [List.mem_append, List.mem_map, List.mem_flatMap, List.mem_range, List.mem_cons, List.not_mem_nil, or_false] at hx
      rcases hg with rfl | rfl <;> rcases hx with ⟨n, hn, rfl⟩ | ⟨n, hn, rfl⟩ | ⟨n, hn, rfl⟩ | ⟨n, hn, rfl | rfl⟩ <;> exact ⟨by dsimp only; decide, by simp only [ring]; omega⟩
  have v1 : (s.fnRegsOff fn).hst = s.hst := by unfold State.fnRegsOff; exact State.setRegs_hst _ _
  have v2 : (s.fnRegsOff fn).clk = s.clk := by unfold State.fnRegsOff; exact State.setRegs_clk _ _
  have v3 : (s.fnRegsOff fn).store = s.store := by unfold State.fnRegsOff; exact State.setRegs_store _ _
  have v4 : ∀ g, g = Fld.HST_FN_CTRL_RUN ∨ g = .HST_EVQ_CTRL_EN → (s.fnRegsOff fn).reg g fn = 0 := by unfold State.fnRegsOff; exact hr s
  clear hr
  have w : ∀ x : State, (((x.fnDrop fn).injectDrop fn).cancelOpsOf fn).hst.cmds = x.hst.cmds.filter (fun c => c.fn != fn) ∧
    (((x.fnDrop fn).injectDrop fn).cancelOpsOf fn).hst.finals = x.hst.finals.filter (fun c => c.fn != fn) ∧
    (((x.fnDrop fn).injectDrop fn).cancelOpsOf fn).hst.waiting = x.hst.waiting ∧
    (((x.fnDrop fn).injectDrop fn).cancelOpsOf fn).hst.numVf = x.hst.numVf ∧ (((x.fnDrop fn).injectDrop fn).cancelOpsOf fn).clk = x.clk ∧
    (((x.fnDrop fn).injectDrop fn).cancelOpsOf fn).store = x.store ∧ (((x.fnDrop fn).injectDrop fn).cancelOpsOf fn).regs = x.regs := by
    intro x
    have hd : ∀ (l : List (Nat × Frame)) (u : State), (l.foldl (fun (s : State) x => if x.2.stamped then s.drainSub x.2.gen else s) u).hst = u.hst :=
      foldl_keep State.hst _ (fun s a => by split <;> rfl)
    have hc : ∀ (l : List (Nat × Frame)) (u : State), (l.foldl (fun (s : State) x => if x.2.stamped then s.drainSub x.2.gen else s) u).clk = u.clk :=
      foldl_keep State.clk _ (fun s a => by split <;> rfl)
    have hs : ∀ (l : List (Nat × Frame)) (u : State), (l.foldl (fun (s : State) x => if x.2.stamped then s.drainSub x.2.gen else s) u).store = u.store :=
      foldl_keep State.store _ (fun s a => by split <;> rfl)
    have hg : ∀ (l : List (Nat × Frame)) (u : State), (l.foldl (fun (s : State) x => if x.2.stamped then s.drainSub x.2.gen else s) u).regs = u.regs :=
      foldl_keep State.regs _ (fun s a => by split <;> rfl)
    have e1 : ((x.fnDrop fn).injectDrop fn).hst = (x.fnDrop fn).hst := by unfold State.injectDrop; exact hd _ _
    have e2 : ((x.fnDrop fn).injectDrop fn).clk = (x.fnDrop fn).clk := by unfold State.injectDrop; exact hc _ _
    have e3 : ((x.fnDrop fn).injectDrop fn).store = (x.fnDrop fn).store := by unfold State.injectDrop; exact hs _ _
    have e4 : ((x.fnDrop fn).injectDrop fn).regs = (x.fnDrop fn).regs := by unfold State.injectDrop; exact hg _ _
    have c1 : ∀ (y : State), (y.cancelOpsOf fn).clk = y.clk ∧ (y.cancelOpsOf fn).store = y.store ∧ (y.cancelOpsOf fn).regs = y.regs ∧
        (y.cancelOpsOf fn).hst.cmds = y.hst.cmds ∧ (y.cancelOpsOf fn).hst.finals = y.hst.finals ∧
        (y.cancelOpsOf fn).hst.waiting = y.hst.waiting ∧ (y.cancelOpsOf fn).hst.numVf = y.hst.numVf := fun y => ⟨rfl, rfl, rfl, rfl, rfl, rfl, rfl⟩
    have d1 : (x.fnDrop fn).clk = x.clk ∧ (x.fnDrop fn).store = x.store ∧ (x.fnDrop fn).regs = x.regs ∧
        (x.fnDrop fn).hst.cmds = x.hst.cmds.filter (fun c => c.fn != fn) ∧ (x.fnDrop fn).hst.finals = x.hst.finals.filter (fun c => c.fn != fn) ∧
        (x.fnDrop fn).hst.waiting = x.hst.waiting ∧ (x.fnDrop fn).hst.numVf = x.hst.numVf := ⟨rfl, rfl, rfl, rfl, rfl, rfl, rfl⟩
    obtain ⟨f1, f2, f3, f4, f5, f6, f7⟩ := c1 ((x.fnDrop fn).injectDrop fn)
    obtain ⟨g1, g2, g3, g4, g5, g6, g7⟩ := d1
    refine ⟨?_, ?_, ?_, ?_, ?_, ?_, ?_⟩
    · rw [f4, e1, g4]
    · rw [f5, e1, g5]
    · rw [f6, e1, g6]
    · rw [f7, e1, g7]
    · rw [f1, e2, g1]
    · rw [f2, e3, g2]
    · rw [f3, e4, g3]
  unfold State.fnReset State.evFn
  refine ⟨?_, ?_, ?_, ?_, ?_, ?_, ?_, ?_⟩
  · rw [Agree.reg (agree_raiseBy _ _ _ _ _ _) (by decide) (by omega), (hset _).2.2.2.1, abandon_reg _ _ _ (by simp) _ (by omega),
      State.reg_of_regs (w _).2.2.2.2.2.2]; exact v4 _ (Or.inl rfl)
  · rw [Agree.reg (agree_raiseBy _ _ _ _ _ _) (by decide) (by omega), (hset _).2.2.2.2, abandon_reg _ _ _ (by simp) _ (by omega),
      State.reg_of_regs (w _).2.2.2.2.2.2]; exact v4 _ (Or.inr rfl)
  · rw [State.raiseBy_hst, (hset _).1, abandon_hst, (w _).1, v1]
  · rw [State.raiseBy_hst, (hset _).1, abandon_hst, (w _).2.1, v1]
  · rw [State.raiseBy_hst, (hset _).1, abandon_hst, (w _).2.2.1, v1]
  · rw [State.raiseBy_hst, (hset _).1, abandon_hst, (w _).2.2.2.1, v1]
  · rw [State.raiseBy_clk, (hset _).2.1, abandon_clk, (w _).2.2.2.2.1, v2]
  · rw [State.raiseBy_store, (hset _).2.2.1, abandon_store, (w _).2.2.2.2.2.1, v3]

/-- `t` is `s` but for the check units and their status. -/
def OnlyChk (t s : State) : Prop := t = { s with regs := t.regs, chk := t.chk } ∧
  ∀ f k, f ∉ [Fld.CHK_UNIT_STATUS_BUSY, .CHK_UNIT_STATUS_CTX, .CHK_UNIT_STATUS_USER, .CHK_UNIT_STATUS_QUEUED] → k < 8192 → t.reg f k = s.reg f k

theorem OnlyChk.refl (s : State) : OnlyChk s s := ⟨rfl, fun _ _ _ _ => rfl⟩

theorem OnlyChk.trans {a b c : State} (h : OnlyChk a b) (g : OnlyChk b c) : OnlyChk a c := by
  obtain ⟨h1, h2⟩ := h; obtain ⟨g1, g2⟩ := g
  refine ⟨?_, fun f k hf hk => (h2 f k hf hk).trans (g2 f k hf hk)⟩
  rw [h1]; rw [g1]

/-- Writing a status field of a check unit. -/
theorem onlyChk_setReg (s : State) (f : Fld) (i v : Nat) (hi : i < 8192)
    (hf : f ∈ [Fld.CHK_UNIT_STATUS_BUSY, .CHK_UNIT_STATUS_CTX, .CHK_UNIT_STATUS_USER, .CHK_UNIT_STATUS_QUEUED]) : OnlyChk (s.setReg f i v) s := by
  refine ⟨rfl, fun g k hg hk => State.reg_setReg_ne s ?_ v hi hk⟩
  rintro rfl; exact hg hf

/-- Changing the check units. -/
theorem onlyChk_chk (s : State) (c : Chk) : OnlyChk { s with chk := c } s := ⟨rfl, fun _ _ _ _ => rfl⟩

/-- Showing a check unit. -/
theorem onlyChk_showUnit (s : State) (n : Nat) (hn : n < 8192) : OnlyChk (s.showUnit n) s := by
  unfold State.showUnit; dsimp only
  split
  · exact (onlyChk_setReg _ _ _ _ hn (by decide)).trans (onlyChk_setReg _ _ _ _ hn (by decide))
  · simp only [State.setRegs, List.foldl]
    exact ((onlyChk_setReg _ _ _ _ hn (by decide)).trans ((onlyChk_setReg _ _ _ _ hn (by decide)).trans (onlyChk_setReg _ _ _ _ hn (by decide)))).trans (onlyChk_setReg _ _ _ _ hn (by decide))

/-- Queueing a check job. -/
theorem onlyChk_queueJob (s : State) (n a b : Nat) (u : JobUse) (hn : n < 8192) : OnlyChk (s.queueJob n a b u) s := by
  have hr : ∀ (t : State) (j : Job), OnlyChk (t.runJob n j) t := fun t j => by
    unfold State.runJob; exact (onlyChk_showUnit _ _ hn).trans (onlyChk_chk _ _)
  unfold State.queueJob
  dsimp only
  split
  · exact hr _ _
  · split
    · exact (hr _ _).trans (onlyChk_chk _ _)
    · exact (onlyChk_showUnit _ _ hn).trans (onlyChk_chk _ _)

/-- Queueing the records of the recorder again. -/
theorem onlyChk_requeueCairn (l : List (List Nat × Bool)) (s : State) (hn : s.reg .CHK_CFG_CAIRN_UNIT < 8192) : OnlyChk (s.requeueCairn l) s := by
  unfold State.requeueCairn
  induction l generalizing s with
  | nil => exact OnlyChk.refl s
  | cons a t ih =>
    rw [List.foldl_cons]
    have h1 := onlyChk_queueJob s (s.reg .CHK_CFG_CAIRN_UNIT) 3 1 (.cairn a.1 a.2) hn
    refine (ih _ ?_).trans h1
    rw [h1.2 _ _ (by decide) (by decide)]; exact hn

/-- Reading a table that a test on keys has thinned. -/
theorem tget_filter {α : Type} (d : α) (p : Nat → Bool) (t : Tab α) (k : Nat) : tget d (t.filter fun x => p x.1) k = if p k then tget d t k else d := by
  induction t with
  | nil => simp [tget]
  | cons a t ih =>
    obtain ⟨j, v⟩ := a
    by_cases hj : p j = true
    · rw [List.filter_cons_of_pos (by simpa using hj)]
      unfold tget
      by_cases h : j = k
      · subst h; simp [hj]
      · simp only [h, if_false]; exact ih
    · rw [List.filter_cons_of_neg (by simpa using hj), ih]
      by_cases h : p k = true
      · have : j ≠ k := by rintro rfl; exact hj h
        simp only [h, if_true]
        conv_rhs => unfold tget
        rw [if_neg this]
      · simp [h]

/-- The registers that a reset keeps, read (R585). -/
theorem keepRegs_get (s : State) (keep : List Fld) (f : Fld) (k : Nat) (hk : k < 8192) :
    tget (f.reset k) (s.keepRegs keep) (f.key k) = if f ∈ keep then s.reg f k else f.reset k := by
  unfold State.keepRegs State.reg
  rw [tget_filter (f.reset k) (fun n => keep.any fun g => n / 8192 == g.ctorIdx)]
  have e : f.key k / 8192 = f.ctorIdx := by unfold Fld.key; omega
  have : (keep.any fun g => f.key k / 8192 == g.ctorIdx) = decide (f ∈ keep) := by
    rw [e, Bool.eq_iff_iff]
    simp only [List.any_eq_true, beq_iff_eq, decide_eq_true_eq]
    constructor
    · rintro ⟨g, hg, he⟩
      have h2 := congrArg Fld.ofNat he
      rw [Fld.ofNat_ctorIdx, Fld.ofNat_ctorIdx] at h2
      rw [h2]; exact hg
    · intro h; exact ⟨f, h, rfl⟩
  rw [this]; simp

/-- A cold reset leaves the reset state with the always-on fields kept (R586). -/
theorem coldClear_only (s : State) : OnlyChk s.coldClear
    ({ State.reset with
    pending := s.pending, out := s.out, freeCtr := s.freeCtr, regs := s.keepRegs aonFields
    sys := { State.reset.sys with
      rails := s.sys.rails, pinLow := s.sys.pinLow, held := s.sys.held, thermHold := s.sys.thermHold, recCopy := s.sys.recCopy, hot := s.sys.hot
      slotA := s.sys.slotA, slotB := s.sys.slotB }
    cairn := s.cairn } : State) := by
  unfold State.coldClear
  refine onlyChk_requeueCairn _ _ ?_
  show tget _ (s.keepRegs aonFields) _ < 8192
  rw [keepRegs_get _ _ _ _ (by decide), if_neg (by decide)]; decide

/-- A register after a cold reset. -/
theorem coldClear_reg (s : State) (f : Fld) (k : Nat) (hk : k < 8192) (hf : f ∉ [Fld.CHK_UNIT_STATUS_BUSY, .CHK_UNIT_STATUS_CTX, .CHK_UNIT_STATUS_USER, .CHK_UNIT_STATUS_QUEUED]) :
   s.coldClear.reg f k = if f ∈ aonFields then s.reg f k else f.reset k := by
  rw [(coldClear_only s).2 f k hf hk]
  exact keepRegs_get s aonFields f k hk

/-- The always-on fields as a test. -/
theorem aonField_of_mem {f : Fld} (h : f ∈ aonFields) : aonField f = true := (List.mem_filter.mp h).2

/-- The begin of a start while its count is below 3. -/
theorem beginStart_eq (s : State) (c : Nat) (h : s.reg .SYS_START_REASON_COUNT < 3) :
    s.beginStart c = (((s.setRegs [(.SYS_STATUS_READY, 0, 0), (.SYS_STATUS_PLAYA, 0, 0), (.SYS_START_REASON_SWITCHED, 0, 0),
      (.SYS_START_REASON_FALLBACK, 0, 0)]).setReg .SYS_STATUS_START 0 0).setReg .SYS_START_REASON_CAUSE 0 c).startBegins.showPins := by
  unfold State.beginStart
  dsimp only
  have : (s.setRegs [(.SYS_STATUS_READY, 0, 0), (.SYS_STATUS_PLAYA, 0, 0), (.SYS_START_REASON_SWITCHED, 0, 0),
      (.SYS_START_REASON_FALLBACK, 0, 0)]).reg .SYS_START_REASON_COUNT = s.reg .SYS_START_REASON_COUNT := by
    simp only [State.setRegs, List.foldl]
    simp (disch := decide) [State.reg_setReg_ne]
  rw [if_neg (by rw [this]; omega)]
  rfl

/-- The begin of a start leaves the other registers. -/
theorem beginStart_reg (s : State) (c : Nat) (h : s.reg .SYS_START_REASON_COUNT < 3) (f : Fld) (k : Nat) (hk : k < 8192)
    (hf : f ∉ [Fld.SYS_STATUS_READY, .SYS_STATUS_PLAYA, .SYS_START_REASON_SWITCHED, .SYS_START_REASON_FALLBACK, .SYS_STATUS_START, .SYS_START_REASON_CAUSE]) :
    (s.beginStart c).reg f k = s.reg f k := by
  rw [beginStart_eq s c h]
  have e : ∀ (u : State), u.startBegins.showPins.reg f k = u.reg f k := fun _ => rfl
  rw [e]
  simp only [List.mem_cons, not_or] at hf
  simp only [State.setRegs, List.foldl]
  rw [State.reg_setReg_ne _ (by tauto) _ (by decide) hk, State.reg_setReg_ne _ (by tauto) _ (by decide) hk, State.reg_setReg_ne _ (by tauto) _ (by decide) hk,
    State.reg_setReg_ne _ (by tauto) _ (by decide) hk, State.reg_setReg_ne _ (by tauto) _ (by decide) hk, State.reg_setReg_ne _ (by tauto) _ (by decide) hk]

/-- The begin of a start shows its state and cause. -/
theorem beginStart_start (s : State) (c : Nat) (hc : c < 256) (h : s.reg .SYS_START_REASON_COUNT < 3) : (s.beginStart c).reg .SYS_STATUS_START = 0 ∧ (s.beginStart c).reg .SYS_START_REASON_CAUSE = c ∧
   (s.beginStart c).reg .SYS_STATUS_READY = 0 ∧ (s.beginStart c).reg .SYS_STATUS_PLAYA = 0 := by
  rw [beginStart_eq s c h]
  have e : ∀ (u : State) f k, u.startBegins.showPins.reg f k = u.reg f k := fun _ _ _ => rfl
  rw [e, e, e, e]
  simp only [State.setRegs, List.foldl]
  refine ⟨?_, ?_, ?_, ?_⟩
  · simp (disch := decide) [State.reg_setReg_ne]
  · rw [State.reg_setReg]; exact Nat.mod_eq_of_lt hc
  · simp (disch := decide) [State.reg_setReg_ne]
  · simp (disch := decide) [State.reg_setReg_ne]

/-- The begin of a start leaves everything that is not a register or told. -/
theorem beginStart_keep {β : Type} (p : State → β) (hp : ∀ (s : State) r o x y, p { s with regs := r, out := o, sys := { s.sys with stateAt := x, startAt := y } } = p s) (s : State) (c : Nat) (h : s.reg .SYS_START_REASON_COUNT < 3) :
    p (s.beginStart c) = p s := by
  rw [beginStart_eq s c h]
  have e : ∀ u : State, u.startBegins.showPins = { u with out := .pin 0 0 u.startBegins.quietPins :: u.out, sys := { u.sys with stateAt := u.clk.tickCount, startAt := u.clk.tickCount } } := fun _ => rfl
  have e2 : ∃ R, (((s.setRegs [(.SYS_STATUS_READY, 0, 0), (.SYS_STATUS_PLAYA, 0, 0), (.SYS_START_REASON_SWITCHED, 0, 0),
      (.SYS_START_REASON_FALLBACK, 0, 0)]).setReg .SYS_STATUS_START 0 0).setReg .SYS_START_REASON_CAUSE 0 c) = { s with regs := R } := ⟨_, rfl⟩
  obtain ⟨R, e2⟩ := e2
  rw [e2, e]
  exact hp s R _ _ _

/-- The fields that a warm reset shows again, of the DPLLs, the traceable flag and the check units. -/
def warmShown : List Fld := [.REF_DPLL_STATUS_SELECTED, .REF_DPLL_FREQ_PPB, .REF_DPLL_HOLD_PPB, .REF_DPLL_STATUS_STATE, .TME_STATUS_TRACEABLE,
  .CHK_UNIT_STATUS_BUSY, .CHK_UNIT_STATUS_CTX, .CHK_UNIT_STATUS_USER, .CHK_UNIT_STATUS_QUEUED]

/-- `t` is `s` but for the references, the check units and what they show. -/
def WarmOf (t s : State) : Prop := t.body = { s.body with ref := t.ref, chk := t.chk } ∧
  ∀ f k, f ∉ warmShown → Fld.isAccount f = false → k < 8192 → t.reg f k = s.reg f k

theorem WarmOf.refl (s : State) : WarmOf s s := ⟨rfl, fun _ _ _ _ _ => rfl⟩

theorem WarmOf.trans {a b c : State} (h : WarmOf a b) (g : WarmOf b c) : WarmOf a c := by
  refine ⟨?_, fun f k h1 h2 h3 => (h.2 f k h1 h2 h3).trans (g.2 f k h1 h2 h3)⟩
  rw [h.1]; rw [g.1]

theorem WarmOf.of_agree {t s : State} (h : Agree t s) : WarmOf t s := by
  refine ⟨?_, fun f k _ h2 h3 => h.2 f k h2 h3⟩
  have h1 := h.1
  have hr : t.ref = s.ref := by have := congrArg State.ref h1; exact this
  have hc : t.chk = s.chk := by have := congrArg State.chk h1; exact this
  rw [hr, hc, h1]; rfl

theorem WarmOf.setReg (s : State) (f : Fld) (i v : Nat) (hi : i < 8192) (hf : f ∈ warmShown) : WarmOf (s.setReg f i v) s := by
  refine ⟨rfl, fun g k hg _ hk => State.reg_setReg_ne s ?_ v hi hk⟩
  rintro rfl; exact hg hf

theorem WarmOf.setDpll (s : State) (d : Nat) (x : Dpll) : WarmOf (s.setDpll d x) s := ⟨rfl, fun _ _ _ _ _ => rfl⟩

theorem WarmOf.of_onlyChk {t s : State} (h : OnlyChk t s) : WarmOf t s := by
  refine ⟨?_, fun f k h1 _ h3 => h.2 f k (fun h => h1 ?_) h3⟩
  · rw [h.1]; rfl
  · simp only [List.mem_cons, List.not_mem_nil, or_false] at h
    rcases h with rfl | rfl | rfl | rfl <;> decide

theorem WarmOf.judgeTraceable (s : State) : WarmOf s.judgeTraceable s := by
  unfold State.judgeTraceable; dsimp only; split
  · exact WarmOf.refl s
  · exact (WarmOf.of_agree (agree_ev _ _ _)).trans (WarmOf.setReg _ _ _ _ (by decide) (by decide))

theorem WarmOf.setDpllState (s : State) (d st : Nat) (hd : d < 2) : WarmOf (s.setDpllState d st) s := by
  unfold State.setDpllState; dsimp only
  have h1 : WarmOf (if st = 2 ∨ st = 3 then s else s.setDpll d { s.dpll d with broken := true }) s := by
    split
    · exact WarmOf.refl s
    · exact WarmOf.setDpll _ _ _
  split
  · exact h1
  · have h2 := ((WarmOf.of_agree (agree_ev (State.setReg (if st = 2 ∨ st = 3 then s else s.setDpll d { s.dpll d with broken := true }) .REF_DPLL_STATUS_STATE d st) 182 [(1, d), (1, s.dpllState d), (1, st), (4, (if st = 2 ∨ st = 3 then s else s.setDpll d { s.dpll d with broken := true }).reg .REF_DPLL_STATUS_BW_NOW d)])).trans (WarmOf.setReg _ _ _ _ (by omega) (by decide))).trans h1
    split
    · exact (WarmOf.judgeTraceable _).trans h2
    · exact h2

theorem WarmOf.warmDpll (s : State) (d : Nat) (x : Dpll) (hd : d < 2) : WarmOf (s.warmDpll d x) s := by
  unfold State.warmDpll; dsimp only
  refine (WarmOf.setDpllState _ _ _ hd).trans ?_
  simp only [State.setRegs, List.foldl]
  exact (((WarmOf.setReg _ _ _ _ (by omega) (by decide)).trans (WarmOf.setReg _ _ _ _ (by omega) (by decide))).trans (WarmOf.setReg _ _ _ _ (by omega) (by decide))).trans (WarmOf.setDpll _ _ _)

/-- The state set is the state shown. -/
theorem setDpllState_reads (s : State) (d st : Nat) (hd : d < 2) (hs : st < 8) : (s.setDpllState d st).reg .REF_DPLL_STATUS_STATE d = st := by
  unfold State.setDpllState; dsimp only
  have hw : (2:Nat) ^ Fld.REF_DPLL_STATUS_STATE.width = 8 := by decide
  have hb : ∀ v, (if st = 2 ∨ st = 3 then s else s.setDpll d v).reg .REF_DPLL_STATUS_STATE d = s.reg .REF_DPLL_STATUS_STATE d := by
    intro v; split <;> rfl
  split
  · rename_i h; rw [hb]; exact h
  · have hj : ∀ u : State, u.judgeTraceable.reg .REF_DPLL_STATUS_STATE d = u.reg .REF_DPLL_STATUS_STATE d := by
      intro u; unfold State.judgeTraceable; dsimp only; split
      · rfl
      · rw [(agree_ev _ _ _).2 _ _ rfl (by omega), State.reg_setReg_ne _ (by decide) _ (by decide) (by omega)]
    split
    · rw [hj, (agree_ev _ _ _).2 _ _ rfl (by omega), State.reg_setReg, hw]; omega
    · rw [(agree_ev _ _ _).2 _ _ rfl (by omega), State.reg_setReg, hw]; omega

/-- The other DPLL keeps its state. -/
theorem setDpllState_other (s : State) (d e st : Nat) (hd : d < 2) (he : e < 2) (h : e ≠ d) : (s.setDpllState d st).reg .REF_DPLL_STATUS_STATE e = s.reg .REF_DPLL_STATUS_STATE e := by
  unfold State.setDpllState; dsimp only
  have hb : ∀ v, (if st = 2 ∨ st = 3 then s else s.setDpll d v).reg .REF_DPLL_STATUS_STATE e = s.reg .REF_DPLL_STATUS_STATE e := by
    intro v; split <;> rfl
  split
  · rw [hb]
  · have hj : ∀ u : State, u.judgeTraceable.reg .REF_DPLL_STATUS_STATE e = u.reg .REF_DPLL_STATUS_STATE e := by
      intro u; unfold State.judgeTraceable; dsimp only; split
      · rfl
      · rw [(agree_ev _ _ _).2 _ _ rfl (by omega), State.reg_setReg_ne _ (by decide) _ (by decide) (by omega)]
    split
    · rw [hj, (agree_ev _ _ _).2 _ _ rfl (by omega), State.reg_setReg_index _ _ _ h, hb]
    · rw [(agree_ev _ _ _).2 _ _ rfl (by omega), State.reg_setReg_index _ _ _ h, hb]

/-- A DPLL is in HOLDOVER after a warm reset. -/
theorem warmDpll_reads (s : State) (x : Dpll) (d : Nat) (hd : d < 2) : (s.warmDpll d x).reg .REF_DPLL_STATUS_STATE d = 4 := setDpllState_reads _ _ _ hd (by decide)

/-- The other DPLL keeps its state. -/
theorem warmDpll_other (s : State) (x : Dpll) (d e : Nat) (hd : d < 2) (he : e < 2) (h : e ≠ d) : (s.warmDpll d x).reg .REF_DPLL_STATUS_STATE e = s.reg .REF_DPLL_STATUS_STATE e := by
  unfold State.warmDpll; dsimp only
  rw [setDpllState_other _ _ _ _ hd he h]
  simp only [State.setRegs, List.foldl]
  rw [State.reg_setReg_ne _ (by decide) _ (by omega) (by omega), State.reg_setReg_ne _ (by decide) _ (by omega) (by omega), State.reg_setReg_ne _ (by decide) _ (by omega) (by omega)]
  rfl

/-- What a warm reset keeps, before the references and the check units are shown again (R585). -/
def warmBase (s : State) : State := 
  let r := State.reset
  { r with
    pending := s.pending, out := s.out, freeCtr := s.freeCtr, clk := s.clk, regs := s.keepRegs warmFields
    sys := { r.sys with
      rails := s.sys.rails, slotA := s.sys.slotA, slotB := s.sys.slotB, warm := true, xo := s.sys.xo, recCopy := s.sys.recCopy, hot := s.sys.hot }
    hst := { r.hst with numVf := s.hst.numVf, linkRate := s.hst.linkRate, linkWidth := s.hst.linkWidth }
    tme := { r.tme with
      slewLeft := s.tme.slewLeft, touched := s.tme.touched, steps := s.tme.steps, lastStep := s.tme.lastStep }
    ref := { r.ref with sec := s.ref.sec, xo := s.ref.xo, gateAt := s.ref.gateAt }
    outp := { r.outp with accAt := s.outp.accAt }
    cairn := { s.cairn with shortDue := s.cairn.shortDue || s.cairn.opened } }

/-- A warm reset. -/
theorem warmClear_spec (s : State) : WarmOf s.warmClear (warmBase s) ∧ s.warmClear.reg .REF_DPLL_STATUS_STATE 0 = 4 ∧ s.warmClear.reg .REF_DPLL_STATUS_STATE 1 = 4 := by
  have h0 : WarmOf (((warmBase s).warmDpll 0 (s.dpll 0)).warmDpll 1 (s.dpll 1)) (warmBase s) := (WarmOf.warmDpll _ _ _ (by decide)).trans (WarmOf.warmDpll _ _ _ (by decide))
  have hq : OnlyChk s.warmClear (((warmBase s).warmDpll 0 (s.dpll 0)).warmDpll 1 (s.dpll 1)) := by
    unfold State.warmClear
    refine onlyChk_requeueCairn _ _ ?_
    show State.reg (((warmBase s).warmDpll 0 (s.dpll 0)).warmDpll 1 (s.dpll 1)) _ 0 < 8192
    rw [h0.2 _ _ (by decide) rfl (by decide)]
    show tget _ (s.keepRegs warmFields) _ < 8192
    rw [keepRegs_get _ _ _ _ (by decide), if_neg (by decide)]; decide
  refine ⟨(WarmOf.of_onlyChk hq).trans h0, ?_, ?_⟩
  · rw [hq.2 _ _ (by decide) (by decide), warmDpll_other _ _ _ _ (by decide) (by decide) (by decide), warmDpll_reads _ _ _ (by decide)]
  · rw [hq.2 _ _ (by decide) (by decide), warmDpll_reads _ _ _ (by decide)]

/-- Showing a check unit moves no time. -/
theorem showUnit_clk (s : State) (n : Nat) : (s.showUnit n).clk = s.clk := by unfold State.showUnit; dsimp only; split <;> rfl

/-- Queueing a check job moves no time. -/
theorem queueJob_clk (s : State) (n a b : Nat) (u : JobUse) : (s.queueJob n a b u).clk = s.clk := by
  unfold State.queueJob State.runJob; dsimp only
  split
  · rw [showUnit_clk]
  · split <;> rw [showUnit_clk]

/-- Closing the recorder moves no time. -/
theorem cairnFlush_clk (s : State) : s.cairnFlush.clk = s.clk := by
  unfold State.cairnFlush
  exact (foldl_keep State.clk (fun (s : State) b => s.cairnNumber b) (fun s b => queueJob_clk _ _ _ _ _) _ _)

/-- A START record moves no time. -/
theorem cairnStart_clk (s : State) : s.cairnStart.clk = s.clk := by
  unfold State.cairnStart State.cairnNumber; split
  · rfl
  · dsimp only; rw [queueJob_clk]; exact cairnFlush_clk s

/-- Entering playa mode moves no time. -/
theorem enterPlaya_clk (s : State) : s.enterPlaya.clk = s.clk := by
  unfold State.enterPlaya; dsimp only
  exact cairnStart_clk _

/-- The begin of a start moves no time. -/
theorem beginStart_clk (s : State) (c : Nat) : (s.beginStart c).clk = s.clk := by
  unfold State.beginStart; dsimp only; split
  · rw [enterPlaya_clk]; rfl
  · have e : ∀ u : State, u.startBegins.showPins.clk = u.clk := fun _ => rfl
    rw [e]; rfl

/-- A failed start moves no time. -/
theorem failStart_clk (s : State) (c : Nat) : (s.failStart c).clk = s.clk := by
  unfold State.failStart; dsimp only; split
  · rw [enterPlaya_clk]; rfl
  · exact cairnStart_clk _

/-- A register after its block was cleared. -/
theorem clearBlock_reg (s : State) (l : List Fld) (keep : Fld → Bool) (f : Fld) (k : Nat) (hk : k < 8192) :
    (s.clearBlock l keep).reg f k = if f ∈ l ∧ keep f = false then f.reset k else s.reg f k := by
  unfold State.clearBlock State.reg
  dsimp only
  rw [tget_filter (f.reset k) (fun n => !(((l.filter fun f => !keep f).map Fld.ctorIdx).contains (n / 8192)))]
  have e : f.key k / 8192 = f.ctorIdx := by unfold Fld.key; omega
  have : (((l.filter fun f => !keep f).map Fld.ctorIdx).contains (f.key k / 8192)) = decide (f ∈ l ∧ keep f = false) := by
    rw [e, Bool.eq_iff_iff]
    simp only [List.contains_iff_mem, List.mem_map, List.mem_filter, Bool.not_eq_true', decide_eq_true_eq]
    constructor
    · rintro ⟨g, hg, he⟩
      have h2 := congrArg Fld.ofNat he
      rw [Fld.ofNat_ctorIdx, Fld.ofNat_ctorIdx] at h2
      rw [← h2]; exact hg
    · intro h; exact ⟨f, h, rfl⟩
  rw [this]
  by_cases h : f ∈ l ∧ keep f = false <;> simp [h]

/-- The counter fields of a unit. -/
def unitFields : List Fld := [.OBS_U_CYC_CYCLES, .OBS_U_OVF_OVF, .OBS_U_CNT_VALUE, .OBS_U_SEL_ALL, .OBS_U_SEL_KIND, .OBS_U_SEL_ITEM, .OBS_U_SEL_SUB, .OBS_U_IDX_IDX]

/-- Clearing a unit's counters leaves the other fields. -/
theorem clearUnit_reg_of_ne (s : State) (u : Nat) (hu : u < 1000) (f : Fld) (k : Nat) (hk : k < 8192) (hf : f ∉ unitFields) : (s.clearUnit u).reg f k = s.reg f k := by
  unfold State.clearUnit
  dsimp only
  have e : ∀ (v : State) o, ({ v with obs := o } : State).reg f k = v.reg f k := fun _ _ => rfl
  rw [e]
  refine setRegs_reg_of_ne _ s f k hk ?_
  intro x hx
  simp only [List.mem_append, List.mem_cons, List.not_mem_nil, or_false, List.mem_map, List.mem_range] at hx
  have hc : x.1 ∈ unitFields ∧ x.2.1 < 8192 := by
    rcases hx with ((((((hx | hx) | hx) | hx) | hx) | hx) | hx)
    · rcases hx with rfl | rfl <;> exact ⟨by simp [unitFields], by dsimp only; omega⟩
    all_goals (obtain ⟨a, ha, rfl⟩ := hx; exact ⟨by simp [unitFields], by dsimp only; omega⟩)
  exact ⟨fun h => hf (h ▸ hc.1), hc.2⟩

/-- A register after a reset of the mailbox block. -/
theorem resetMbx_reg (s : State) (f : Fld) (k : Nat) (hk : k < 8192) (hf : f ∉ unitFields) : (s.resetMbx.dropHalves 2).reg f k =
   if f ∈ fieldsOf 0x200000 ∧ decide (f ∈ [Fld.MBX_CTRL_LOCKED, .MBX_CH_BIND_VALID, .MBX_CH_BIND_SENDER, .MBX_CH_BIND_RECEIVER, .MBX_CH_BIND_REMOTE]) = false then f.reset k else s.reg f k := by
  have e : ∀ u : State, (u.dropHalves 2).reg f k = u.reg f k := fun _ => rfl
  rw [e]
  unfold State.resetMbx
  dsimp only
  rw [clearUnit_reg_of_ne _ _ (by decide) _ _ hk hf]
  exact clearBlock_reg s (fieldsOf 0x200000) _ f k hk

end Machine
end Sys2Proof
end

