-- ==== Sys2Proof/Laws/Effects.lean ====
section
/-!
SUPPORT. Agreement through the shared operations of several blocks: events apart, what they do depends only on what they read.
-/
namespace Sys2Proof
namespace Machine

/-- The event of a commit. -/
theorem agree_commitEvent (s : State) (a b c d : Nat) : Agree (s.commitEvent a b c d) s := agree_ev _ _ _

theorem Agree.ite {c : Prop} [Decidable c] {a b x y : State} (h1 : c → Agree a x) (h2 : ¬c → Agree b y) :
    Agree (if c then a else b) (if c then x else y) := by
  split
  · exact h1 ‹_›
  · exact h2 ‹_›

/-- The event of a ring that stops. -/
theorem agree_ringErr (s : State) (fn n e : Nat) : Agree (s.ringErr fn n e) s := agree_evFn _ _ _ _

/-- The event of a vector that is lost. -/
theorem agree_vectorLost {t s : State} {l : Tab Nat} (h : Agree t { s with hst := { s.hst with lostVec := l } }) (k r : Nat) (b : Bool) :
    ∃ l', Agree (t.vectorLost k r b) { s with hst := { s.hst with lostVec := l' } } := by
  unfold State.vectorLost
  split
  · refine ⟨tset 0 k 1 t.hst.lostVec, (agree_ringErr _ _ _ _).trans ?_⟩
    have e : t.hst = { s.hst with lostVec := l } := congrArg State.hst h.1
    have := h.setHst { t.hst with lostVec := tset 0 k 1 t.hst.lostVec }
    rw [e] at this ⊢
    exact this
  · exact ⟨l, h⟩

/-- The events of vectors that are lost. -/
theorem agree_vectorsLost (s : State) : ∃ l, Agree s.vectorsLost { s with hst := { s.hst with lostVec := l } } := by
  unfold State.vectorsLost
  dsimp only
  have h : ∀ (g : State → Nat → Bool) (ns : List Nat) (t : State) (l : Tab Nat), Agree t { s with hst := { s.hst with lostVec := l } } →
      ∃ l', Agree (ns.foldl (fun (u : State) n => u.vectorLost n (0x100 + n) (g u n)) t) { s with hst := { s.hst with lostVec := l' } } := by
    intro g ns
    induction ns with
    | nil => exact fun t l h => ⟨l, h⟩
    | cons a ns ih =>
      intro t l h
      rw [List.foldl_cons]
      obtain ⟨l', h'⟩ := agree_vectorLost h a (0x100 + a) (g t a)
      exact ih _ l' h'
  obtain ⟨l, hl⟩ := h (fun u n => u.flag .HST_CQ_CTRL_EN n && !u.vectorOk 0 (u.reg .HST_CQ_CTRL_VECTOR n)) (List.range 256) s s.hst.lostVec (Agree.refl _)
  exact agree_vectorLost hl _ _ _

/-- Registers are no part of the Oasis. -/
theorem setReg_oas (s : State) (f : Fld) (i v : Nat) : (s.setReg f i v).oas = s.oas := rfl

/-- The event of an entry that failed. -/
theorem agree_failedEvent (s : State) (t i : Nat) : Agree (s.failedEvent t i) s := by
  unfold State.failedEvent State.guardEvent
  split
  · (repeat' (first
        | with_reducible exact Agree.refl _
        | with_reducible refine (agree_ev _ _ _).trans ?_
        | with_reducible refine (agree_evFn _ _ _ _).trans ?_
        | with_reducible refine (agree_evT _ _ _).trans ?_
        | with_reducible refine (agree_evSum _ _ _ _).trans ?_
        | with_reducible refine (agree_evIf _ _ _ _).trans ?_
        | with_reducible refine (agree_evLow _ _ _ _).trans ?_
        | with_reducible refine (agree_evTally _ _ _ _).trans ?_
        | with_reducible refine (agree_evCount _ _ _ _).trans ?_
        | with_reducible refine (agree_evObj _ _ _ _ _).trans ?_
        | with_reducible refine (agree_evSevBy _ _ _ _).trans ?_
        | with_reducible refine (agree_raiseBy _ _ _ _ _ _).trans ?_
        | with_reducible refine (agree_fig _ _).trans ?_
        | with_reducible refine (agree_guard _ _ _).trans ?_
        | with_reducible refine (agree_tally1 _ _ _ (by first | decide | omega)).trans ?_
        | with_reducible refine (agree_tally _ _ _ _ _ _ _ (by first | decide | omega)).trans ?_
        | with_reducible refine (agree_hwSet _ _ _ _).trans ?_
        | with_reducible refine (agree_hwCount _ _ _ _).trans ?_
        | with_reducible refine (agree_hwNote _ _ _ _).trans ?_
        | with_reducible refine (agree_addCounter _ _ (by first | decide | omega) (by first | decide | omega)).trans ?_
        | with_reducible refine Agree.setReg ?_ _ _ _
        | with_reducible refine Agree.emit ?_ _
        | with_reducible refine Agree.complete ?_ _ _ _
        | with_reducible refine Agree.fresh ?_
        | with_reducible refine Agree.setRegs ?_ _
        | exact Agree.refl _))
  · refine Agree.trans ?_ (agree_guard s (guardBlock t) 1)
    dsimp only
    split <;> (repeat' (first
        | with_reducible exact Agree.refl _
        | with_reducible refine (agree_ev _ _ _).trans ?_
        | with_reducible refine (agree_evFn _ _ _ _).trans ?_
        | with_reducible refine (agree_evT _ _ _).trans ?_
        | with_reducible refine (agree_evSum _ _ _ _).trans ?_
        | with_reducible refine (agree_evIf _ _ _ _).trans ?_
        | with_reducible refine (agree_evLow _ _ _ _).trans ?_
        | with_reducible refine (agree_evTally _ _ _ _).trans ?_
        | with_reducible refine (agree_evCount _ _ _ _).trans ?_
        | with_reducible refine (agree_evObj _ _ _ _ _).trans ?_
        | with_reducible refine (agree_evSevBy _ _ _ _).trans ?_
        | with_reducible refine (agree_raiseBy _ _ _ _ _ _).trans ?_
        | with_reducible refine (agree_fig _ _).trans ?_
        | with_reducible refine (agree_guard _ _ _).trans ?_
        | with_reducible refine (agree_tally1 _ _ _ (by first | decide | omega)).trans ?_
        | with_reducible refine (agree_tally _ _ _ _ _ _ _ (by first | decide | omega)).trans ?_
        | with_reducible refine (agree_hwSet _ _ _ _).trans ?_
        | with_reducible refine (agree_hwCount _ _ _ _).trans ?_
        | with_reducible refine (agree_hwNote _ _ _ _).trans ?_
        | with_reducible refine (agree_addCounter _ _ (by first | decide | omega) (by first | decide | omega)).trans ?_
        | with_reducible refine Agree.setReg ?_ _ _ _
        | with_reducible refine Agree.emit ?_ _
        | with_reducible refine Agree.complete ?_ _ _ _
        | with_reducible refine Agree.fresh ?_
        | with_reducible refine Agree.setRegs ?_ _
        | exact Agree.refl _))

/-- The meter's data are no register. -/
theorem setItm_reg (s : State) (x : Itm) (f : Fld) (i : Nat) : (s.setItm x).reg f i = s.reg f i := rfl

theorem agree_itmStart {t x : State} (h : Agree t x) : Agree t.itmStart x.itmStart := by
  unfold State.itmStart State.setItm; dsimp only; rw [h.seif]; exact (h.setSeif _).setReg _ _ _

theorem agree_setItm {t x : State} (h : Agree t x) (i : Itm) : Agree (t.setItm i) (x.setItm i) := by
  unfold State.setItm; rw [h.seif]; exact h.setSeif _

/-- The fields that the meter shows. -/
theorem agree_itmShown {t x : State} (h : Agree t x) (r : Nat) : Agree (t.itmShown r) (x.itmShown r) := by
  unfold State.itmShown; dsimp only
  rw [h.seif]
  refine (agree_tally _ _ _ _ _ _ _ (u := 6) (by decide)).trans (Agree.trans ?_ (agree_tally _ _ _ _ _ _ _ (u := 6) (by decide)).symm)
  refine (agree_ev _ _ _).trans (Agree.trans ?_ (agree_ev _ _ _).symm)
  refine Agree.setRegs ?_ _
  split
  · exact h
  · exact h.setRegs _

theorem agree_itmEnd {t x : State} (h : Agree t x) (r : Nat) : Agree (t.itmEnd r) (x.itmEnd r) := by
  unfold State.itmEnd; dsimp only
  have e' := agree_itmShown h r
  rw [h.seif]
  have ef : (t.itmShown r).flag .SEIF_ITM_CTRL_CONT = (x.itmShown r).flag .SEIF_ITM_CTRL_CONT := by unfold State.flag; rw [e'.reg (by decide) (by decide)]
  rw [ef]
  split
  · exact (agree_setItm e' _).setReg _ _ _
  · split
    · exact agree_itmStart (agree_setItm e' _)
    · exact agree_setItm e' _

/-- The note of a placement. -/
theorem agree_placeNote3 (s : State) (i : Nat) : Agree (s.placeNote 3 i) s := by
  unfold State.placeNote; dsimp only; rw [if_neg (by decide)]; exact agree_evT _ _ _

theorem Agree.flag {t x : State} (h : Agree t x) {f : Fld} (hf : Fld.isAccount f = false) {i : Nat} (hi : i < 8192) : t.flag f i = x.flag f i := by
  unfold State.flag; rw [h.reg hf hi]

theorem Agree.showGate {t x : State} (h : Agree t x) (p : Nat) (hp : p < 8192) : Agree (t.showGate p) (x.showGate p) := by
  unfold State.showGate
  have e : t.gate p = x.gate p := by unfold State.gate; rw [h.egr]
  dsimp only
  rw [e, h.flag (by decide) hp]
  split
  · exact h.setRegs _
  · exact h.setRegs _

theorem Agree.setPrt_of_eq {t x : State} (h : Agree t x) {v w : Prt} (e : v = w) : Agree { t with prt := v } { x with prt := w } := e ▸ h.setPrt v

theorem Agree.unpause {t x : State} (h : Agree t x) (p prio : Nat) (hp : p < 8192) : Agree (t.unpause p prio) (x.unpause p prio) := by
  have key : ∀ u v : State, Agree u v → ∀ l : List (Nat × Nat), Agree (l.foldl (fun s x => s.evLow 37 p [(1, x.1 % 8), (4, x.2 - 1)]) u) v := by
    intro u v huv l
    exact (agree_foldl _ _ (fun s a _ => agree_evLow _ _ _ _) _).trans huv
  unfold State.unpause State.paused; dsimp only
  rw [h.reg (by decide) hp, h.prt]
  have hs : ∀ (w : Prt), Agree ({ t.setReg .PRT_PFC_XOFF_RX p (x.reg .PRT_PFC_XOFF_RX p - if bit (x.reg .PRT_PFC_XOFF_RX p) prio = true then 2 ^ prio else 0) with prt := w }) ({ x.setReg .PRT_PFC_XOFF_RX p (x.reg .PRT_PFC_XOFF_RX p - if bit (x.reg .PRT_PFC_XOFF_RX p) prio = true then 2 ^ prio else 0) with prt := w }) :=
    fun w => (h.setReg _ _ _).setPrt w
  rw [(h.setReg _ _ _).prt]
  exact (key _ _ (hs _) _).trans (key _ _ (Agree.refl _) _).symm

theorem Agree.portGbps {t x : State} (h : Agree t x) (p : Nat) (hp : p < 8192) : t.portGbps p = x.portGbps p := by
  unfold State.portGbps
  rw [h.reg (by decide) hp, h.reg (f := .PRT_MPCFG_MP0) (by decide) (by decide), h.reg (f := .PRT_MPCFG_MP1) (by decide) (by decide)]

theorem Agree.pauseFor {t x : State} (h : Agree t x) (p prio q : Nat) (hp : p < 8192) : Agree (t.pauseFor p prio q) (x.pauseFor p prio q) := by
  unfold State.pauseFor State.paused; dsimp only
  split
  · rw [h.reg (by decide) hp]
    have hu := h.unpause p prio hp
    split
    · refine Agree.fresh (Agree.setPrt_of_eq hu ?_)
      rw [hu.prt, hu.freeCtr]; unfold State.grains; rw [hu.clk]
    · exact h
  · refine Agree.fresh ?_
    have h2 := h.setReg .PRT_PFC_XOFF_RX p (x.reg .PRT_PFC_XOFF_RX p ||| 2 ^ prio)
    rw [h.reg (by decide) hp]
    have g : ∀ u v : State, Agree u v → u.grains = v.grains := fun u v huv => by unfold State.grains; rw [huv.clk]
    refine Agree.setPrt_of_eq h2 ?_
    simp only [h2.prt, h2.portGbps p hp, g _ _ h2, h2.freeCtr, h2.clk, h.prt, h.clk, h.freeCtr, h.portGbps p hp, g _ _ h]

/-- Registers are no part of a lane. -/
theorem lane_setReg (s : State) (f : Fld) (j v i : Nat) : (s.setReg f j v).lane i = s.lane i := rfl

/-- SIGNAL leaves the state of its lane. -/
theorem laneState_signal (s : State) (i v : Nat) (hi : i < 260) : (s.setReg .LN_STATUS_SIGNAL i v).laneState i = s.laneState i := by
  unfold State.laneState; exact State.reg_setReg_ne _ (by decide) _ (by omega) (by omega)

/-- LOCK and MERIT leave the state of their lane. -/
theorem laneState_lock (s : State) (i : Nat) (hi : i < 260) : (s.setRegs [(.LN_STATUS_LOCK, i, 0), (.LN_STATUS_MERIT, i, 0)]).laneState i = s.laneState i := by
  unfold State.laneState State.setRegs; simp only [List.foldl_cons, List.foldl_nil]
  rw [State.reg_setReg_ne _ (by decide) _ (by omega) (by omega), State.reg_setReg_ne _ (by decide) _ (by omega) (by omega)]

theorem Agree.setGrade {t x : State} (h : Agree t x) (k g : Nat) (hk : k < 8192) : Agree (t.setGrade k g) (x.setGrade k g) := by
  unfold State.setGrade
  rw [h.reg (by decide) hk]
  split
  · exact h
  · exact (agree_ev _ _ _).trans ((h.setReg _ _ _).trans (agree_ev _ _ _).symm)

theorem Agree.setLine {t x : State} (h : Agree t x) (n : Nat) (v : Bool) : Agree (t.setLine n v) (x.setLine n v) := by
  unfold State.setLine; split <;> exact h.setReg _ _ _

/-- A list of which one element passes. -/
theorem filter_one (l : List Nat) (p : Nat → Bool) (n : Nat) (h : ∀ k ∈ l, p k = true → k = n) (hd : l.Nodup) (hn : n ∈ l) (hp : p n = true) :
    l.filter p = [n] := by
  induction l with
  | nil => simp at hn
  | cons a l ih =>
    rw [List.nodup_cons] at hd
    by_cases e : p a = true
    · have : a = n := h a (by simp) e
      subst this
      rw [List.filter_cons_of_pos e]
      have : l.filter p = [] := by
        rw [List.filter_eq_nil_iff]; intro k hk hpk
        have := h k (by simp [hk]) hpk; subst this; exact hd.1 hk
      rw [this]
    · rw [List.filter_cons_of_neg e]
      refine ih (fun k hk => h k (by simp [hk])) hd.2 ?_
      rcases List.mem_cons.1 hn with h' | h'
      · subst h'; exact absurd hp e
      · exact h'

/-- A cleared counter reads 0. -/
theorem counterZero_reads (s : State) (u k : Nat) : (s.counterZero u k).reg .OBS_U_CNT_VALUE (u * 8 + k) = 0 := by
  unfold State.counterZero; rw [State.reg_setReg]; exact Nat.zero_mod _

/-- Clearing several counters of a unit. -/
theorem counterClear_fold (u : Nat) (hu : u ≤ 18) (g : Nat → Nat) : ∀ (l : List Nat) (s : State), (∀ k ∈ l, k < 8) →
    Agree (l.foldl (fun (s : State) k => s.setReg .OBS_U_CNT_VALUE (u * 8 + k) (g k)) s) s ∧
    ∀ k, (k ∈ l ∨ s.reg .OBS_U_CNT_VALUE (u * 8 + k) = g k % 2 ^ Fld.width .OBS_U_CNT_VALUE) →
      (l.foldl (fun (s : State) k => s.setReg .OBS_U_CNT_VALUE (u * 8 + k) (g k)) s).reg .OBS_U_CNT_VALUE (u * 8 + k) = g k % 2 ^ Fld.width .OBS_U_CNT_VALUE := by
  intro l
  induction l with
  | nil => intro s _; exact ⟨Agree.refl _, fun k h => by simpa using h⟩
  | cons a t ih =>
    intro s h
    rw [List.foldl_cons]
    obtain ⟨i1, i2⟩ := ih (s.setReg .OBS_U_CNT_VALUE (u * 8 + a) (g a)) fun k hk => h k (List.mem_cons_of_mem _ hk)
    have := h a List.mem_cons_self
    refine ⟨i1.trans (Agree.account (by decide) _ _ (by omega)), fun k hk => i2 k ?_⟩
    rcases hk with hk | hk
    · rcases List.mem_cons.1 hk with rfl | hk
      · right; rw [State.reg_setReg]
      · left; exact hk
    · right
      by_cases e : k = a
      · subst e; rw [State.reg_setReg]
      · rw [State.reg_setReg_index _ _ _ (by omega)]; exact hk

/-- A clear leaves the counts of its own CORE cycle (R549). -/
theorem counterClear_eq (u : Nat) : ∀ (l : List Nat) (s x : State), x.hw = s.hw → x.clk = s.clk →
    l.foldl (fun (s : State) k => s.setReg .OBS_U_CNT_VALUE (u * 8 + k) (s.hwBits .OBS_U_CNT_VALUE (u * 8 + k))) x =
      l.foldl (fun (y : State) k => y.setReg .OBS_U_CNT_VALUE (u * 8 + k) (s.hwBits .OBS_U_CNT_VALUE (u * 8 + k))) x := by
  intro l
  induction l with
  | nil => intro s x _ _; rfl
  | cons a t ih =>
    intro s x h1 h2
    rw [List.foldl_cons, List.foldl_cons]
    have e : x.hwBits .OBS_U_CNT_VALUE (u * 8 + a) = s.hwBits .OBS_U_CNT_VALUE (u * 8 + a) := by
      unfold State.hwBits State.coreCycle; rw [h1, h2]
    rw [e]
    exact ih s _ (by rw [State.setReg_hw, h1]) (by rw [State.setReg_clk, h2])

/-- The count of a check job. -/
theorem agree_jobCounted (s : State) (n c l : Nat) : Agree (s.jobCounted n c l) s := by
  unfold State.jobCounted State.chkTally; (repeat' (first
        | with_reducible exact Agree.refl _
        | with_reducible refine (agree_ev _ _ _).trans ?_
        | with_reducible refine (agree_evFn _ _ _ _).trans ?_
        | with_reducible refine (agree_evT _ _ _).trans ?_
        | with_reducible refine (agree_evSum _ _ _ _).trans ?_
        | with_reducible refine (agree_evIf _ _ _ _).trans ?_
        | with_reducible refine (agree_evLow _ _ _ _).trans ?_
        | with_reducible refine (agree_evTally _ _ _ _).trans ?_
        | with_reducible refine (agree_evCount _ _ _ _).trans ?_
        | with_reducible refine (agree_evObj _ _ _ _ _).trans ?_
        | with_reducible refine (agree_evSevBy _ _ _ _).trans ?_
        | with_reducible refine (agree_raiseBy _ _ _ _ _ _).trans ?_
        | with_reducible refine (agree_fig _ _).trans ?_
        | with_reducible refine (agree_guard _ _ _).trans ?_
        | with_reducible refine (agree_tally1 _ _ _ (by first | decide | omega)).trans ?_
        | with_reducible refine (agree_tally _ _ _ _ _ _ _ (by first | decide | omega)).trans ?_
        | with_reducible refine (agree_hwSet _ _ _ _).trans ?_
        | with_reducible refine (agree_hwCount _ _ _ _).trans ?_
        | with_reducible refine (agree_hwNote _ _ _ _).trans ?_
        | with_reducible refine (agree_addCounter _ _ (by first | decide | omega) (by first | decide | omega)).trans ?_
        | with_reducible refine Agree.setReg ?_ _ _ _
        | with_reducible refine Agree.emit ?_ _
        | with_reducible refine Agree.complete ?_ _ _ _
        | with_reducible refine Agree.fresh ?_
        | with_reducible refine Agree.setRegs ?_ _
        | exact Agree.refl _))

/-- The event of a failed host access. -/
theorem agree_dmaError (s : State) (fn addr what : Nat) : Agree (s.dmaError fn addr what)
    (({ s with hst := { s.hst with aer := tset 0 fn 1 s.hst.aer } } : State).setReg .HST_FN_STATUS_DMA_ERR fn
      (s.reg .HST_FN_STATUS_DMA_ERR fn ||| 1)) := by
  unfold State.dmaError
  exact (agree_tally _ _ _ _ _ _ _ (u := 1) (by decide)).trans ((agree_evFn _ _ _ _).trans (agree_hwSet _ _ _ _))

theorem Agree.laneTrainOpen {t x : State} (h : Agree t x) {i : Nat} (hi : i < 8192) (st : Nat) : Agree (t.laneTrainOpen i st) (x.laneTrainOpen i st) := by
  unfold State.laneTrainOpen
  rw [h.freeCtr]
  refine Agree.fresh ?_
  unfold State.laneTrainEndWith
  have e : t.lane i = x.lane i := by unfold State.lane; rw [h.ln]
  dsimp only
  rw [e]
  split
  · exact h
  · rw [h.reg (by decide) hi, h.reg (by decide) hi, h.reg (by decide) hi]
    have e2 : t.op = x.op := by funext k; unfold State.op; rw [h.hst]
    have k : Agree (t.endOp ((x.lane i).op - 1) st [x.reg .LN_STATUS_RUNG i, x.reg .LN_STATUS_MERIT i, x.reg .LN_STATUS_ATTEMPTS i, Config.freeField x.freeCtr % 256])
        (x.endOp ((x.lane i).op - 1) st [x.reg .LN_STATUS_RUNG i, x.reg .LN_STATUS_MERIT i, x.reg .LN_STATUS_ATTEMPTS i, Config.freeField x.freeCtr % 256]) := by
      unfold State.endOp; rw [e2]; dsimp only; split
      · unfold State.setOp; rw [h.hst]; exact h.setHst _
      · exact h
    unfold State.setLane; rw [k.ln]; exact k.setLn _

theorem Agree.setLaneState {t x : State} (h : Agree t x) (i st : Nat) : Agree (t.setLaneState i st) (x.setLaneState i st) := by
  have e : t.lane i = x.lane i := by unfold State.lane; rw [h.ln]
  have k : ∀ l, Agree (t.setLane i l) (x.setLane i l) := by intro l; unfold State.setLane; rw [h.ln]; exact h.setLn _
  unfold State.setLaneState; rw [e, h.clk]; exact (k _).setReg _ _ _

theorem Agree.setRung {t x : State} (h : Agree t x) {i : Nat} (hi : i < 8192) (r : Nat) : Agree (t.setRung i r) (x.setRung i r) := by
  unfold State.setRung State.flag; dsimp only
  have k := h.setReg .LN_STATUS_RUNG i r
  rw [k.reg (by decide) hi]; exact k.setReg _ _ _

theorem Agree.portCount {t x : State} (h : Agree t x) (p k n : Nat) : Agree (t.portCount p k n) (x.portCount p k n) := by
  unfold State.portCount; rw [h.prt]; exact h.setPrt _

/-- The counts of a PAUSE that a PFC port ignores (R204). -/
theorem agree_pauseCounts (p : Nat) (l : List Nat) (u v : State) (h : Agree u v) :
    Agree (l.foldl (fun s k => (s.portCount p (11 + k) 1).tally 12 5 1 (k + 1) 0 p 1) u) (l.foldl (fun s k => s.portCount p (11 + k) 1) v) := by
  induction l generalizing u v with
  | nil => exact h
  | cons k t ih =>
    rw [List.foldl_cons, List.foldl_cons]
    exact ih _ _ ((agree_tally _ 5 1 (k + 1) 0 p 1 (by decide)).trans (h.portCount p _ 1))

end Machine
end Sys2Proof
end

