-- ==== Sys2Proof/Laws/Fetch.lean ====
section
/-!
SUPPORT. The common path of every descriptor: fetched, checked and refused; and the versions of a table entry.
-/
namespace Sys2Proof
namespace Machine

/-- The version that a frame of generation `g` sees is not changed by versions that are younger. -/
theorem foldl_ver (g : Nat) (l : List Ver) (a : Option Ver) (p : Ver → Bool) (h : ∀ v ∈ l, p v = false → ¬ v.gen ≤ g) :
    (l.filter p).foldl (fun a v => if v.gen ≤ g then some v else a) a = l.foldl (fun a v => if v.gen ≤ g then some v else a) a := by
  induction l generalizing a with
  | nil => rfl
  | cons v l ih =>
    by_cases hp : p v = true
    · rw [List.filter_cons_of_pos hp, List.foldl_cons, List.foldl_cons]
      exact ih _ (fun w hw => h w (by simp [hw]))
    · rw [List.filter_cons_of_neg hp, List.foldl_cons, if_neg (h v (by simp) (by simpa using hp))]
      exact ih _ (fun w hw => h w (by simp [hw]))

/-- A descriptor that is fetched and starts at once is begun. -/
theorem present_eq_begin {s : State} {h : Hdr} {sp : Spec} (i : Instr) (h1 : s.fetchable h.fn h.sq = true) (h2 : s.cqUsable h.fn h.cq = true)
    (h3 : tget 0 s.hst.fetched h.fn < fetchBudget) (h4 : (s.fetched h sp).execWindow = true)
    (h5 : (s.fetched h sp).hst.waiting.any (fun w => sameRing w h.fn h.sq) = false)
    (h6 : h.fence = true → (s.fetched h sp).ringBusy h.fn h.sq s.hst.nextId = false) :
    s.present h i sp = (s.fetched h sp).begin h sp s.hst.nextId ((s.fetched h sp).earlyChecks h sp.opc (s.fetched h sp).wrapNs) := by
  unfold State.present
  have h3' : ¬ fetchBudget ≤ tget 0 s.hst.fetched h.fn := by omega
  have h6' : ¬ (h.fence = true ∧ (s.fetched h sp).ringBusy h.fn h.sq s.hst.nextId = true) := by
    rintro ⟨a, b⟩; rw [h6 a] at b; exact absurd b (by decide)
  have hw : ¬ ((!(s.fetched h sp).execWindow) = true ∨ ((s.fetched h sp).hst.waiting.any fun w => sameRing w h.fn h.sq) = true ∨
      (h.fence = true ∧ (s.fetched h sp).ringBusy h.fn h.sq s.hst.nextId = true)) := by
    rintro (a | a | a)
    · rw [h4] at a; exact absurd a (by decide)
    · rw [h5] at a; exact absurd a (by decide)
    · exact h6' a
  simp only [h1, h2, h3', Bool.not_true, Bool.false_eq_true, if_false]
  unfold State.fetched at hw
  rw [if_neg hw]; rfl

/-- A descriptor that a check refuses completes with that status, and nothing else of it is seen. -/
theorem begin_refused {f : State} {h : Hdr} {sp : Spec} {id st : Nat}
    (ha : f.acceptance h sp.opc f.wrapNs (sp.chk f) = some st) (h1 : st ≠ stBUDGET) (h3 : st ≠ stNOROOM) (h4 : st ≠ stHWFAULT)  :
    Agree (f.begin h sp id (f.earlyChecks h sp.opc f.wrapNs)) (f.complete id st []) := by
  unfold State.acceptance at ha
  unfold State.begin; dsimp only
  rw [ha]; dsimp only
  rw [if_neg h1]
  refine Agree.complete ?_ _ _ _
  refine (agree_evIf _ _ _ _).trans ?_
  rw [if_neg (c := st = stHWFAULT) h4, if_neg (c := st = stNOROOM ∧ _) (fun h => h3 h.1)]
  split <;> (repeat' (first
        | with_reducible exact Agree.refl _
        | with_reducible refine (agree_ev _ _ _).trans ?_
        | with_reducible refine (agree_evFn _ _ _ _).trans ?_
        | with_reducible refine (agree_evT _ _ _).trans ?_
        | with_reducible refine (agree_evSum _ _ _ _).trans ?_
        | with_reducible refine (agree_evIf _ _ _ _).trans ?_
        | with_reducible refine (agree_evLow _ _ _ _).trans ?_
        | with_reducible refine (agree_evTally _ _ _ _).trans ?_
        | with_reducible refine (agree_evCount _ _ _ _).trans ?_
        | with_reducible refine (agree_evObj _ _ _ _ _).trans ?_
        | with_reducible refine (agree_evSevBy _ _ _ _).trans ?_
        | with_reducible refine (agree_raiseBy _ _ _ _ _ _).trans ?_
        | with_reducible refine (agree_fig _ _).trans ?_
        | with_reducible refine (agree_guard _ _ _).trans ?_
        | with_reducible refine (agree_tally1 _ _ _ (by first | decide | omega)).trans ?_
        | with_reducible refine (agree_tally _ _ _ _ _ _ _ (by first | decide | omega)).trans ?_
        | with_reducible refine (agree_hwSet _ _ _ _).trans ?_
        | with_reducible refine (agree_hwCount _ _ _ _).trans ?_
        | with_reducible refine (agree_hwNote _ _ _ _).trans ?_
        | with_reducible refine (agree_addCounter _ _ (by first | decide | omega) (by first | decide | omega)).trans ?_
        | with_reducible refine Agree.setReg ?_ _ _ _
        | with_reducible refine Agree.emit ?_ _
        | with_reducible refine Agree.complete ?_ _ _ _
        | with_reducible refine Agree.fresh ?_
        | with_reducible refine Agree.setRegs ?_ _
        | exact Agree.refl _))

/-- Every row of an opcode is the issue of its specification. -/
theorem exec_eq_issue (i : Instr) (h : Hdr) (sp : Spec) (s : State) (hs : specOf i = some (h, sp)) : exec i s = s.issue h i sp := by
  cases i <;> first
    | (simp only [specOf, Option.some.injEq, Prod.mk.injEq] at hs; obtain ⟨rfl, rfl⟩ := hs; rfl)
    | (simp [specOf] at hs; done)

/-- A descriptor that is fetched, starts at once and is refused completes with the status of the check. -/
theorem yields_refused {i : Instr} {h : Hdr} {sp : Spec} {s : State} {st : Nat} (hs : specOf i = some (h, sp)) (h1 : s.fetchable h.fn h.sq = true) (h2 : s.cqUsable h.fn h.cq = true)
    (h3 : tget 0 s.hst.fetched h.fn < fetchBudget) (h4 : (s.fetched h sp).execWindow = true)
    (h5 : (s.fetched h sp).hst.waiting.any (fun w => sameRing w h.fn h.sq) = false)
    (h6 : h.fence = true → (s.fetched h sp).ringBusy h.fn h.sq s.hst.nextId = false)
    (ha : (s.fetched h sp).acceptance h sp.opc ((s.fetched h sp).wrapNs) (sp.chk (s.fetched h sp)) = some st)
    (g1 : st ≠ stBUDGET) (g3 : st ≠ stNOROOM) (g4 : st ≠ stHWFAULT) : Yields i s ((s.fetched h sp).complete s.hst.nextId st []) := by
  refine yields_run (f := fun s => s.present h i sp) (exec_eq_issue i h sp s hs) ?_
  rw [present_eq_begin i h1 h2 h3 h4 h5 h6]
  exact begin_refused ha g1 g3 g4

end Machine
end Sys2Proof
end

