-- ==== Sys2Proof/Laws/Fields.lean ====
section
/-!
SUPPORT. Fields whose bits hardware sets and software clears in one CORE cycle (R7, R8).
-/
namespace Sys2Proof
namespace Machine

/-- The lowest bit of what `y` takes out of `x`. -/
theorem sub_and_mod (x y : Nat) : (x - (x &&& y)) % 2 = x % 2 - (x % 2) * (y % 2) := by
  have h : x &&& y ≤ x := Nat.and_le_left
  have h2 : (x &&& y) % 2 = (x % 2) &&& (y % 2) := Nat.and_mod_two_pow (n := 1)
  have h3 : (x % 2) &&& (y % 2) = (x % 2) * (y % 2) := by
    rcases Nat.mod_two_eq_zero_or_one x with a | a <;> rcases Nat.mod_two_eq_zero_or_one y with b | b <;> rw [a, b] <;> rfl
  rw [h3] at h2
  rcases Nat.mod_two_eq_zero_or_one x with a | a <;> rcases Nat.mod_two_eq_zero_or_one y with b | b <;> rw [a, b] at h2 ⊢ <;> omega

/-- The bits of what `y` takes out of `x`. -/
theorem sub_and_testBit (x y k : Nat) : (x - (x &&& y)).testBit k = (x.testBit k && !y.testBit k) := by
  induction k generalizing x y with
  | zero =>
    simp only [Nat.testBit_zero, sub_and_mod]
    rcases Nat.mod_two_eq_zero_or_one x with a | a <;> rcases Nat.mod_two_eq_zero_or_one y with b | b <;> rw [a, b] <;> rfl
  | succ k ih =>
    rw [Nat.testBit_succ, Nat.testBit_succ, Nat.testBit_succ, ← ih]
    have h : x &&& y ≤ x := Nat.and_le_left
    have h3 : (x &&& y) / 2 = x / 2 &&& y / 2 := Nat.and_div_two
    have h2 : (x &&& y) % 2 ≤ x % 2 := by
      have : (x &&& y) % 2 = (x % 2) &&& (y % 2) := Nat.and_mod_two_pow (n := 1)
      rw [this]; exact Nat.and_le_left
    congr 1
    rw [← h3]; omega

/-- A field after hardware has set bits of it. -/
theorem reg_hwSet (s : State) (f : Fld) (i v : Nat) : (s.hwSet f i v).reg f i = (s.reg f i ||| v) % 2 ^ f.width := by
  unfold State.hwSet State.hwNote
  exact (State.reg_of_regs (t := s.setReg f i (s.reg f i ||| v)) rfl _ _).trans (State.reg_setReg _ _ _ _)

/-- The note of a set, read in its cycle. -/
theorem hwBits_hwNote (u : State) (f : Fld) (i v : Nat) : (u.hwNote f i v).hwBits f i = v := by
  unfold State.hwBits State.hwNote
  exact (if_pos rfl).trans (tget_tset_self _ _ _ _)

/-- The bits set in a cycle, after one more set. -/
theorem hwBits_hwSet (s : State) (f : Fld) (i v : Nat) : (s.hwSet f i v).hwBits f i = s.hwBits f i ||| v := by
  unfold State.hwSet; exact hwBits_hwNote _ _ _ _

/-- A write of a clear-1 or sticky field. -/
theorem storeField_clear (s : State) (f : Fld) (i w m a : Nat) (hk : f.desc.kind = .clear1 ∨ f.desc.kind = .sticky) :
    s.storeField f i w m a = if bits m f.desc.hi f.desc.lo = 0 ∨ s.absorbedReg f i = true then s
      else s.clearBits f i (bits w f.desc.hi f.desc.lo &&& bits m f.desc.hi f.desc.lo) := by
  unfold State.storeField; dsimp only
  split
  · rfl
  · rcases hk with h | h <;> rw [h]

end Machine
end Sys2Proof
end

