-- ==== Sys2Proof/Laws/Mailbox.lean ====
section
/-!
SUPPORT. Doorbells, locks and channels: who is told, who wins, and what an emptied channel keeps.
-/
namespace Sys2Proof
namespace Machine

/-- Registers are no part of the mailbox block. -/
theorem setReg_mbx (s : State) (f : Fld) (i v : Nat) : (s.setReg f i v).mbx = s.mbx := rfl

/-- Telling a receiver changes no register. -/
theorem bellNotify_reg (s : State) (r : Nat) (f : Fld) (j : Nat) : (s.bellNotify r).reg f j = s.reg f j := by
  unfold State.bellNotify; split <;> rfl

/-- An output changes no register. -/
theorem emit_reg (s : State) (o : Out) (f : Fld) (j : Nat) : (s.emit o).reg f j = s.reg f j := rfl

/-- One receiver of a doorbell. -/
theorem ring_step (s : State) (who bits q r : Nat) (hq : q < 7) (hr : r < 7) :
    (if bellIds.getD q 0 = who then s else (s.hwSet .MBX_DB_PEND_BITS q bits).bellNotify q).reg .MBX_DB_PEND_BITS r
      = if r = q ∧ bellIds.getD q 0 ≠ who then (s.reg .MBX_DB_PEND_BITS r ||| bits) % 2 ^ 32 else s.reg .MBX_DB_PEND_BITS r := by
  split
  · rename_i h; rw [if_neg (fun h' => h'.2 h)]
  · rename_i h
    rw [bellNotify_reg, (agree_hwSet _ _ _ _).reg (by decide) (by omega)]
    by_cases e : r = q
    · subst e; rw [if_pos ⟨rfl, h⟩, State.reg_setReg]; rfl
    · rw [if_neg (by simp [e]), State.reg_setReg_index _ _ _ e]

/-- All receivers of a doorbell. -/
theorem ring_fold (who bits r : Nat) (hr : r < 7) (l : List Nat) (hl : ∀ q ∈ l, q < 7) (hn : l.Nodup) (s : State) :
    (l.foldl (fun (s : State) q => if bellIds.getD q 0 = who then s else (s.hwSet .MBX_DB_PEND_BITS q bits).bellNotify q) s).reg
      .MBX_DB_PEND_BITS r = if r ∈ l ∧ bellIds.getD r 0 ≠ who then (s.reg .MBX_DB_PEND_BITS r ||| bits) % 2 ^ 32 else s.reg .MBX_DB_PEND_BITS r := by
  induction l generalizing s with
  | nil => simp
  | cons a t ih =>
    have hn' := List.nodup_cons.1 hn
    rw [List.foldl_cons, ih (fun q hq => hl q (List.mem_cons_of_mem _ hq)) hn'.2, ring_step _ _ _ _ _ (hl a List.mem_cons_self) hr]
    by_cases e : r = a
    · subst e
      by_cases hb : bellIds.getD r 0 = who <;> simp [hb, hn'.1]
    · by_cases hb : bellIds.getD r 0 = who <;> simp [hb, e]

/-- The losing reads of a free lock. -/
theorem lock_losers (k w : Nat) : ∀ (l : List Nat) (u v : State), Agree u v →
        Agree (l.foldl (fun (s : State) r => s.lockRefused w r k true) u) (l.foldl (fun (u : State) x => u.emit (.readValue x (lockAddr k) (2 ^ 29 + w * 2 ^ 24))) v) := by
  intro l
  induction l with
  | nil => intro u v h; exact h
  | cons a t ih =>
    intro u v h
    rw [List.foldl_cons, List.foldl_cons]
    have e : Agree (u.lockRefused w a k true) (v.emit (.readValue a (lockAddr k) (2 ^ 29 + w * 2 ^ 24))) := by
      unfold State.lockRefused
      dsimp only; rw [if_pos rfl]
      exact (agree_tally _ (u := 2) 4 2 0 1 k 1 (by decide)).trans (h.emit _)
    exact ih _ _ e

/-- The reads of a held lock. -/
theorem lock_held (k o : Nat) : ∀ (l : List Nat) (u : State),
        (l.foldl (fun (s : State) w => s.lockRefused o w k false) u) = (l.foldl (fun (u : State) x => u.emit (.readValue x (lockAddr k) (2 ^ 29 + o * 2 ^ 24))) u) := by
  intro l
  induction l with
  | nil => intro u; simp only [List.foldl_nil]
  | cons a t ih =>
    intro u
    rw [List.foldl_cons, List.foldl_cons]
    have e : u.lockRefused o a k false = u.emit (.readValue a (lockAddr k) (2 ^ 29 + o * 2 ^ 24)) := by
      unfold State.lockRefused; rfl
    rw [e]; exact ih _

theorem Agree.flag_eq {t x : State} (h : Agree t x) (f : Fld) (hf : Fld.isAccount f = false) (i : Nat) (hi : i < 8192) : t.flag f i = x.flag f i := by
  unfold State.flag; rw [h.reg hf hi]

/-- The end of a cross-wait leaves FULL, REMOTE_WAIT and the sender. -/
theorem xwaitEnd_status (s : State) (n : Nat) (hn : n < 32) (f : Fld) (hf : f = .MBX_CH_STATUS_FULL ∨ f = .MBX_CH_STATUS_REMOTE_WAIT ∨ f = .MBX_CH_BIND_SENDER) : (s.xwaitEnd n).reg f n = s.reg f n := by
  have ha : Fld.isAccount f = false := by rcases hf with rfl | rfl | rfl <;> decide
  have hne : f ≠ .MBX_CH_STATUS_XWAIT := by rcases hf with rfl | rfl | rfl <;> decide
  have k1 : ∀ (g : State → Nat → List (Nat × Nat)) (l : List Nat) (u : State), (l.foldl (fun (s : State) k => s.ev 227 (g s k)) u).reg f n = u.reg f n := by
    intro g l u
    exact (agree_foldl _ _ (fun s a _ => agree_ev _ _ _) u).reg ha (by omega)
  have k2 : ∀ (g : Nat → Nat) (l : List Nat) (u : State), (∀ c ∈ l, c < 32) →
      (l.foldl (fun (s : State) c => s.setReg .MBX_CH_STATUS_XWAIT c (g c)) u).reg f n = u.reg f n := by
    intro g l
    induction l with
    | nil => intro u _; rfl
    | cons a t ih =>
      intro u h
      have ha' := h a List.mem_cons_self
      rw [List.foldl_cons, ih _ (fun m hm => h m (List.mem_cons_of_mem _ hm)), State.reg_setReg_ne _ hne _ (by omega) (by omega)]
  unfold State.xwaitEnd
  dsimp only
  have k3 : ∀ (u : State) (x : Mbx), ({ u with mbx := x } : State).reg f n = u.reg f n := fun _ _ => rfl
  rw [k2, k3]
  · exact k1 (fun s k => [(2, k / 32), (2, k % 32), (1, 2), (4, tget 0 s.mbx.both k)]) _ _
  · intro c hc
    obtain ⟨k, _, hk⟩ := List.mem_flatMap.1 hc
    simp at hk; omega

/-- The end of a cross-wait leaves the sender. -/
theorem xwaitEnd_sender (s : State) (n : Nat) (hn : n < 32) : (s.xwaitEnd n).reg .MBX_CH_BIND_SENDER n = s.reg .MBX_CH_BIND_SENDER n :=
  xwaitEnd_status s n hn _ (Or.inr (Or.inr rfl))

/-- An emptied channel is not full. -/
theorem emptied_full (s : State) (n : Nat) (hn : n < 32) : (s.emptied n).reg .MBX_CH_STATUS_FULL n = 0 := by
  unfold State.emptied
  rw [xwaitEnd_status _ _ hn _ (Or.inl rfl), State.reg_setReg]; exact Nat.zero_mod _

/-- The end of a cross-wait leaves every field but XWAIT. -/
theorem xwaitEnd_reg (s : State) (n : Nat) (f : Fld) (i : Nat) (ha : Fld.isAccount f = false) (hne : f ≠ .MBX_CH_STATUS_XWAIT) (hi : i < 8192) :
    (s.xwaitEnd n).reg f i = s.reg f i := by
  have k1 : ∀ (g : State → Nat → List (Nat × Nat)) (l : List Nat) (u : State), (l.foldl (fun (s : State) k => s.ev 227 (g s k)) u).reg f i = u.reg f i := by
    intro g l u
    exact (agree_foldl _ _ (fun s a _ => agree_ev _ _ _) u).reg ha hi
  have k2 : ∀ (g : Nat → Nat) (l : List Nat) (u : State), (∀ c ∈ l, c < 32) →
      (l.foldl (fun (s : State) c => s.setReg .MBX_CH_STATUS_XWAIT c (g c)) u).reg f i = u.reg f i := by
    intro g l
    induction l with
    | nil => intro u _; rfl
    | cons a t ih =>
      intro u h
      have ha' := h a List.mem_cons_self
      rw [List.foldl_cons, ih _ (fun m hm => h m (List.mem_cons_of_mem _ hm)), State.reg_setReg_ne _ hne _ (by omega) (by omega)]
  unfold State.xwaitEnd
  dsimp only
  have k3 : ∀ (u : State) (x : Mbx), ({ u with mbx := x } : State).reg f i = u.reg f i := fun _ _ => rfl
  rw [k2, k3]
  · exact k1 (fun s k => [(2, k / 32), (2, k % 32), (1, 2), (4, tget 0 s.mbx.both k)]) _ _
  · intro c hc
    obtain ⟨k, _, hk⟩ := List.mem_flatMap.1 hc
    simp at hk; omega

/-- The end of a cross-wait leaves the words. -/
theorem xwaitEnd_data (s : State) (n j : Nat) (hj : j < 512) : (s.xwaitEnd n).reg .MBX_CH_DATA_WORD j = s.reg .MBX_CH_DATA_WORD j :=
  xwaitEnd_reg s n _ j (by decide) (by decide) (by omega)

/-- The end of a cross-wait answers nothing. -/
theorem xwaitEnd_out (s : State) (n : Nat) : (s.xwaitEnd n).out = s.out := by
  have k1 : ∀ (g : State → Nat → List (Nat × Nat)) (l : List Nat) (u : State), (l.foldl (fun (s : State) k => s.ev 227 (g s k)) u).out = u.out := by
    intro g l u
    exact (agree_foldl _ _ (fun s a _ => agree_ev _ _ _) u).out
  have k2 : ∀ (g : Nat → Nat) (l : List Nat) (u : State),
      (l.foldl (fun (s : State) c => s.setReg .MBX_CH_STATUS_XWAIT c (g c)) u).out = u.out := by
    intro g l
    induction l with
    | nil => intro u; rfl
    | cons a t ih => intro u; rw [List.foldl_cons, ih]; rfl
  unfold State.xwaitEnd
  dsimp only
  rw [k2]
  exact k1 (fun s k => [(2, k / 32), (2, k % 32), (1, 2), (4, tget 0 s.mbx.both k)]) _ _

/-- The end of a cross-wait leaves the transmit unit. -/
theorem xwaitEnd_chkTx (s : State) (n : Nat) : (s.xwaitEnd n).reg .PAIR_CFG_CHK_TX = s.reg .PAIR_CFG_CHK_TX :=
  xwaitEnd_reg s n _ 0 (by decide) (by decide) (by omega)

/-- An acknowledgement to the partner changes only the check units. -/
theorem mbxAnswer_keep (u : State) (op ch src : Nat) (h : u.reg .PAIR_CFG_CHK_TX < 16) :
    (u.mbxAnswer op ch src).out = u.out ∧ ∀ f i, Fld.isAccount f = false → i < 8192 → f ∉ [Fld.CHK_UNIT_STATUS_BUSY, .CHK_UNIT_STATUS_CTX, .CHK_UNIT_STATUS_USER, .CHK_UNIT_STATUS_QUEUED] →
      (u.mbxAnswer op ch src).reg f i = u.reg f i := by
  unfold State.mbxAnswer
  have a := agree_tally (u.mywynSend 6 0 [mbxWord op src ch 0 0] false) (u := 2) 2 (op + 1) 0 0 ch 1 (by decide)
  unfold State.mywynSend at a ⊢
  dsimp only at a ⊢
  have o := fun (v : State) (hv : v = { u with pair := { u.pair with seqs := tset 0 6 ((tget 0 u.pair.seqs 6 + 1) % 65536) u.pair.seqs } }) =>
    onlyChk_queueJob v (u.reg .PAIR_CFG_CHK_TX) 1 6 (.send ⟨6, (tget 0 u.pair.seqs 6 + 1) % 65536, 0, u.clk.tick, [mbxWord op src ch 0 0]⟩ false) (by omega)
  have o := o _ rfl
  refine ⟨?_, fun f i hf hi hn => ?_⟩
  · rw [a.out, o.1]
  · rw [a.reg hf hi, o.2 f i hn hi]; rfl

/-- A refused read of a lock. -/
theorem lockRefused_spec (u : State) (w x k : Nat) : (u.lockRefused w x k true).out = .readValue x (lockAddr k) (2 ^ 29 + w * 2 ^ 24) :: u.out ∧
    ∀ f, Fld.isAccount f = false → k < 8192 → (u.lockRefused w x k true).reg f k = u.reg f k := by
  unfold State.lockRefused; dsimp only; rw [if_pos rfl]
  have a := agree_tally (u.emit (.readValue x (lockAddr k) (2 ^ 29 + w * 2 ^ 24))) (u := 2) 4 2 0 1 k 1 (by decide)
  refine ⟨?_, fun f hf hk => ?_⟩
  · rw [a.out]; rfl
  · rw [a.reg hf hk]; rfl

/-- The refused reads of a lock, together. -/
theorem lockRefused_fold (k w : Nat) (hk : k < 8192) (t : List Nat) (u : State) :
    let r := t.foldl (fun (u : State) x => u.lockRefused w x k true) u
    (∀ f, Fld.isAccount f = false → r.reg f k = u.reg f k) ∧ (∀ o ∈ u.out, o ∈ r.out) ∧
    ∀ x ∈ t, Out.readValue x (lockAddr k) (2 ^ 29 + w * 2 ^ 24) ∈ r.out := by
  induction t generalizing u with
  | nil => exact ⟨fun _ _ => rfl, fun o h => h, fun x h => absurd h (by simp)⟩
  | cons a t ih =>
    have st := lockRefused_spec u w a k
    have := ih (u.lockRefused w a k true)
    dsimp only at this ⊢
    rw [List.foldl_cons]
    refine ⟨fun f hf => (this.1 f hf).trans (st.2 f hf hk), fun o ho => this.2.1 o (by rw [st.1]; exact List.mem_cons_of_mem _ ho), fun x hx => ?_⟩
    rcases List.mem_cons.1 hx with e | e
    · refine this.2.1 _ ?_; rw [st.1, e]; exact List.mem_cons_self
    · exact this.2.2 x e

/-- The first of a list that passes. -/
theorem filter_head (p w : Nat) (who l : List Nat) (h1 : l[p]? = some w) (h2 : w ∈ who) (h3 : ∀ q v, q < p → l[q]? = some v → v ∉ who) :
    ∃ t, l.filter (fun x => who.contains x) = w :: t := by
  induction l generalizing p with
  | nil => simp at h1
  | cons a l ih =>
    cases p with
    | zero =>
      simp at h1; subst h1
      exact ⟨_, List.filter_cons_of_pos (by simpa using h2)⟩
    | succ p =>
      have ha : a ∉ who := h3 0 a (by omega) (by simp)
      rw [List.filter_cons_of_neg (by simpa using ha)]
      exact ih p (by simpa using h1) (fun q v hq hv => h3 (q + 1) v (by omega) (by simpa using hv))

/-- The cycle of an emptying is no register. -/
theorem noteEmptied_reg (s : State) (n : Nat) (f : Fld) (i : Nat) : (s.noteEmptied n).reg f i = (s.emptied n).reg f i := rfl

end Machine
end Sys2Proof
end

