-- ==== Sys2Proof/Laws/Selection.lean ====
section
/-!
SUPPORT. The order of the candidates of a DPLL (R436).
-/
namespace Sys2Proof
namespace Machine

/-- The best of a list is one of it. -/
theorem best_mem (s : State) (d : Nat) (l : List Nat) (a : Nat) : l.foldl (fun a b => if s.better d b a then b else a) a ∈ a :: l := by
  induction l generalizing a with
  | nil => simp
  | cons b l ih =>
    rw [List.foldl_cons]
    have := ih (if s.better d b a = true then b else a)
    rw [List.mem_cons] at this
    rcases this with e | e
    · rw [e]; split <;> simp
    · exact List.mem_cons_of_mem _ (List.mem_cons_of_mem _ e)

/-- A slot that beats or precedes every other is what the comparison leaves. -/
theorem best_first (s : State) (d n : Nat) (l : List Nat) (a : Nat) (hn : n ∈ a :: l) (hs : (a :: l).Pairwise (· < ·))
    (h : ∀ m ∈ a :: l, m ≠ n → s.better d m n = false ∧ (s.better d n m = true ∨ n < m)) :
    l.foldl (fun a b => if s.better d b a then b else a) a = n := by
  induction l generalizing a with
  | nil => simp at hn; exact hn.symm
  | cons b l ih =>
    rw [List.foldl_cons]
    rw [List.pairwise_cons] at hs
    have hbl := List.pairwise_cons.1 hs.2
    by_cases ea : a = n
    · subst ea
      have hb : s.better d b a = false := by
        by_cases e : b = a
        · have := hs.1 b (by simp); omega
        · exact (h b (by simp) e).1
      rw [if_neg (by rw [hb]; decide)]
      refine ih a (by simp) ?_ (fun m hm hne => h m (by simp at hm ⊢; tauto) hne)
      rw [List.pairwise_cons]; exact ⟨fun x hx => hs.1 x (by simp [hx]), hbl.2⟩
    · by_cases eb : b = n
      · subst eb
        have hb : s.better d b a = true := by
          rcases (h a (by simp) ea).2 with g | g
          · exact g
          · have := hs.1 b (by simp); omega
        rw [if_pos hb]
        exact ih b (by simp) hs.2 (fun m hm hne => h m (by simp at hm ⊢; tauto) hne)
      · have hnl : n ∈ l := by
          simp at hn; rcases hn with e | e | e
          · exact absurd e.symm ea
          · exact absurd e.symm eb
          · exact e
        split
        · exact ih b (by simp [hnl]) hs.2 (fun m hm hne => h m (by simp at hm ⊢; tauto) hne)
        · refine ih a (by simp [hnl]) ?_ (fun m hm hne => h m (by simp at hm ⊢; tauto) hne)
          rw [List.pairwise_cons]; exact ⟨fun x hx => hs.1 x (by simp [hx]), hbl.2⟩

/-- One candidate is better than another by grade, then RANK. -/
theorem better_iff (s : State) (d a b : Nat) : s.better d a b = true ↔
    (s.qlMode = true ∧ s.gradeOf d a < s.gradeOf d b) ∨
      ((s.qlMode = true → s.gradeOf d a = s.gradeOf d b) ∧ s.rank d a < s.rank d b) := by
  unfold State.better; dsimp only
  cases s.qlMode <;> simp

/-- The eligible slots. -/
theorem eligible_mem (s : State) (d n : Nat) : n ∈ (List.range 13).filter (fun n => s.eligible d n) ↔ n ≤ 12 ∧ s.eligible d n = true := by
  rw [List.mem_filter, List.mem_range, Nat.lt_succ_iff]

/-- They stand in ascending order. -/
theorem eligible_sorted (p : Nat → Bool) : ((List.range 13).filter p).Pairwise (· < ·) := List.pairwise_lt_range.filter _

/-- The best slot of a list in ascending order. -/
theorem best_eq (s : State) (d n : Nat) (l : List Nat) (hs : l.Pairwise (· < ·)) (hn : n ∈ l)
    (h : ∀ m ∈ l, m ≠ n → s.better d m n = false ∧ (s.better d n m = true ∨ n < m)) : s.best d l = some n := by
  cases l with
  | nil => simp at hn
  | cons a t => unfold State.best; exact congrArg some (best_first s d n t a hn hs h)

end Machine
end Sys2Proof
end

