-- ==== Sys2Proof/WellFormed.lean ====
section
/-!
DEFINITION. Which commands are well formed: every operand is one that the row's own fields can carry, and names something
that the part has. A command that is well formed can still be refused by the part (R124); the checks here say only what can
be said of it without a state.
-/
namespace Sys2Proof

/-! ### Widths of fields -/

def okNibble (n : Nat) : Bool := decide (n < 16)
def okByte (n : Nat) : Bool := decide (n < 2 ^ 8)
def okHalf (n : Nat) : Bool := decide (n < 2 ^ 16)
def okWord (n : Nat) : Bool := decide (n < 2 ^ 32)
def okLong (n : Nat) : Bool := decide (n < 2 ^ 64)
def okBytes (l : List Nat) : Bool := l.all okByte

/-! ### Numbers of things -/

/-- The PF and 15 VFs (R79). -/
def okFn (n : Nat) : Bool := decide (n < 16)
/-- Submission rings of the PF and of a VF are numbered below 256; kind 2 is the one event ring (R84, R99, R102). -/
def okRing (kind n : Nat) : Bool := decide (kind < 3) && decide (n < 256)
/-- MSI-X vectors of the part (R103). -/
def okVector (n : Nat) : Bool := decide (n < 64)
/-- Slots of the long operations (R115). -/
def okOp (n : Nat) : Bool := decide (n < 32)
/-- The 256 ports and the management ports (R186, R189). -/
def okPort (n : Nat) : Bool := decide (n < 258)
/-- The lanes of the ports, of the management ports and of Mywyn (ch. 05). -/
def okLane (n : Nat) : Bool := decide (n < 260)
/-- A flow index (R106). -/
def okSlot3 (n : Nat) : Bool := decide (n < 5242880)
/-- A table with a shadow (R106). -/
def okTable (n : Nat) : Bool := decide (n < 7)
/-- A store that damage is found in: a table, the metadata of cells (7), the directory (8), window lines (9), counter records (10). -/
def okStore (n : Nat) : Bool := decide (n < 11)
/-- A generation number as it is carried (R64); also a choice of four. -/
def okGen (n : Nat) : Bool := decide (n < 4)
/-- One of two. -/
def okHalfLane (n : Nat) : Bool := decide (n < 2)
/-- One of eight: slices, requesters (R247), priorities, reference slots of line ports (R431). -/
def okCell (n : Nat) : Bool := decide (n < 786432)
def okUnit8 (n : Nat) : Bool := decide (n < 8)
/-- One of sixteen: check units (ch. 17), outputs (ch. 15), words of a message (ch. 18). -/
def okCheck (n : Nat) : Bool := decide (n < 16)
/-- PTP instances (R387). -/
def okInst (n : Nat) : Bool := decide (n < 4)
/-- TIO pins (ch. 12). -/
def okPin (n : Nat) : Bool := decide (n < 8)
/-- Mailbox channels (R523). -/
def okChan (n : Nat) : Bool := decide (n < 32)
/-- Locks (R536). -/
def okLock (n : Nat) : Bool := decide (n < 64)
/-- Units of the counters and subsystems of the part, by BAR0 index (R544, R598). -/
def okObs (n : Nat) : Bool := decide (n < 19)
/-- Candidates of a DPLL (R431). -/
def okCand (n : Nat) : Bool := decide (n < 13)
/-- Identities: 16 functions, 4 cores, the partner, the BMC and JTAG (R79, R522). -/
def okWho (n : Nat) : Bool := decide (n < 23)
/-- A port with two seif directions (R428). -/
def okSeif (p d : Nat) : Bool := decide (p < 256) && okHalfLane d
/-- The window ended within the beat of 8,192 ns that is running, in grains (R408). -/
def okBeat (n : Nat) : Bool := decide (n < 8192 * 65536)
/-- One of the 20 sources of the interval meter, times 2, and 1 for a falling edge (R420). -/
def okItmSrc (n : Nat) : Bool := decide (n < 40)
/-- A bit for each pair of an octet (R363). -/
def okOctet (n : Nat) : Bool := decide (n < 256)
/-- Byte enables of a register word (R6). -/
def okEnables (n : Nat) : Bool := decide (n < 16)

/-! ### Operands with a shape -/

/-- The header of a descriptor: its fields have the widths of R90. -/
def okHdr (h : Hdr) : Bool :=
  okFn h.fn && okRing 0 h.sq && okRing 1 h.cq && okWord h.tag && okWord h.validNs

/-- A line read of the replication list is there for every line that the command names (R131). -/
def okReads (lines : Nat) (l : List HostRead) : Bool := decide (l.length = lines)

def okTioSet (x : TioSet) : Bool :=
  okByte x.pin && okByte x.mode && okWord x.width && okWord x.perNum && okWord x.perDen && okLong x.startSec && okWord x.startNs

/-- The head of a frame is its first bytes, up to 128, and never none (R215). -/
def okHead (l : List Nat) : Bool := decide (0 < l.length) && decide (l.length ≤ 128)

/-- A PFC frame names each priority once (R206). -/
def okQuanta (l : List (Nat × Nat)) : Bool := (l.map Prod.fst).Nodup && l.all fun x => okUnit8 x.1 && okHalf x.2

/-- The 16 die temperatures are all there, and each lane is one of the part's (R602, R162). -/
def okBoundary (x : BoundaryIn) : Bool :=
  decide (x.temps.length = 16) && x.lanes.all (fun r => okLane r.lane && r.trials.all fun q => decide (q.1 < 4)) &&
    x.raw.all fun r => okLane r.lane && r.words.all fun w => w.all fun l => decide (l < 4)

/-- The fields of a ladder block have the widths of R166. -/
def okBlock (b : LadderBlock) : Bool :=
  decide (b.sync < 4) && okByte b.ty && okByte b.d1 && okByte b.d2 && okByte b.d3 && decide (b.ocode < 16) && decide (b.trail < 2 ^ 28)
def okDme (x : DmePage) : Bool := okHalf x.ability && x.taps.all fun q => decide (q.1 < 4)

/-- The header fields of a Mywyn message have the widths of R488. -/
def okMsg (m : MyMsg) : Bool := okByte m.ty && okWord m.seq && okWord m.epoch && okLong m.tick

/-- What a failed read was of is one of the four that the part makes (R96, R120). -/
def okReadBack (r : ReadBack) : Bool :=
  match r with
  | .tails fn _ => okFn fn
  | .descriptors fn => okFn fn
  | .failed fn what addr sq => okFn fn && decide (1 ≤ what) && decide (what ≤ 4) && okLong addr && okRing 0 sq

/-- A command is well formed. -/
def Instr.wf (i : Instr) : Bool :=
  match i with
  | .nop h => okHdr h
  | .commitAt h _ scope tick sec ns grain => okHdr h && okWord scope && okLong tick && okLong sec && okWord ns && okHalf grain
  | .flowAdd h flow _ crc _ => okHdr h && okSlot3 flow && okWord crc
  | .flowDel h flow => okHdr h && okSlot3 flow
  | .flowMod h flow _ crc _ => okHdr h && okSlot3 flow && okWord crc
  | .flowBulk h first count _ => okHdr h && okWord first && okWord count
  | .groupSet h group list lines _ ls => okHdr h && okWord group && okWord list && okByte lines && okReads lines ls
  | .placeHint h flow cache repl => okHdr h && okSlot3 flow && okByte cache && okByte repl
  | .portSet h port width rate fec flags mask => okHdr h && okHalf port && okByte width && okByte rate && okByte fec && okByte flags && okByte mask
  | .laneTrain h lane mode arg count => okHdr h && okHalf lane && okByte mode && okByte arg && okByte count
  | .laneSweep h lane mode count addr len => okHdr h && okHalf lane && okByte mode && okHalf count && okLong addr && okWord len
  | .laneSlip h lane bits dir => okHdr h && okHalf lane && okByte bits && okByte dir
  | .timeSetIncr h units incr ppb => okHdr h && okByte units && okLong incr && okWord ppb
  | .timeStep h abs delta sec ns grain => okHdr h && okByte abs && okLong delta && okLong sec && okWord ns && okHalf grain
  | .tioSet h x => okHdr h && okTioSet x
  | .refSet h d n rank _ soft hard qual bw => okHdr h && okByte d && okByte n && okByte rank && okWord soft && okWord hard && okWord qual && okWord bw
  | .outAlign h mask => okHdr h && okWord mask
  | .pairSwap h => okHdr h
  | .pairCopy h _ => okHdr h
  | .chkRun h u addr len => okHdr h && okByte u && okLong addr && okWord len
  | .cairnExport h area seq count addr len => okHdr h && okByte area && okWord seq && okWord count && okLong addr && okWord len
  | .cairnClearFirst h confirm => okHdr h && okWord confirm
  | .scrub h targets => okHdr h && okWord targets
  | .auditNow h reclaim => okHdr h && okByte reclaim
  | .setWakeBudget h _ target wakeNs => okHdr h && okHalf target && okWord wakeNs
  | .opSuspend h handle => okHdr h && okWord handle
  | .opResume h handle => okHdr h && okWord handle
  | .opCancel h handle => okHdr h && okWord handle
  | .fwUpdate h _ addr len => okHdr h && okLong addr && okWord len
  | .pktInject h addr len port queue flags launchNs launchGrain _ => okHdr h && okLong addr && okHalf len && okHalf port && okByte queue && okByte flags && okWord launchNs && okHalf launchGrain
  | .mctpRead32 off => okWord off
  | .mctpWrite32 off v => okWord off && okWord v
  | .setEndpointId eid => okByte eid
  | .getEndpointId => true
  | .getMctpVersionSupport ty => okByte ty
  | .getMessageTypeSupport => true
  | .sysCommit _ _ scope => okWord scope
  | .sysResetWarm who => okWho who
  | .sysResetCold who => okWho who
  | .sysBlockReset mask => okWord mask
  | .startClear who => okWho who
  | .kick fn => okFn fn
  | .fnRunWrite fn _ => okFn fn
  | .quiesce fn => okFn fn
  | .ringEnable fn kind n => okFn fn && okRing kind n
  | .ringDisable fn kind n => okFn fn && okRing kind n
  | .timeSnapshotRead f => okFn f
  | .timeLatchRead => true
  | .loRead who addr => okWho who && okWord addr
  | .hiRead who addr => okWho who && okWord addr
  | .loWrite who addr v be => okWho who && okWord addr && okWord v && okEnables be
  | .hiWrite who addr v be => okWho who && okWord addr && okWord v && okEnables be
  | .slewWrite who amount => okWho who && okWord amount
  | .txsPop i => okInst i
  | .tioInPop n => okPin n
  | .tmeCfgWrite who _ _ => okWho who
  | .servoFreqWrite who freq ctrl => okWho who && freq.all okWord && ctrl.all fun x => okByte x.2
  | .reload table => okBytes table
  | .cellQuery c => okWord c
  | .refillWrite high low => okHalf high && okHalf low
  | .timingCellsWrite cells => okWord cells
  | .placeQuery flow => okWord flow
  | .arbCfgWrite n weight burst limit => okUnit8 n && okHalf weight && okHalf burst && okHalf limit
  | .tload _ _ count first entries => okHalf count && okWord first && entries.all okBytes
  | .speQuery pair => okWord pair
  | .speReset pair => okWord pair
  | .skewProbe _ pair => okWord pair
  | .itmGo _ => true
  | .itmStop _ => true
  | .itmCalGo => true
  | .selfTest n => okCheck n
  | .aliveClear n ctx => okCheck n && okHalf ctx
  | .doorbellRing who bits => okWho who && okWord bits
  | .doorbellMaskWrite who r mask => okWho who && okUnit8 r && okWord mask
  | .channelBind who n _ sender receiver remote => okWho who && okChan n && okByte sender && okByte receiver && okByte remote
  | .bindLock who => okWho who
  | .messageWordWrite who n w v => okWho who && okChan n && okCheck w && okWord v
  | .messageRead who n w => okWho who && okChan n && okCheck w
  | .flush who n => okWho who && okChan n
  | .lockAcquire who k => who.all okWho && okLock k
  | .lockRelease who k => okWho who && okLock k
  | .counterSelect u k _ w => okObs u && okUnit8 k && okWord w
  | .counterClear u mask => okObs u && okByte mask
  | .samplerEnable k _ => okHalfLane k
  | .cairnEnableWrite _ => true
  | .cairnIntervalWrite v => okWord v
  | .registerWrite who addr v be _ => okWho who && okWord addr && okWord v && okEnables be
  | .flr fn => okFn fn
  | .pcieLinkDown kind ltssm => okHalfLane kind && okByte ltssm
  | .hstLink rate width ltssm => okByte rate && okByte width && okByte ltssm
  | .vfEnable n => okFn n
  | .msixUnmask fn v => okFn fn && okVector v
  | .tickBoundary x => okBoundary x
  | .quietWindowCapture => true
  | .generationSwitch => true
  | .generationStall => true
  | .generationRetire n => okGen n
  | .comparatorArm => true
  | .comparatorRetire => true
  | .doorbellPoll fn _ => okFn fn
  | .completionPost fn cq => okFn fn && okRing 1 cq
  | .cqInterrupt fn cq => okFn fn && okRing 1 cq
  | .longOpShare reads => reads.all fun x => okOp x.1
  | .longOpDone slot r => okOp slot && okBytes r.data && r.damage.all fun d => okStore d.1
  | .suspendTimeout slot => okOp slot
  | .timeStepApply => true
  | .slewDone => true
  | .servoTimeout => true
  | .frameHead x => okPort x.port && okBytes x.bytes && okHead x.bytes && x.damage.all fun d => okStore d.1
  | .furtherCellRequest _ => true
  | .cellRetry _ => true
  | .frameEnd _ x => okBytes x.bytes
  | .flowMissDone i _ => okSlot3 i
  | .windowReadDone _ _ _ unread => okOctet unread
  | .missQueueRoom p => okPort p
  | .mergeQueueRoom p => okPort p
  | .caravanQueueRoom sl => okUnit8 sl
  | .copyStart p _ => okPort p
  | .copyEnd p x => okPort p && okHalfLane x.mac && x.upset.all okCell
  | .pauseFrameReceive p _ quanta all => okPort p && okQuanta quanta && okHalf all
  | .pauseExpiry p prio => okPort p && okUnit8 prio
  | .xoffRefresh p prio => okPort p && okUnit8 prio
  | .holdRelease p prio => okPort p && okUnit8 prio
  | .holdLimit p prio _ => okPort p && okUnit8 prio
  | .ventStart p prio => okPort p && okUnit8 prio
  | .preemptVerify p kind => okPort p && okGen kind
  | .pacerRelease _ => true
  | .gateChange p => okPort p
  | .gateListSwap p => okPort p
  | .syncSend p => okPort p
  | .followUpSend p => okPort p
  | .delayReqSend p => okPort p
  | .pdelayReqSend p => okPort p
  | .delayRespSend p => okPort p
  | .pdelayRespSend p => okPort p
  | .twostepEntryAge => true
  | .esmcPduReceive port ssm _ => okPort port && okNibble ssm
  | .esmcTimeout k => okUnit8 k
  | .esmcInfoSend => true
  | .esmcEventSend => true
  | .injectLaunch => true
  | .refetchDone t _ _ => okTable t
  | .refetchRetry t _ => okTable t
  | .scrubPass damaged => damaged.all fun x => okStore x.1
  | .arbContest w => w.all fun x => okUnit8 x.n && okHalf x.weight && okHalf x.burst && okHalf x.limit
  | .freeRingReadDone _ _ => true
  | .sweepDue => true
  | .sweepMarkDone => true
  | .sweepEnd => true
  | .sweepTimeout => true
  | .placeInterval => true
  | .fillReadDone flow _ => okSlot3 flow
  | .placeTimeout flow => okSlot3 flow
  | .directoryRereadDone flow _ => okSlot3 flow
  | .speSweep => true
  | .auditComplete u egress => okCheck u && egress.all okBytes
  | .chkJobDone n data _ => okCheck n && okBytes data
  | .chkWait n => okCheck n
  | .dumpDue => true
  | .dumpWriteDone => true
  | .flowPassDone bad => bad.all okSlot3
  | .cairnIntervalClose => true
  | .cairnMirrorProgramDone _ => true
  | .tioPulseEdge n => okPin n
  | .tioInputEdge n _ _ => okPin n
  | .seifBeat p d sample => okSeif p d && sample.all okWord
  | .seifWindowEnd p d back => okSeif p d && okBeat back
  | .seifLost p d _ => okSeif p d
  | .itmStartEdge _ _ src => okItmSrc src
  | .itmStopEdge _ _ src => okItmSrc src
  | .itmWinExpiry => true
  | .itmTimeout => true
  | .itmCalDone _ _ => true
  | .refGateEnd l => l.all fun g => okCand g.slot
  | .refSignalLoss x => okCand x.slot && okLong x.quiet
  | .refSignalReturn n => okCand n
  | .candidateQualified d n => okHalfLane d && okCand n
  | .historySecond => true
  | .xoPpbUpdate => true
  | .xoTrustExpiry => true
  | .dpllLockDetect x => okHalfLane x.dpll
  | .dpllAcqTimeout d => okHalfLane d
  | .dpllNarrowStep d => okHalfLane d
  | .dpllPhaseLoss x => okHalfLane x.dpll
  | .synthLockLoss mask _ => okHalf mask
  | .bypassReturn n => okCheck n
  | .outDivLoad => true
  | .alignMoveDone n resid => okCheck n && okHalf resid
  | .outGateChange n _ => okCheck n
  | .calCheck _ _ => true
  | .thermalTrip => true
  | .avsDeviation x => okHalf x.mv
  | .subsystemWake u _ => okObs u
  | .claimFrameReceive sync claim tail => okByte sync && okByte claim && okHalf tail
  | .claimSourceExpiry src => okHalfLane src
  | .claimMismatch => true
  | .heartbeatBoundary => true
  | .joinWaitExpiry => true
  | .heartbeatFrameReceive m _ alive => okMsg m && okByte alive
  | .mywynMessageReceive lane m _ alive => okHalfLane lane && okMsg m && okByte alive
  | .markerAlignmentLoss k => okHalfLane k
  | .epochBoundary => true
  | .epochApply => true
  | .epochDiscard => true
  | .handoverInstant => true
  | .handoverEnd => true
  | .driverWatch n => okCheck n
  | .mbxDataSend n => okChan n
  | .mbxDataReceive ch src _ words => okChan ch && okByte src && words.all okWord
  | .mbxAckReceive ch => okChan ch
  | .mbxNakReceive ch => okChan ch
  | .mbxDoorbellReceive bits => okWord bits
  | .mbxResend n => okChan n
  | .xwaitDetect a b => okChan a && okChan b
  | .lockHoldExpiry k => okLock k
  | .jtagTapReset => true
  | .laneSignalDetect i => okLane i
  | .laneSignalLoss i _ => okLane i
  | .ladderBlockSend i => okLane i
  | .ladderBlockReceive i b => okLane i && okBlock b
  | .laneRungChange i => okLane i
  | .dmePageReceive i _ _ x => okLane i && okDme x
  | .rungTimeout i _ => okLane i
  | .backoffExpiry i => okLane i
  | .portUp p => okPort p
  | .powerOn => true
  | .railFault => true
  | .resetPin => true
  | .internalResetRelease => true
  | .romDone sel _ _ => okHalfLane sel
  | .xoDetectTimeout => true
  | .verifyDone _ _ => true
  | .hbmTrainingDone _ => true
  | .firmwareReady => true
  | .notReadyTimeout => true
  | .startRetry => true
  | .failedCountReset => true
  | .watchdogExpiry c => okGen c
  | .xoLoss => true
  | .hostReadReturn r => okReadBack r
  | .mirrorEraseDone => true
  | .dpll0XoLockTimeout => true
  | .thermalHoldRelease => true
  | .hbmInterfaceError channel kind => okByte channel && okByte kind

end Sys2Proof
end

