-- ==== Sys2Proof/Tests/Slice0.lean ====
section
/-!
SUPPORT. For every clause of a statement that has hypotheses, a state and operands that meet them together, at boundary values;
and for every check of `Instr.wf` a command that it refuses.
-/
namespace Sys2Proof
namespace Tests
open Machine

/-- A small state in command execution: PF with submission ring 0 and completion ring 0 enabled and one descriptor waiting. -/
def ready : State :=
  let s := State.reset.setRegs [(.HST_FN_CTRL_RUN, 0, 1), (.HST_SQ_CTRL_EN, 0, 1), (.HST_CQ_CTRL_EN, 0, 1),
    (.HST_SQ_CTRL_LOG2_SIZE, 0, 6), (.HST_CQ_CTRL_LOG2_SIZE, 0, 6)]
  { s with
    hst := { s.hst with sqTail := [(0, 1)] }
    clk := { s.clk with cycle := 100 } }

/-- The header of a descriptor of that ring. -/
def hd : Hdr := ⟨0, 0, 0, 7, false, false, false, 0, false⟩

/-- `ready`, with PF holding the registrations of all seven tables, 64 entries each, and flow 5 loaded. -/
def readyTables : State :=
  let s := ready.setRegs ((List.range 7).map fun t => (.HST_SHADOW_CTRL_ENTRIES, t, 64))
  ({ s with hst := { s.hst with shadowOwner := (List.range 7).map fun t => (t, 1) } } : State).update tFlow 5 (some [0x80, 0x60]) false

/-- `ready`, with a running operation of PF in slot 3, of serial number 1: its handle is 3 + 512. -/
def readyOp : State := ready.setOp 3 { LongOp.free with state := 2, serial := 1, opcode := 0x80 }

/-- A flow entry of kind 0 without KEY_LOAD. -/
def flowRead : FlowRead := ⟨.ok (0x80 :: List.replicate 63 0), .error⟩

/-- `ready`, with one record in the first Cairn area. -/
def readyCairn : State := { ready with cairn := { ready.cairn with first := [[7, 0, 0, 0, 1]] } }

/-- `ready`, with this unit the standby of a READY pair, both holding a good copy. -/
def readyPair : State :=
  let s := ready.setRegs [(.PAIR_STATUS_STATE, 0, 2)]
  { s with pair := { s.pair with held := true } }

/-- `ready`, with the servo left to the PF and without the strict mode of R382. -/
def readyServo : State := ready.setRegs [(.TME_CFG_COMPAT, 0, 0), (.TME_CFG_SERVO_OWNER, 0, 1)]

theorem test_queue_premises : ({ ready with pending := [.getEndpointId, .itmWinExpiry] } : State).pending = .getEndpointId :: [.itmWinExpiry] ∧
    State.reset.pending = [] := by decide
theorem test_clock_premises : Clock.ok ready.clk ∧ movesTime .getEndpointId = false ∧ ready.sys.held = false ∧
    ready.clk.cycle + 1 < ready.clk.tickLen := by unfold Clock.ok; decide
/-- What the hypotheses on a descriptor that is fetched and starts at once ask, but for its function's permission. -/
def fetchedOk (s : State) (h : Hdr) (sp : Spec) : Bool :=
  s.fetchable h.fn h.sq && s.cqUsable h.fn h.cq && decide (tget 0 s.hst.fetched h.fn < fetchBudget) && (s.fetched h sp).execWindow &&
    !((s.fetched h sp).hst.waiting.any fun w => sameRing w h.fn h.sq) && !h.fence
theorem test_spec_premise : specOf (.nop hd) = some (hd, specNop) ∧ specOf (.laneSlip hd 0x3FF 1 0) = some (hd, specLaneSlip 0x3FF 1 0) :=
  ⟨rfl, rfl⟩
/-- VALID_NS 1 at wrap ns 2: just passed. -/
theorem test_valid_premises : let s : State := { ready with clk := { ready.clk with acc := 2 * 2 ^ 40 } }
    let h := { hd with validNs := 1 }
    let f := s.fetched h specNop
    fetchedOk s h specNop = true ∧ f.mayIssue h.fn specNop.opc = true ∧ h.validNs ≠ 0 ∧
    0 < sgn 32 (f.wrapNs + 2 ^ 32 - h.validNs % 2 ^ 32) := by decide
/-- VF 1 without permission for PORT_SET. -/
theorem test_opcode_premises : let t := ready.setRegs [(.HST_FN_CTRL_RUN, 1, 1), (.HST_SQ_CTRL_EN, 256, 1), (.HST_CQ_CTRL_EN, 256, 1), (.HST_SQ_CTRL_LOG2_SIZE, 256, 6), (.HST_CQ_CTRL_LOG2_SIZE, 256, 6)]
    let s : State := { t with hst := { t.hst with numVf := 1, sqTail := [(256, 1)] } }
    let h := { hd with fn := 1 }
    let sp := specPortSet h 0 1 0 0 0 0
    fetchedOk s h sp = true ∧ (s.fetched h sp).mayIssue 1 sp.opc = false := by decide
/-- A reserved bit, HOLD on a NOP, a lane that does not exist; VALID_NS equal to the wrap ns has not passed. -/
theorem test_bad_field_premises : let h : Hdr := { hd with rsvd := true }
    let k : Hdr := { hd with hold := true }
    let f := ready.fetched hd (specLaneSlip 0x3FF 1 0)
    fetchedOk ready h specNop = true ∧ fetchedOk ready k specNop = true ∧ holdValid specNop.opc = false ∧
    fetchedOk ready hd (specLaneSlip 0x3FF 1 0) = true ∧ ((specLaneSlip 0x3FF 1 0).chk f).badField = true ∧
    f.mayIssue 0 0x22 = true ∧ validPassed (f.wrapNs) 0 = false ∧ validPassed 5 5 = false := by decide
/-- OUT_ALIGN on the pair standby, and in playa mode. -/
theorem test_standby_playa_premises : let sp := specOutAlign 1
    let q := ready.setReg .SYS_STATUS_PLAYA 0 1
    fetchedOk readyPair hd sp = true ∧ (sp.chk (readyPair.fetched hd sp)).badField = false ∧ (readyPair.fetched hd sp).standby = true ∧
    standbyRefused sp.opc = true ∧ fetchedOk q hd (specOutAlign 1) = true ∧ ((specOutAlign 1).chk (q.fetched hd (specOutAlign 1))).badField = false ∧
    (q.fetched hd (specOutAlign 1)).standby = false ∧ (q.fetched hd (specOutAlign 1)).reg .SYS_STATUS_PLAYA = 1 ∧
    (specOutAlign 1).opc ≠ 0x01 ∧ (specOutAlign 1).opc ≠ 0xB0 ∧ (specOutAlign 1).opc ≠ 0x70 := by decide
/-- A completion ring that is not enabled. -/
theorem test_bad_ring_premises : let s := ready.setReg .HST_CQ_CTRL_EN 0 0
    s.fetchable 0 0 = true ∧ s.cqUsable 0 0 = false := by decide
theorem test_update_premises : (0 : Nat) < 2 ^ 23 ∧ ready.pendSeq ≤ ready.pendSeq ∧ ready.sys.genSeq < ready.pendSeq := by decide

theorem test_starts_nop : Starts ready hd specNop := by unfold Starts; decide
theorem test_starts_op_control : Starts readyOp hd (specOpControl hd 0xA0 1 515) ∧ Starts readyOp hd (specOpControl hd 0xA1 2 515) ∧
    Starts readyOp hd (specOpControl hd 0xA2 3 515) := by unfold Starts; decide
theorem test_starts_place_hint : Starts readyTables hd (specPlaceHint hd 5 2 1) := by unfold Starts; decide
theorem test_starts_flow_load : Starts readyTables hd (specFlowAdd hd 0 false 0 flowRead) ∧
    Starts readyTables { hd with hold := true } (specFlowMod { hd with hold := true } 5 false 0 flowRead) := by unfold Starts; decide
theorem test_starts_flow_del : Starts readyTables hd (specFlowDel hd 5) ∧
    (readyTables.charged hd (specFlowDel hd 5)).anchoring 5 = [0x80, 0x60] := by unfold Starts; decide
theorem test_starts_group_set : Starts readyTables hd (specGroupSet hd 63 0 0 (.ok [0x80]) []) := by unfold Starts; decide
theorem test_starts_bulk : Starts readyTables hd (specFlowBulk hd 0 64 false) ∧
    (readyTables.charged hd (specFlowBulk hd 0 64 false)).freeSlot 0 = some 0 := by unfold Starts; decide
theorem test_starts_lane_train : laneIndex 255 = some 255 ∧ Starts ready hd (specLaneTrain hd 255 2 5 255) ∧
    (ready.charged hd (specLaneTrain hd 255 2 5 255)).freeSlot 0 = some 0 := by unfold Starts; decide
theorem test_starts_lane_sweep : laneIndex 0 = some 0 ∧ Starts ready hd (specLaneSweep hd 0 1 4096 64 32768) ∧
    (ready.charged hd (specLaneSweep hd 0 1 4096 64 32768)).freeSlot 0 = some 0 := by unfold Starts; decide
theorem test_starts_pair_copy : Starts ready hd (specPairCopy hd true) ∧
    (ready.charged hd (specPairCopy hd true)).freeSlot 0 = some 0 := by unfold Starts; decide
theorem test_starts_chk_run : Starts ready hd (specChkRun hd 0xFF 0 1) ∧ (ready.charged hd (specChkRun hd 0xFF 0 1)).bindUnit 0xFF = 0 ∧
    (ready.charged hd (specChkRun hd 0xFF 0 1)).freeSlot 0 = some 0 := by unfold Starts; decide
theorem test_starts_cairn_export : Starts readyCairn hd (specCairnExport hd 0 7 1 0 128) ∧
    (readyCairn.charged hd (specCairnExport hd 0 7 1 0 128)).freeSlot 0 = some 0 := by unfold Starts; decide
theorem test_starts_scrub : Starts ready hd (specScrub hd 0x3FF) ∧
    (ready.charged hd (specScrub hd 0x3FF)).freeSlot 0 = some 0 := by unfold Starts; decide
theorem test_starts_fw_update : Starts ready hd (specFwUpdate hd true 0 (12 * 2 ^ 20)) ∧
    (ready.charged hd (specFwUpdate hd true 0 (12 * 2 ^ 20))).freeSlot 0 = some 0 := by unfold Starts; decide

theorem test_starts_commit_at : Starts ready hd (specCommitAt hd false 0x3F7FF 100 0 0 0) ∧
    Starts ready hd (specCommitAt hd true 0 0 0 2000 65535) := by unfold Starts; decide
theorem test_starts_port_set : Starts ready hd (specPortSet hd 248 8 7 2 7 255) := by unfold Starts; decide
theorem test_starts_tio_set : Starts ready hd (specTioSet ⟨7, 4, 8, 1000, 1, 0, 999999999⟩) := by unfold Starts; decide
theorem test_starts_ref_set : Starts ready hd (specRefSet 1 12 15 true 100 100 0 10000) := by unfold Starts; decide
theorem test_starts_time_set_incr : Starts readyServo hd (specTimeSetIncr 1 0 500000) ∧
    Starts readyServo hd (specTimeSetIncr 0 (2 ^ 41) 0) := by unfold Starts; decide
theorem test_starts_time_step : Starts readyServo hd (specTimeStep 1 0 0 999999999 65535) := by unfold Starts; decide
theorem test_starts_out_align : Starts ready hd (specOutAlign 0xFFFF) := by unfold Starts; decide
theorem test_starts_audit_now : Starts ready hd (specAuditNow 1) := by unfold Starts; decide
theorem test_starts_clear_first : Starts readyCairn hd (specCairnClearFirst (readyCairn.reg .OBS_CAIRN_FIRST_SEQ_SEQ)) := by
  unfold Starts; decide
theorem test_starts_lane_slip : laneIndex 0x110 = some 258 ∧ Starts ready hd (specLaneSlip 0x110 64 1) := by unfold Starts; decide
theorem test_starts_wake_budget : Starts ready hd (specSetWakeBudget false 257 4294967295) ∧
    Starts ready hd (specSetWakeBudget true 18 0) := by unfold Starts; decide
theorem test_starts_pair_swap : Starts readyPair hd specPairSwap := by unfold Starts; decide
theorem test_starts_pkt_inject : Starts ready hd (specPktInject hd 0 60 257 15 7 0 65535 (.ok [])) ∧
    Starts ready hd (specPktInject hd 0 9212 0 0 0 0 0 .error) := by unfold Starts; decide

/-- SYS_ID, and the pair SYS_TICK. -/
theorem test_reads_reach : State.reset.reaches 0 0 false = true ∧ (fieldsAt 0 |>.all fun x => !readActs x.1) = true ∧
    isPair (fieldsAt 0) = false ∧ fieldsAt 0 ≠ [] ∧ isPair (fieldsAt 32) = true ∧ fieldsAt 36 = [] ∧ hiOf 36 ≠ [] ∧
    fieldsAt 0x3FFFFFC = [] ∧ hiOf 0x3FFFFFC = [] ∧ State.reset.reaches 0 0x3FFFFFC false = true := by decide
/-- The pair SYS_TICK latched for the PF's path. -/
theorem test_hi_latched : tget none ({ State.reset with hiLatch := tset none (latchKey 0 32) (some (32, 5)) [] } : State).hiLatch
    (latchKey 0 36) = some (36 - 4, 5) := by decide
theorem test_mctp_read_reaches : State.reset.reaches 21 0 false = true := by decide
/-- SYS_BUDGET, the pair SYS_COMMIT_AT_TICK, and MBX_XWAIT. -/
theorem test_writes_reach : State.reset.reaches 0 0x134 true = true ∧ ((fieldsAt 0x134).all fun x => !writeActs x.1) = true ∧
    isPair (fieldsAt 0x134) = false ∧ fieldsAt 0x134 ≠ [] ∧ isPair (fieldsAt 0x118) = true ∧
    ((hiOf 0x11C).all fun x => !writeActs x.1) = true ∧ fieldsAt 0x11C = [] ∧ hiOf 0x11C ≠ [] ∧
    State.reset.reaches 21 0x200004 true = true ∧ bmcWrites 0x200004 = true ∧
    ((fieldsAt 0x200004).all fun x => !writeActs x.1) = true ∧ isPair (fieldsAt 0x200004) = false ∧ fieldsAt 0x200004 ≠ [] := by decide
theorem test_lo_held : tget none ({ State.reset with loHold := tset none (latchKey 0 0x118) (some (0x118, 5)) [] } : State).loHold
    (latchKey 0 0x11C) = some (0x11C - 4, 5) := by decide
theorem test_field_kinds : bits 0x80000000 Fld.SYS_BUDGET_BULK_SHARE.desc.hi Fld.SYS_BUDGET_BULK_SHARE.desc.lo = 0 ∧
    bits 1 Fld.SYS_BUDGET_BULK_SHARE.desc.hi Fld.SYS_BUDGET_BULK_SHARE.desc.lo ≠ 0 ∧ Fld.SYS_BUDGET_BULK_SHARE.desc.kind = .live ∧
    Fld.TME_INCR_INCR.desc.kind = .staged ∧ Fld.LN_CFG_PRBS.desc.kind = .frozen ∧ State.reset.idleFor .LN_CFG_PRBS 0 = true ∧
    (State.reset.setReg .LN_STATUS_STATE 0 6).idleFor .LN_CFG_PRBS 0 = false ∧ Fld.LN_TABLE_STATUS_CRC_ERR.desc.kind = .sticky ∧
    Fld.SYS_ID_PART.desc.kind = .status := by decide
theorem test_not_held : State.reset.sys.held = false := by decide

/-- A part in service after a first watchdog, and one in each state of a start. -/
theorem test_reset_premises : State.reset.sys.held = false ∧ State.reset.reg .SYS_START_REASON_COUNT < 3 ∧
    State.reset.sys.thermHold = false ∧ (State.reset.setReg .SYS_STATUS_START 0 3).reg .SYS_STATUS_START = 3 ∧
    (State.reset.setReg .SYS_START_REASON_COUNT 0 2).reg .SYS_START_REASON_COUNT < 3 := by decide
theorem test_watchdog_second : let s : State := { State.reset.setReg .SYS_STATUS_START 0 3 with sys := { Sys.start with watchAt := 1 } }
    s.sys.watchAt ≠ 0 ∧ s.clk.tickCount + 1 ≤ s.sys.watchAt + 60000000 ∧ s.reg .SYS_STATUS_START = 3 := by decide
theorem test_held_premises : (doPowerOn State.reset).sys.held = true ∧ (doPowerOn State.reset).sys.thermHold = false ∧
    (doThermalTrip { State.reset with sys := { Sys.start with hot := [(15, 1001)] } }).sys.thermHold = true ∧
    (doThermalTrip { State.reset with sys := { Sys.start with hot := [(15, 1000)] } }).sys.thermHold = false := by decide
theorem test_start_premises : State.reset.reg .SYS_STATUS_START = 0 ∧ (State.reset.setReg .SYS_STATUS_START 0 1).reg .SYS_STATUS_START = 1 ∧
    (State.reset.setReg .SYS_STATUS_START 0 2).reg .SYS_STATUS_START = 2 ∧ State.reset.sys.warm = false ∧
    (State.reset.setReg .SYS_STATUS_START 0 4).reg .SYS_STATUS_START = 4 ∧ State.reset.reg .SYS_START_REASON_COUNT < 2 := by decide
/-- Slot 1 booted, as SELECT says, in INIT. -/
theorem test_ready_premises : let s := State.reset.setRegs [(.SYS_STATUS_START, 0, 2), (.SYS_START_REASON_SLOT, 0, 1), (.SYS_BOOT_SELECT, 0, 1)]
    s.reg .SYS_STATUS_START = 2 ∧ s.reg .SYS_START_REASON_SLOT = s.reg .SYS_BOOT_SELECT ∧ s.reg .SYS_START_REASON_FALLBACK = 0 ∧
    s.reg .OBS_CAIRN_CTRL_EN = 0 := by decide
/-- RESET_N low for 10 µs: a cold reset, held. -/
theorem test_reset_pin : (doResetPin (State.reset.setReg .SYS_TC_HORIZON_TICKS 0 5)).reg .SYS_TC_HORIZON_TICKS = 100000 ∧
    (doResetPin State.reset).sys.held = true := by decide
/-- 2,000,000 ticks into a start: every wait of R591 and R593 is over; a sensor has been hot for 1,000 ticks. -/
theorem test_span_premises : let s : State := { State.reset with clk := { Clock.start with tickCount := 2000000 } }
    s.sys.stateAt + 10000 ≤ s.clk.tickCount ∧ s.sys.stateAt + 5000 ≤ s.clk.tickCount ∧ s.sys.stateAt + 1000000 ≤ s.clk.tickCount ∧
    s.sys.startAt + 2000000 ≤ s.clk.tickCount ∧
    (∃ n, n < 16 ∧ 1000 < tget 0 ({ s with sys := { s.sys with hot := [(15, 1001)] } } : State).sys.hot n) := by decide

theorem test_function_rows : ready.reg .HST_FN_CTRL_RUN 0 = 1 ∧ 0 ≤ ready.hst.numVf ∧ ready.reg .HST_FN_CTRL_RUN 15 ≠ 1 := by decide
/-- Ring 255 of PF: disabled, of the smallest and the largest size, and of sizes outside. -/
theorem test_ring_rows : ∀ n ∈ [6, 16],
    let s := ready.setRegs [(.HST_SQ_CTRL_LOG2_SIZE, 255, n), (.HST_CQ_CTRL_LOG2_SIZE, 255, n), (.HST_CQ_CTRL_VECTOR, 255, 63)]
    s.reg .HST_SQ_CTRL_EN (ring 0 255) ≠ 1 ∧ 6 ≤ s.reg .HST_SQ_CTRL_LOG2_SIZE (ring 0 255) ∧ s.reg .HST_SQ_CTRL_LOG2_SIZE (ring 0 255) ≤ 16 ∧
    s.reg .HST_CQ_CTRL_EN (ring 0 255) ≠ 1 ∧ 6 ≤ s.reg .HST_CQ_CTRL_LOG2_SIZE (ring 0 255) ∧ s.reg .HST_CQ_CTRL_LOG2_SIZE (ring 0 255) ≤ 16 ∧
    s.reg .HST_CQ_CTRL_PUNT (ring 0 255) ≠ 1 ∧ s.vectorOk 0 (s.reg .HST_CQ_CTRL_VECTOR (ring 0 255)) = true := by decide
theorem test_ring_size_bad : (ready.setReg .HST_SQ_CTRL_LOG2_SIZE 255 5).reg .HST_SQ_CTRL_LOG2_SIZE (ring 0 255) < 6 ∧
    16 < (ready.setReg .HST_SQ_CTRL_LOG2_SIZE 255 17).reg .HST_SQ_CTRL_LOG2_SIZE (ring 0 255) := by decide
theorem test_event_ring_row : let s := ready.setRegs [(.HST_EVQ_CTRL_LOG2_SIZE, 0, 16), (.HST_EVQ_CTRL_VECTOR, 0, 63)]
    ({ s with hst := { s.hst with bootEvent := none } } : State).hst.bootEvent = none ∧ s.reg .HST_EVQ_CTRL_EN 0 ≠ 1 ∧
    6 ≤ s.reg .HST_EVQ_CTRL_LOG2_SIZE 0 ∧ s.reg .HST_EVQ_CTRL_LOG2_SIZE 0 ≤ 16 ∧ s.vectorOk 0 (s.reg .HST_EVQ_CTRL_VECTOR 0) = true := by
  decide
/-- Polls with a new and the same DB_GEN; a tail at the ring's size and below it. -/
theorem test_doorbell_rows : let s := ready.setReg .HST_CQ_CTRL_EN 0 0
    tget 0 ready.hst.dbGen 0 ≠ (4 : Nat) + 1 ∧ ready.reg .HST_FN_CTRL_RUN 0 = 1 ∧
    tget 0 ({ s with hst := { s.hst with dbGen := [(0, 5)], kicked := [(0, 1)] } } : State).hst.dbGen 0 = 4 + 1 ∧
    tget 0 ({ s with hst := { s.hst with dbGen := [(0, 5)], kicked := [(0, 1)] } } : State).hst.kicked 0 = 1 ∧
    s.reg .HST_SQ_CTRL_EN (ring 0 0) = 1 ∧ s.reg .HST_SQ_STATUS_ERR (ring 0 0) = 0 ∧ s.reg .HST_CQ_CTRL_EN (ring 0 0) ≠ 1 ∧
    63 < 2 ^ s.reg .HST_SQ_CTRL_LOG2_SIZE (ring 0 0) ∧ 2 ^ s.reg .HST_SQ_CTRL_LOG2_SIZE (ring 0 0) ≤ 64 := by decide
/-- A finished command whose completion is due. -/
theorem test_completion_row : let c : Cmd := { id := 1, fn := 0, sq := 0, cq := 0, tag := 7, opcode := 1, quiet := false, sqHead := 1, addr := 0, fetchNs := 0, samp := none, res := some ⟨0, 0, false, [], none⟩ }
    let s : State := { ready with hst := { ready.hst with cmds := [c] } }
    s.nextCompletion 0 0 = some c ∧ s.reg .HST_CQ_CTRL_EN (ring 0 0) = 1 ∧ s.cqRoom (ring 0 0) = true ∧ ready.nextCompletion 0 0 = none := by
  decide
theorem test_cq_interrupt_row : let s : State := { ready with hst := { ready.hst with cqUns := [(0, 1)] } }
    tget 0 s.hst.cqUns (ring 0 0) ≠ 0 ∧ max 1 (s.reg .HST_CQ_CTRL_COAL_COUNT (ring 0 0)) ≤ tget 0 s.hst.cqUns (ring 0 0) := by decide
theorem test_reset_rows : let s : State := { ready with hst := { ready.hst with numVf := 15 } }
    15 ≠ 0 ∧ 15 ≤ s.hst.numVf ∧ s.reg .SYS_STATUS_PLAYA ≠ 1 ∧ s.hst.numVf ≤ min 15 16 := by decide

/-- The servo left to PF (identity 0), before and after the first correction; COMPAT 0 and 1. -/
theorem test_servo_premises : 0 = readyServo.servoOwner ∧ readyServo.reg .TME_CFG_COMPAT ≠ 1 ∧ 15 ≠ readyServo.servoOwner ∧
    (readyServo.setReg .TME_CFG_COMPAT 0 1).reg .TME_CFG_COMPAT = 1 ∧ readyServo.tme.touched = false ∧
    true ≠ readyServo.flag .TME_CFG_COMPAT ∧ false ≠ readyServo.flag .TME_CFG_SERVO_OWNER ∧
    ({ ready with tme := { ready.tme with touched := true } } : State).tme.touched = true := by decide
theorem test_txs_premises :
    tget [] ({ ready with tme := { ready.tme with txs := [(5, [[1, 2, 3, 70000]])] } } : State).tme.txs 5 = [1, 2, 3, 70000] :: [] ∧
    tget [] ready.tme.txs 5 = [] := by decide
theorem test_tio_premises : ((ready.setTio 3 { Tio.idle with fifo := [(true, 9)] }).tio 3).fifo = (true, 9) :: [] ∧
    (ready.tio 3).fifo = [] := by decide
theorem test_slew_premises : ready.tme.slewLeft = 0 ∧ (ready.setReg .TME_STATUS_SLEWING 0 1).reg .TME_STATUS_SLEWING = 1 ∧
    ({ ready with tme := { ready.tme with slewLeft := -1 } } : State).tme.slewLeft ≠ 0 := by decide
/-- A servo value exactly TIMEOUT ticks old, and one a tick younger. -/
theorem test_servo_timeout_premises :
    let s := ready.setRegs [(.TME_SERVO_CTRL_VALID, 0, 1), (.TME_SERVO_CTRL_TIMEOUT, 0, 10)]
    (∀ k ∈ [10], let t : State := { s with clk := { s.clk with tickCount := k } }
      t.reg .TME_SERVO_CTRL_VALID = 1 ∧ t.reg .TME_SERVO_CTRL_TIMEOUT ≠ 0 ∧ t.reg .TME_SERVO_CTRL_TIMEOUT ≤ t.clk.tickCount - t.tme.servoAt) ∧
    (∀ k ∈ [9], let t : State := { s with clk := { s.clk with tickCount := k } }
      t.clk.tickCount - t.tme.servoAt < t.reg .TME_SERVO_CTRL_TIMEOUT) := by decide
/-- A pulse that is to fall at once, and a train whose next edge is within the lead. -/
theorem test_pulse_premises : let s := ready.setTio 2 { Tio.idle with highUntil := 1 }
    (s.tio 2).highUntil ≠ 0 ∧ ((s.tio 2).highUntil : Int) ≤ s.grains + sgn 16 (s.reg .TME_TIO_DLY_PS 2) * 65536 / 1000 + 32768 ∧
    s.reg .OUT_TIO_CFG_SHARED 2 ≠ 1 := by decide
theorem test_train_premises : let x : TioSet := ⟨2, 1, 8, 1000, 1, 0, 0⟩
    let s := ready.setTio 2 { Tio.idle with train := some x }
    (s.tio 2).highUntil = 0 ∧ (s.tio 2).train = some x ∧
    (tioEdge x (s.tio 2).after : Int) ≤ s.grains + sgn 16 (s.reg .TME_TIO_DLY_PS 2) * 65536 / 1000 + 262144 ∧
    s.reg .OUT_TIO_CFG_SHARED 2 ≠ 1 := by decide
theorem test_edge_premises : (ready.setReg .TME_TIO_MODE_MODE 1 4).reg .TME_TIO_MODE_MODE 1 = 4 ∧ (ready.tio 1).last = 0 ∧
    ((ready.setTio 1 { Tio.idle with last := 1 }).tio 1).last + 100 * 65536 ≤
      (((6553600 : Nat) : Int) + sgn 16 (ready.reg .TME_TIO_DLY_PS 1) * 65536 / 1000).toNat + 1 ∧
    ready.reg .TME_TIO_MODE_MODE 1 < 2 := by decide

theorem test_refill_premises : 4095 < 4096 ∧ (4094 : Nat) < 4095 ∧ (5 : Nat) % 4096 ≤ 4101 % 4096 := by decide
/-- An idle Oasis takes 256 and 65,536 cells. -/
theorem test_timing_premises : (∀ c ∈ [256, 65536], 256 ≤ c ∧ c ≤ 65536 ∧ c ≠ ready.reg .OAS_TIMING_CELLS) ∧ ready.oasIdle = true := by decide +kernel
theorem test_free_ring_premises : ({ ready with oas := { ready.oas with reads := [[(64, 16)]] } } : State).oas.reads = [(64, 16)] :: [] ∧
    ({ ready with oas := { ready.oas with reads := [] } } : State).oas.reads = [] := by decide
theorem test_sweep_premises : let s : State := { ready with clk := { ready.clk with cycle := 0 }, oas := { ready.oas with due := true } }
    s.clk.cycle = 0 ∧ s.oas.due = true ∧ s.reg .OAS_DUST_STATUS_STATE = 0 ∧
    ready.oas.due = false ∧
    (s.setReg .OAS_DUST_STATUS_STATE 0 1).reg .OAS_DUST_STATUS_STATE = 1 ∧ (s.setReg .OAS_DUST_STATUS_STATE 0 2).reg .OAS_DUST_STATUS_STATE = 2 := by
  decide
theorem test_sweep_timeout_premises : let s : State := { ready.setRegs [(.OAS_DUST_STATUS_STATE, 0, 1), (.OAS_DUST_PERIOD, 0, 1000)] with
      clk := { ready.clk with tickCount := 1000 } }
    s.reg .OAS_DUST_STATUS_STATE = 1 ∧ s.reg .OAS_DUST_PERIOD ≤ s.clk.tickCount - s.oas.began := by decide
/-- Flow 5, damaged: under refetch from PF's shadow, with 7 and with 8 tries made. -/
theorem test_refetch_premises : let s := readyTables.setVers 3 5 [⟨1, some [], false, 1, 7, 1⟩]
    let t := readyTables.setVers 3 5 [⟨1, some [], false, 1, 8, 1⟩]
    (s.vers 3 5).getLast? = some ⟨1, some [], false, 1, 7, 1⟩ ∧ s.shadowOf 3 5 = some 0 ∧
    (t.vers 3 5).getLast? = some ⟨1, some [], false, 1, 8, 1⟩ ∧
    ((ready.setVers 2 0 [⟨1, some [], false, 1, 0, 1⟩]).vers 2 0).getLast? = some ⟨1, some [], false, 1, 0, 1⟩ ∧ ready.shadowOf 2 0 = none ∧
    tget 0 s.hst.shadowOwner 3 ≠ 0 ∧ tget 0 ready.hst.shadowOwner 2 = 0 ∧ s.shadowOf 3 (2 ^ 23) = none := by
  decide
theorem test_scrub_premises : let s := ready.setReg .CLS_SCRUB_TICKS 0 10
    s.reg .CLS_SCRUB_TICKS ≠ 0 ∧ s.cls.scrubNext ≤ s.clk.tickCount := by decide
/-- Requesters 2 and 7 have lines waiting. -/
theorem test_contest_premises : let s := (ready.ask 7 64 1).ask 2 65 3
    (List.range 8).filter (fun n => !(s.burstLines 1 (s.nextBanks n)).isEmpty) = [2, 7] ∧ (s.arbWinner [2, 7]).isSome = true ∧
    ready.arbWinner ((List.range 8).filter fun n => !(ready.burstLines 1 (ready.nextBanks n)).isEmpty) = none := by
  decide

theorem test_seif_premises : (ready.setReg .SEIF_PORT_STATUS_RX_STATE 255 1).seifState 255 0 = 1 ∧
    (ready.setReg .SEIF_PORT_STATUS_TX_STATE 0 4).seifState 0 1 = 4 := by decide
theorem test_itm_premises : ready.reg .SEIF_ITM_STATUS_CAL_BUSY = 0 ∧ ready.reg .SEIF_ITM_STATUS_BUSY = 0 ∧
    (ready.setReg .SEIF_ITM_STATUS_CAL_BUSY 0 1).reg .SEIF_ITM_STATUS_CAL_BUSY = 1 ∧
    (ready.setReg .SEIF_ITM_STATUS_BUSY 0 1).reg .SEIF_ITM_STATUS_BUSY = 1 := by decide
/-- A window of one sample when SEIF_CFG.AVG is 0, and none; 4 beats missed; a window a step beyond 200 ppm. -/
theorem test_seif_window_premises : let s := ready.setRegs [(.SEIF_PORT_STATUS_RX_STATE, 255, 3), (.SEIF_CFG_AVG, 0, 0)]
    let t := s.setSeifDir 255 0 { SeifDir.off0 with samples := [7], missed := 4 }
    t.seifState 255 0 = 3 ∧ t.windowBeats ≤ (t.seifDir 255 0).samples.length ∧ (s.seifDir 255 0).samples.length < s.windowBeats ∧
    4 ≤ (t.seifDir 255 0).missed ∧ (s.seifDir 255 0).missed < 4 ∧
    (let u : State := { t with seif := { t.seif with due := [(510, 0, ⟨0, 51200001, 0, 0⟩)] } }
     ∃ x ∈ u.seif.due, x.1 = 2 * 255 + 0 ∧ 200000 * 256 < x.2.2.freq.natAbs) := by decide
/-- Two CORE cycles are 1.25 ns: an edge captured at 0 is older than WIN and TIMEOUT of 1 ns there, and not a cycle before; another
source than the start's and the stop's. -/
theorem test_expiry_premises : let s := ready.setRegs [(.SEIF_ITM_STATUS_BUSY, 0, 1), (.SEIF_ITM_WIN_NS, 0, 1), (.SEIF_ITM_TIMEOUT_NS, 0, 1)]
    let t := s.setItm { Itm.idle with stop := some (0, 0, 0), start := some (0, 0, 0) }
    let u (n : Nat) : State := { t with clk := { t.clk with cycle := n } }
    t.seif.itm.stop ≠ none ∧ t.seif.itm.start ≠ none ∧
    (u 2).seif.itm.stopAt + (u 2).reg .SEIF_ITM_WIN_NS * (256 * 10 ^ 12) < (u 2).xoNow ∧
    (u 1).xoNow ≤ (u 1).seif.itm.stopAt + (u 1).reg .SEIF_ITM_WIN_NS * (256 * 10 ^ 12) ∧
    (u 1).xoNow ≤ (u 1).seif.itm.startAt + (u 1).reg .SEIF_ITM_TIMEOUT_NS * (256 * 10 ^ 12) ∧
    (u 2).seif.itm.startAt + (u 2).reg .SEIF_ITM_TIMEOUT_NS * (256 * 10 ^ 12) < (u 2).xoNow ∧
    39 ≠ s.itmStartSrc ∧ 39 ≠ s.itmStopSrc := by decide
/-- A held stop exactly WIN old, a pending start exactly TIMEOUT old, and neither. -/
theorem test_edge_pair_premises : let s := ready.setRegs [(.SEIF_ITM_STATUS_BUSY, 0, 1), (.SEIF_ITM_WIN_NS, 0, 1), (.SEIF_ITM_TIMEOUT_NS, 0, 2)]
    let e : Nat × Nat × Int := (0, 0, 0)
    let a := s.setItm { Itm.idle with stop := some e }
    let b := s.setItm { Itm.idle with start := some e }
    a.reg .SEIF_ITM_STATUS_BUSY = 1 ∧ a.seif.itm.stop = some e ∧ nsPs8 1 - e.2.2 ≤ nsPs8 (a.reg .SEIF_ITM_WIN_NS) ∧
    b.reg .SEIF_ITM_STATUS_BUSY = 1 ∧ b.seif.itm.start = some e ∧ nsPs8 2 - e.2.2 ≤ nsPs8 (b.reg .SEIF_ITM_TIMEOUT_NS) ∧
    (s.setItm Itm.idle).seif.itm.stop = none ∧ (s.setItm Itm.idle).seif.itm.start = none := by decide
theorem test_cal_done_premises : let s := ready.setReg .SEIF_ITM_STATUS_CAL_BUSY 0 1
    s.reg .SEIF_ITM_STATUS_CAL_BUSY = 1 ∧ (s.setItm Itm.idle).seif.itm.calDue = none ∧ (s.setItm Itm.idle).seif.itm.goDue = false ∧
    ((0, 0, 0) : Nat × Nat × Int).1 ≠ ((1, 0, 0) : Nat × Nat × Int).1 ∧
    (s.setItm Itm.idle).seif.itm.n + 1 < (s.setReg .SEIF_ITM_N_N 0 2).reg .SEIF_ITM_N_N := by decide

theorem test_bell_premises : ringPath 22 = true ∧ 2 ^ 31 % 2 ^ 32 ≠ 0 ∧ bellIds.getD 6 0 = 21 ∧ bellIds.getD 0 0 ≠ 21 := by decide
/-- Bindings unlocked and locked; the last channel. -/
theorem test_bind_premises : ready.reg .MBX_CTRL_LOCKED = 0 ∧ ready.reg .MBX_CH_STATUS_FULL 31 = 0 ∧
    (chanPath 0 = true ∧ chanPath 20 = true ∧ 0 ≠ 20) ∧ (ready.setReg .MBX_CTRL_LOCKED 0 1).reg .MBX_CTRL_LOCKED = 1 := by decide
/-- A free lock that JTAG and C1 read together, and a held one. -/
theorem test_lock_premises : ready.reg .MBX_LOCK_HELD 63 = 0 ∧ lockPorts.filter (fun x => [22, 17].contains x) = 17 :: [22] ∧
    (ready.setReg .MBX_LOCK_HELD 63 1).reg .MBX_LOCK_HELD 63 = 1 ∧ ready.reg .MBX_LOCK_HELD 63 ≠ 1 := by decide
theorem test_lock_hold_premises : let s := ready.setRegs [(.MBX_LOCK_HELD, 63, 1), (.MBX_LOCK_HOLD_TICKS, 0, 1)]
    s.reg .MBX_LOCK_HELD 63 = 1 ∧ s.reg .MBX_LOCK_HOLD_TICKS ≠ 0 ∧ tget 0 s.mbx.lockTold 63 ≠ 1 ∧
    s.reg .MBX_LOCK_HOLD_TICKS ≤ s.clk.tickCount + 1 - tget 0 s.mbx.lockAt 63 := by decide
/-- Channel 31 from C0 to PF, empty; then full. -/
theorem test_channel_premises : let s := ready.setRegs [(.MBX_CH_BIND_VALID, 31, 1), (.MBX_CH_BIND_SENDER, 31, 16), (.MBX_CH_BIND_RECEIVER, 31, 0)]
    let t := s.setReg .MBX_CH_STATUS_FULL 31 1
    s.reg .MBX_CH_BIND_VALID 31 = 1 ∧ s.reg .MBX_CH_BIND_SENDER 31 = 16 ∧ s.reg .MBX_CH_STATUS_FULL 31 = 0 ∧
    s.reg .MBX_CH_BIND_RECEIVER 31 = 0 ∧ s.reg .MBX_CH_STATUS_FULL 31 ≠ 1 ∧ t.reg .MBX_CH_BIND_VALID 31 = 1 ∧
    t.reg .MBX_CH_BIND_RECEIVER 31 = 0 ∧ t.reg .MBX_CH_STATUS_FULL 31 = 1 ∧ t.reg .MBX_CH_BIND_SENDER 31 ≠ 20 ∧
    ready.reg .MBX_CH_BIND_VALID 31 ≠ 1 := by decide
/-- Channel 0 to the partner, full: not sent yet, to be sent again, and waiting for the path. -/
theorem test_remote_premises : let s := ready.setRegs [(.MBX_CH_BIND_VALID, 0, 1), (.MBX_CH_BIND_RECEIVER, 0, 20), (.MBX_CH_STATUS_FULL, 0, 1), (.PAIR_PATHS_MY0, 0, 1)]
    s.reg .MBX_CH_BIND_VALID 0 = 1 ∧ s.reg .MBX_CH_BIND_SENDER 0 = 0 ∧ s.reg .MBX_CH_BIND_RECEIVER 0 = 20 ∧
    s.reg .MBX_CH_STATUS_FULL 0 = 1 ∧ s.mywynUp = true ∧
    (∀ k ∈ [1, 2, 3], tget 0 ({ s with mbx := { s.mbx with sending := [(0, k)] } } : State).mbx.sending 0 = k) ∧
    (s.setReg .MBX_CH_STATUS_REMOTE_WAIT 0 1).reg .MBX_CH_STATUS_REMOTE_WAIT 0 = 1 ∧ s.reg .MBX_CH_STATUS_REMOTE_WAIT 0 ≠ 1 := by decide
theorem test_remote_data_premises : let s := ready.setRegs [(.MBX_CH_BIND_VALID, 7, 1), (.MBX_CH_BIND_SENDER, 7, 20)]
    s.reg .MBX_CH_BIND_VALID 7 = 1 ∧ s.reg .MBX_CH_BIND_SENDER 7 = 20 ∧ tget 0 s.mbx.inTog 7 ≠ 1 + 1 ∧ s.reg .MBX_CH_STATUS_FULL 7 = 0 ∧
    s.reg .MBX_CH_BIND_RECEIVER 7 ≠ 20 ∧ s.reg .MBX_CH_CTRL_DB_EN 7 = 0 := by decide
theorem test_xwait_premises : let t := ready.setRegs [(.MBX_CH_BIND_VALID, 3, 1), (.MBX_CH_BIND_SENDER, 3, 16), (.MBX_CH_BIND_VALID, 4, 1), (.MBX_CH_BIND_RECEIVER, 4, 16), (.MBX_XWAIT_TICKS, 0, 1)]
    let s : State := { t with mbx := { t.mbx with both := [(3 * 32 + 4, 2)] } }
    s.mbxPair 3 4 = true ∧ max 1 (s.reg .MBX_XWAIT_TICKS) < s.bothOf 3 4 ∧ s.reg .MBX_CH_STATUS_XWAIT 3 = 0 := by decide

theorem test_job_premises : let j : Job := ⟨5, 15, .selfTest, 0, false, 0, false⟩
    let s : State := { ready.setReg .CHK_CFG_WAIT_WARN 0 10 with
      chk := { ready.chk with running := [(15, some j)], queue := [(15, [j])] }, clk := { ready.clk with tickCount := 10, acc := ready.clk.acc } }
    s.jobOf 15 = some j ∧ s.canStart j = true ∧ j.begun + (s.jobLength j + 127) / 128 + 4 ≤ s.coreCycle ∧ ready.coreCycle < 5 + j.begun + ready.coreCycle ∧ j.use = .selfTest ∧ ready.jobOf 15 = none ∧ s.reg .CHK_CFG_WAIT_WARN ≠ 0 ∧
    (s.jobsOf 15).find? (fun j => !j.warned && decide (s.reg .CHK_CFG_WAIT_WARN ≤ s.clk.tickCount - j.since)) = some j := by decide
/-- A selection of unit 18 that exists, one that does not, and unit 11, which has no counters. -/
theorem test_selection_premises : unitExists 18 = true ∧ selectionOk 18 0x01000000 = true ∧ selectionOk 18 0x1F000000 = false ∧
    bit 128 7 = true ∧ unitExists 11 = false := by decide
/-- A dump that is due, alone and while one is being written. -/
theorem test_dump_premises : let s : State := { ready.setRegs [(.OBS_DUMP_CFG_EN, 0, 1), (.OBS_DUMP_CFG_PORTS, 0, 0)] with clk := { ready.clk with cycle := 0 } }
    let d : DumpRec := ⟨0, 0, [], []⟩
    s.clk.cycle = 0 ∧ s.reg .OBS_DUMP_CFG_EN = 1 ∧ s.obs.dumpDone ≠ s.clk.tickCount + 1 ∧ s.clk.tickCount % max 1 (s.reg .OBS_DUMP_CFG_PERIOD) = 0 ∧
    s.obs.dump = none ∧ s.obs.flows = none ∧ s.reg .OBS_DUMP_CFG_FLOWS = 0 ∧ s.reg .OBS_DUMP_CFG_PORTS = 0 ∧
    ({ s with obs := { s.obs with dump := some d } } : State).obs.dump = some d ∧
    ({ s with obs := { s.obs with flows := some (0, [(5, [])]) } } : State).obs.flows = some (0, [(5, [])]) := by decide
theorem test_sampler_premises : ready.reg .OBS_SAMP_CFG_EN 1 ≠ 1 ∧ (ready.setReg .OBS_SAMP_CFG_EN 1 1).reg .OBS_SAMP_CFG_EN 1 = 1 := by decide
theorem test_cairn_premises : ready.reg .OBS_CAIRN_CTRL_EN ≠ 1 ∧ (ready.setReg .OBS_CAIRN_CTRL_EN 0 1).reg .OBS_CAIRN_CTRL_EN = 1 ∧
    ({ ready with cairn := { ready.cairn with prog := [5], erasing := false } } : State).cairn.prog = 5 :: [] ∧
    ({ ready with cairn := { ready.cairn with erasing := true } } : State).cairn.erasing = true := by decide

theorem test_time_premises : ready.sys.held = false ∧ ready.captureMade = false ∧
    ({ ready with sys := { ready.sys with capAt := 1 } } : State).captureMade = true ∧ (doPowerOn ready).sys.held = true := by decide
/-- A step accepted in the tick before, at CORE cycle 16. -/
theorem test_step_premises : let r : StepReq := ⟨1, false, -5, 0, 0⟩
    let s : State := { ready with tme := { ready.tme with step := [r] }, clk := { ready.clk with tickCount := 1, cycle := 16 } }
    s.sys.held = false ∧ s.stepsDue = [r] ∧ s.clk.cycle ≤ 16 := by decide
theorem test_switch_premises : let s : State := { ready with sys := { ready.sys with switchDue := true }, clk := { ready.clk with cycle := 0 } }
    let t : State := { s with sys := { s.sys with drain := [(1, 1)] } }
    s.clk.cycle = 0 ∧ s.sys.switchDue = true ∧ s.drainOf s.pendSeq = 0 ∧ ready.sys.switchDue = false ∧ t.drainOf t.pendSeq ≠ 0 ∧
    3 ≠ s.sys.genSeq % 4 ∧ s.drainOf 3 = 0 ∧ 0 = s.sys.genSeq % 4 := by decide
/-- A comparator that arms (drained and not), and one whose retirement is due at the first moment. -/
theorem test_comparator_premises : let t : Timed := ⟨1, 7, 0, false, [], 0⟩
    let s : State := { ready with sys := { ready.sys with timed := some t }, clk := { ready.clk with cycle := 0, acc := 1000 * 2 ^ 40 } }
    let u : State := { s with sys := { s.sys with timed := some { t with armed := true } } }
    let v : State := { s with sys := { s.sys with drain := [(1, 1)] } }
    s.sys.timed = some t ∧ t.armed = false ∧ s.clk.cycle = 0 ∧ instantTick t.instant ≤ s.clk.tick + 1 ∧ s.drainOf s.pendSeq = 0 ∧
    v.sys.timed = some t ∧ instantTick t.instant ≤ v.clk.tick + 1 ∧ v.drainOf v.pendSeq ≠ 0 ∧
    u.sys.timed = some { t with armed := true } ∧ t.instant + 1000 * 65536 ≤ u.grains ∧ t.notBefore ≤ u.clk.tickCount ∧
    u.oldUnstamped t.instant = false := by decide
theorem test_long_op_premises : let z : State := { readyOp with clk := { readyOp.clk with cycle := 0 } }
    let s := z.setOp 3 { z.op 3 with ended := some stOK }
    let t := (z.setReg .HST_LONG_SUSP_LIMIT_TICKS 0 10).setOp 3 { z.op 3 with state := 3, suspTicks := 10 }
    (s.op 3).live = true ∧ s.clk.cycle = 0 ∧ (s.op 3).ended = some stOK ∧ (z.op 3).live = true ∧ (z.op 3).ended = none ∧
    (z.op 3).cancelled = false ∧ (z.op 3).state = 2 ∧ (z.op 3).opcode = 0x80 ∧ t.clk.cycle = 0 ∧ (t.op 3).state = 3 ∧
    t.reg .HST_LONG_SUSP_LIMIT_TICKS ≠ 0 ∧ t.reg .HST_LONG_SUSP_LIMIT_TICKS ≤ (t.op 3).suspTicks ∧ (t.op 3).ended = none ∧
    (t.op 3).cancelled = false := by decide
theorem test_placement_premises : let s := ready.setPlacement 5 { Placement.default with state := 1 }
    let m := ready.setPlacement 5 { Placement.default with state := 4 }
    let t (x : State) : State := { x with clk := { x.clk with tickCount := 7 } }
    (ready.setReg .CLS_PLACE_EN 0 1).reg .CLS_PLACE_EN = 1 ∧ ready.cls.intervalNext ≤ ready.clk.tickCount ∧ ready.cls.place = [] ∧
    (ready.setReg .CLS_PLACE_EN 0 0).reg .CLS_PLACE_EN ≠ 1 ∧
    (s.placement 5).state = 1 ∧ (s.placement 5).ready = false ∧ ((t s).placement 5).since + 8 ≤ (t s).clk.tickCount + 1 ∧
    ((t s).placement 5).state = 1 ∧ ((t m).placement 5).since + 8 ≤ (t m).clk.tickCount + 1 ∧ ((t m).placement 5).state = 4 ∧
    ((ready.setPlacement 5 { Placement.default with reread := true }).placement 5).reread = true ∧ (ready.placement 5).reread = false := by
  decide

theorem test_head_premises : (ready.setReg .PRT_MODE_UP 257 1).reg .PRT_MODE_UP 257 = 1 ∧ ready.reg .PRT_MODE_UP 257 ≠ 1 := by decide
/-- Frame 1 on its way in, at each stage a command meets it. -/
theorem test_frame_premises : let f (k : Nat) : State := ready.setFrame 1 { Frame.none_ with stage := k }
    (∀ k ∈ [0, 3, 5], ((f k).frame 1).ended = false ∧ ((f k).frame 1).stage = k ∧ ((f k).frame 1).mpWaits = false) := by decide
theorem test_frame_end_premises : let b := List.replicate 60 0 ++ [0x08, 0x89, 0x12, 0x04]
    let s := (ready.setReg .PRT_MAXLEN_MAXLEN 0 9213).setFrame 1 { Frame.none_ with stage := 0 }
    (s.frame 1).ended = false ∧ (s.swc.frames.any fun y => y.1 == 1) = true ∧ (s.frame 1).stage ≠ 5 ∧ (s.frame 1).counted = none ∧
    (s.frame 1).unit = 0 ∧ (ready.swc.frames.any fun y => y.1 == 1) = false ∧
    s.endCause (s.frame 1).port ((s.frame 1).head ++ b) false = 0 := by decide +kernel
theorem test_flow_read_premises : ({ ready with cls := { ready.cls with reads := [5] } } : State).cls.reads.contains 5 = true ∧
    ready.cls.reads.contains 5 = false := by decide
/-- A frame that wants a cell, one that waits for a slot, and one that waits for nothing. -/
theorem test_retry_premises : let f (w : Nat) (b : Bool) : Frame := (ready.setFrame 1 { Frame.none_ with want := w, slot := b }).frame 1
    (f 1 false).want ≠ 0 ∧ (f 0 true).slot = true ∧ (f 0 false).want = 0 ∧ (f 0 false).slot = false := by decide

theorem test_copy_start_premises : ready.reg .PRT_MODE_UP 3 ≠ 1 ∧
    (let s := ready.setReg .PRT_MODE_UP 3 1
     let c : Copy := ⟨1, 3, none, 15, 0, 0, 0, 0, false⟩
     let u (m : Nat) : State := { s with egr := { s.egr with slip := [(2 * 3 + m, [c])] } }
     s.reg .PRT_MODE_UP 3 = 1 ∧
     (∀ m ∈ [0, 1], let v := (List.range 16).foldl (fun (u : State) q => (u.dropOversize 3 q (u.queue 3 q).length).markGated 3 q) (u m)
       (u m).reg .PRT_MODE_UP 3 = 1 ∧ v.onWire 3 0 = [] ∧ (v.nextCopy 3 0).2 = (if m = 0 then some c else none) ∧
       (v.nextCopy 3 0).1.onWire 3 1 = [] ∧
       (((v.nextCopy 3 0).1.cutFrame 3 true).onWire 3 1).all (fun l => l.paused) = true ∧ (m = 1 → ((v.nextCopy 3 0).1.nextCopy 3 1).2 = some c))) := by decide
theorem test_end_premises : let l : Leaving := ⟨⟨1, 3, none, 15, 0, 0, 0, 0, false⟩, 0, false, [], 0, 0⟩
    ((ready.setReg .PRT_MODE_UP 3 1).setWire 3 1 [l]).onWire 3 1 = l :: [] ∧
    ((ready.setReg .PRT_MODE_UP 3 1).setWire 3 1 [l]).reg .PRT_MODE_UP 3 = 1 ∧ ready.onWire 3 1 = [] := by decide
/-- Priority 0 of port 3 paused since tick 0, its vent due at once. -/
theorem test_vent_premises : let t := ready.setRegs [(.PRT_PFC_XOFF_RX, 3, 1), (.PRT_VENT_EN, 3, 1), (.PRT_PFC_MAP_BEST, 3, 0), (.PRT_VENT_TICKS, 3, 0)]
    let s : State := { t with prt := { t.prt with pausedSince := [(pkey 3 0, 1)] } }
    s.paused 3 0 = true ∧ tget 0 s.prt.pausedSince (pkey 3 0) ≠ 0 ∧
    tget 0 s.prt.pausedSince (pkey 3 0) + s.reg .PRT_VENT_TICKS 3 ≤ s.clk.tickCount + 1 ∧
    (s.ventClasses 3 0).filter (fun c => (s.ventOf 3 c).isNone) ≠ [] ∧ ready.paused 3 0 = false := by decide
/-- Pacing entry 9 for port 3, and its pacer with one frame held. -/
theorem test_pacer_premises : let e : Line := [0x80, 1, 3, 0] ++ List.replicate 60 0
    let c : Copy := ⟨1, 3, none, 0, 0, 10, 0, 0, false⟩
    let flow : Line := [0x80, 0, 0, 0, 0, 0, 9, 0] ++ List.replicate 56 0
    let s := ((ready.update tPace 9 (some e) false).setFrame 1 { Frame.none_ with verdict := ⟨0, 0, none, some flow⟩, gen := 1 }).setPacer 9 { Pacer.idle with held := [c] }
    (s.pacer 9).held = c :: [] ∧ s.paceOf c = .by 9 e ∧ (s.paceDue 9 c e).1 ≤ s.grains ∧
    s.stopped c.port (s.classPrio (s.frame c.frame).cls) = false ∧ (s.pacer 9).last ≠ s.coreCycle + 1 ∧ (ready.pacer 9).held = [] := by decide
theorem test_gate_premises : let h : Line := [0x80, 0, 0xFF, 0, 0xE8, 3, 0, 0, 0x80, 0, 1, 0, 0xE8, 3, 0, 0, 1] ++ List.replicate 47 0
    let s := ready.setGate 257 { Gate.open_ with list := [h] }
    let t := ready.setGate 257 { Gate.open_ with swap := some [h] }
    (ready.gate 257).active = none ∧ (ready.gate 257).fallEnds = false ∧ (s.gate 257).active = some [h] ∧ (s.gate 257).fallEnds = false ∧
    (gateAt [h] s.taiNs).1 = (s.gate 257).cycle ∧ (t.gate 257).swap = some [h] ∧ (ready.gate 257).swap = none ∧
    (if gateEn ([h].headD []) ∧ gateValid ([h].headD []) then gateCycle ([h].headD []) (gateNextCycle ([h].headD []) (t.gate 257).swapFrom)
      else (t.gate 257).swapFrom) ≤ (t.taiNs : Int) := by decide
theorem test_tload_premises : ready.reg .EGR_TLOAD_STATUS_PENDING ≠ 1 ∧
    (ready.setReg .EGR_TLOAD_STATUS_PENDING 0 1).reg .EGR_TLOAD_STATUS_PENDING = 1 := by decide

theorem test_pause_premises : let s := ready.setRegs [(.PRT_MODE_PFC, 255, 1), (.PRT_MODE_PFC_MASK, 255, 128), (.PRT_PFC_XOFF_RX, 255, 128)]
    let t : State := { s with prt := { s.prt with pauseEnd := [(pkey 255 7, 0)] } }
    let u : State := { s with prt := { s.prt with pauseEnd := [(pkey 255 7, 1)] }, clk := { s.clk with acc := 0 } }
    ¬(255 < 256 ∧ ready.reg .PRT_MODE_PFC 255 = 1) ∧ s.reg .PRT_MODE_PFC 255 = 1 ∧
    bit (s.reg .PRT_MODE_PFC_MASK 255) 7 = true ∧ bit (s.reg .PRT_PFC_XOFF_RX 255) 7 = true ∧ t.paused 255 7 = true ∧
    tget 0 t.prt.pauseEnd (pkey 255 7) ≤ t.grains ∧ ready.paused 255 7 = false ∧ u.grains < tget 0 u.prt.pauseEnd (pkey 255 7) := by decide
/-- XOFF sent for priority 7 of port 255 a tick ago, its refresh and the limit of the hold due. -/
theorem test_hold_premises : let t := ready.setRegs [(.PRT_PFC_XOFF_TX, 255, 128), (.PRT_HOLD_LIMIT, 255, 1), (.SWC_HOLD_HELD, 255, 129)]
    let s : State := { t with swc := { t.swc with holdSince := [(pkey 255 7, 1)] }, prt := { t.prt with pausedSince := [(pkey 255 7, 1)], refresh := [(pkey 255 7, 1)] }, clk := { t.clk with tickCount := 1, acc := 2 ^ 41 } }
    bit (s.reg .PRT_PFC_XOFF_TX 255) 7 = true ∧ tget 0 s.prt.refresh (pkey 255 7) ≠ 0 ∧ tget 0 s.prt.refresh (pkey 255 7) ≤ s.grains ∧ s.reg .PRT_HOLD_LIMIT 255 ≠ 0 ∧
    (∀ b ∈ [true, false], (if b then tget 0 s.swc.holdSince (pkey 255 7) else tget 0 s.prt.pausedSince (pkey 255 7)) ≠ 0 ∧
      s.reg .PRT_HOLD_LIMIT 255 ≤ s.clk.tickCount + 1 - (if b then tget 0 s.swc.holdSince (pkey 255 7) else tget 0 s.prt.pausedSince (pkey 255 7)) ∧
      bit (tget 0 s.prt.holdTold (pkey 255 7)) (b2n !b) = false) ∧
    s.held 255 7 = true ∧ s.swc.frames = [] ∧ s.swc.caravanWait = [] ∧
    (∀ q, q < 4 → tget 0 s.oas.hdrm (255 * 4 + q) = 0 ∧ s.inUse q + s.reg .SWC_ADMIT_XON_GAP ≤ s.reg .OAS_POOL_LIMIT_LIMIT q) ∧
    s.reg .SWC_HOLD_HELD 255 - 2 ^ 7 ≠ 0 ∧ s.reg .SWC_HOLD_HELD 255 < 256 ∧ ready.held 255 7 = false := by decide
/-- Verification at its first and after its third try. -/
theorem test_verify_premises : let s := ready.setRegs [(.PRT_PREEMPT_STATE, 9, 1), (.PRT_MODE_PREEMPT, 9, 1), (.PRT_MODE_UP, 9, 1)]
    s.reg .PRT_PREEMPT_STATE 9 = 1 ∧ tget 0 s.prt.verifyTries 9 < 3 ∧
    tget 0 s.prt.verifyTries 9 = 0 ∧
    (let u : State := { s with prt := { s.prt with verifyTries := [(9, 3)] }, clk := { s.clk with tickCount := 10 ^ 6 } }
     3 ≤ tget 0 u.prt.verifyTries 9 ∧ tget 0 u.prt.verifyAt 9 + 1000 * u.reg .PRT_PREEMPT_VERIFY_MS 9 ≤ u.clk.tickCount) ∧
    s.reg .PRT_MODE_PREEMPT 9 = 1 ∧ s.reg .PRT_MODE_UP 9 = 1 := by decide
theorem test_port_up_premises : let t := ready.setRegs [(.PRT_MODE_ADMIN_UP, 9, 1), (.PRT_MODE_WIDTH, 9, 1), (.LN_STATUS_STATE, 9, 6), (.LN_STATUS_RUNG, 9, (ready.setReg .PRT_MODE_WIDTH 9 1).portRung 9)]
    let s : State := { t with seif := { t.seif with dirs := [(18, { SeifDir.off0 with beat := true }), (19, { SeifDir.off0 with beat := true })] } }
    s.reg .PRT_MODE_ADMIN_UP 9 = 1 ∧ s.reg .PRT_MODE_UP 9 = 0 ∧
    (∀ i ∈ portLanes 9 (s.reg .PRT_MODE_WIDTH 9), s.reg .LN_STATUS_STATE i = 6 ∧ s.reg .LN_STATUS_RUNG i = s.portRung 9) ∧
    s.seifBeaten 9 0 = true ∧ s.seifBeaten 9 1 = true := by decide

theorem test_sync_premises : let t := ready.setRegs [(.TME_PORT_CFG_STATE, 9, 2), (.TME_INST_CFG_EN, 0, 1)]
    let s : State := { t with clk := { t.clk with acc := 10 ^ 9 * 2 ^ 40 } }
    s.clockPort 9 2 = true ∧ s.syncInstant 9 s.grains ≤ s.grains ∧ tget 0 s.tme.lastSync 9 < s.syncInstant 9 s.grains + 1 ∧
    ready.clockPort 9 2 = false := by decide
theorem test_request_premises : let s := ready.setRegs [(.TME_PORT_CFG_STATE, 9, 3), (.TME_INST_CFG_EN, 0, 1), (.TME_INST_CFG_DELAY, 0, 1)]
    s.clockPort 9 3 = true ∧ tget 0 s.tme.nextDreq 9 ≤ s.grains ∧ s.portState 9 ≠ 0 ∧ s.reg .TME_INST_CFG_EN (s.portInst 9) = 1 ∧
    s.reg .TME_INST_CFG_DELAY (s.portInst 9) = 1 ∧ tget 0 s.tme.nextPdelay 9 ≤ s.grains := by decide
theorem test_response_premises : let d : PtpDue := ⟨9, [], 0, 0, 0⟩
    let s : State := { ready with tme := { ready.tme with followUps := [d], delayResps := [d], pdelayResps := [d] } }
    (s.tme.followUps.find? fun d => d.port == 9) = some d ∧ (s.tme.delayResps.find? fun d => d.port == 9) = some d ∧
    (s.tme.pdelayResps.find? fun d => d.port == 9) = some d ∧ (s.tme.followUps.find? fun d => d.port == 8) = none ∧
    (s.tme.delayResps.find? fun d => d.port == 8) = none ∧ (s.tme.pdelayResps.find? fun d => d.port == 8) = none := by decide

/-- The header of a board table, up to its TABLE_CRC. -/
def boardHead : List Nat :=
  [84, 76, 66, 89, 1, 0, 4, 1, 6, 0, 16, 0, 64, 0, 0, 0, 0, 98, 0, 0, 0, 16, 0, 0, 0, 114, 0, 0] ++ List.replicate 32 0
theorem boardOk_of_length (z : List Nat) (h : z.length = 0x71C0) :
    boardOk (boardHead ++ (le 4 (crc32 (boardHead ++ ([0, 0, 0, 0] ++ z))) ++ z)) = true := by
  have hc : crc32 (boardHead ++ ([0, 0, 0, 0] ++ z)) < 2 ^ 32 := by unfold crc32 checkValue; simp only [if_true]; omega
  generalize hg : crc32 (boardHead ++ ([0, 0, 0, 0] ++ z)) = c at *
  have e1 : ∀ x : List Nat, x.length = 4 → (boardHead ++ (x ++ z)).take 60 = boardHead := by
    intro x _; exact List.take_left' (by decide)
  have e2 : ∀ x : List Nat, x.length = 4 → (boardHead ++ (x ++ z)).drop 64 = z := by
    intro x hx; rw [← List.append_assoc]; exact List.drop_left' (by rw [List.length_append, hx]; decide)
  have hl : (le 4 c).length = 4 := rfl
  have e3 : ofLE (slice (boardHead ++ (le 4 c ++ z)) 60 4) = c := by
    unfold slice
    rw [show (boardHead ++ (le 4 c ++ z)).drop 60 = le 4 c ++ z from List.drop_left' (by decide)]
    simp [padTo, le, ofLE]
    omega
  have e4 : (boardHead ++ (le 4 c ++ z)).length = 0x7200 := by
    rw [List.length_append, List.length_append, hl, h]; decide
  unfold boardOk; dsimp only
  rw [e1 _ hl, e2 _ hl, e3, e4, List.append_assoc, hg]
  simp [boardHead, slice, padTo, le, ofLE]
/-- A whole board table, zero behind its header; and an empty one. -/
theorem test_board_premises :
    (boardOk (boardHead ++ (le 4 (crc32 (boardHead ++ ([0, 0, 0, 0] ++ List.replicate 0x71C0 0))) ++ List.replicate 0x71C0 0)) = true) ∧
    boardOk [] = false := ⟨boardOk_of_length _ List.length_replicate, by decide⟩
theorem test_lane_states : (∀ k ∈ [2, 3, 4, 5, 6, 7, 8, 10], (ready.setReg .LN_STATUS_STATE 259 k).laneState 259 = k) ∧
    tget 0 ready.ln.power 259 ≠ 4 ∧ tget 0 ({ ready with ln := { ready.ln with power := [(259, 4)] } } : State).ln.power 259 = 4 ∧
    (ready.lane 259).method = 0 ∧ ((ready.setLane 259 { Lane.idle with method := 2 }).lane 259).method = 2 ∧ (ready.lane 259).doneSent < 3 ∧
    (ready.setReg .LN_STATUS_SIGNAL 259 1).reg .LN_STATUS_SIGNAL 259 = 1 ∧ ready.reg .LN_STATUS_SIGNAL 259 = 0 ∧
    ready.laneHeld 259 = false ∧ isMywyn 259 = true ∧ isMywyn 9 = false := by decide
theorem test_ladder_crc : ladderCrc [0x5A, 4, 0x97, 0] = 65 := by
  have h0 : crcByte 8 7 0 90 = 129 := by decide
  have h1 : crcByte 8 7 129 4 = 146 := by decide
  have h2 : crcByte 8 7 146 151 = 27 := by decide
  have h3 : crcByte 8 7 27 0 = 65 := by decide
  simp only [ladderCrc, crcBytes, List.foldl_cons, List.foldl_nil, Bool.false_eq_true, if_false, h0, h1, h2, h3]
theorem test_ladder_premises : let s := (ready.setReg .LN_STATUS_STATE 9 3).setLane 9 { Lane.idle with top := 5, target := 2 }
    let b : LadderBlock := ⟨2, 0x4B, 0x5A, 1 * 4, 4 * 32 + 16 + 7, 0xF, 65, false⟩
    s.takesBlock 9 b = true ∧ s.takesBlock 9 { b with sync := 1 } = false ∧ s.laneHeld 9 = false ∧ s.laneState 9 = 3 ∧ (s.lane 9).method ≠ 1 ∧ (s.lane 9).method ≠ 2 ∧ blockMsg b = 0 ∧ s.reg .LN_STATUS_RUNG 9 ≤ blockRung b ∧
    (s.lane 9).target ≤ min (s.lane 9).top (blockTop b) ∧ (s.lane 9).doneSent < 3 ∧ s.laneGood 9 = false := by
  refine ⟨?_, by decide⟩
  unfold State.takesBlock; dsimp only
  rw [show (65 / 2 ^ 20 % 256 : Nat) = 0 from rfl, show (4 * 32 + 16 + 7 : Nat) = 0x97 from rfl, show (1 * 4 : Nat) = 4 from rfl, test_ladder_crc]
  decide
theorem test_rung_premises : let s := (ready.setReg .LN_STATUS_STATE 9 5).setLane 9 { Lane.idle with top := 5, table := List.replicate 6 [0, 0, 64, 0, 0, 0, 0, 0, 1] }
    s.laneState 9 = 5 ∧ s.laneHeld 9 = false ∧ s.nextRung 9 (s.reg .LN_STATUS_RUNG 9) (agreedTop (s.lane 9)) = some (s.reg .LN_STATUS_RUNG 9 + 1) := by decide
theorem test_dme_premises : let s := (ready.setReg .LN_STATUS_STATE 9 4).setLane 9 { Lane.idle with method := 1 }
    let t := s.setRegs [(.LN_STATUS_LOCK, 9, 1), (.LN_STATUS_MERIT, 9, 255)]
    (s.lane 9).method = 1 ∧ 2 ≤ s.laneState 9 ∧ s.laneState 9 ≤ 4 ∧ (t.lane 9).method = 1 ∧ t.laneState 9 = 4 ∧ t.laneGood 9 = true := by decide
theorem test_attempt_premises : let s := (ready.setReg .LN_STATUS_STATE 9 7).setLane 9 { Lane.idle with maxAttempts := 1 }
    s.laneState 9 = 7 ∧ s.laneHeld 9 = false ∧ s.reg .LN_STATUS_ATTEMPTS 9 < (s.lane 9).maxAttempts ∧
    (s.setLane 9 { Lane.idle with stopped := true }).laneHeld 9 = true ∧ ready.laneState 9 ≠ 7 ∧
    s.laneWaited 9 (backoffMs s (s.reg .LN_STATUS_ATTEMPTS 9)) = false ∧
    (let u : State := { s with clk := { s.clk with tickCount := 10 ^ 7 } }
     u.laneWaited 9 (backoffMs u (u.reg .LN_STATUS_ATTEMPTS 9)) = true ∧ u.laneWaited 9 (u.reg .LN_LADDER_RUNG_TIMEOUT) = true) ∧
    (ready.lane 9).maxAttempts ≤ ready.reg .LN_STATUS_ATTEMPTS 9 := by decide

theorem test_probe_premises : ready.reg .SPE_PROBE_EN ≠ 1 ∧ (ready.setReg .SPE_PROBE_EN 0 1).reg .SPE_PROBE_EN = 1 := by decide
/-- A sweep due exactly SPE_SWEEP ticks after the last, and one a tick early. -/
theorem test_spe_sweep_premises : let s (k : Nat) : State := { ready.setReg .SPE_SWEEP_TICKS 0 10 with clk := { ready.clk with tickCount := k } }
    (s 9).clk.tickCount < (s 9).spe.sweepAt + (s 9).reg .SPE_SWEEP_TICKS ∧
    (s 10).spe.sweepAt + (s 10).reg .SPE_SWEEP_TICKS ≤ (s 10).clk.tickCount := by decide
set_option maxRecDepth 4000 in
/-- An audit on unit 15 that matches, one that does not, one not ready, and a unit without one. -/
theorem test_audit_premises : let s (a : AuditRun) : State := { ready with spe := { ready.spe with audit := [(15, some a)] } }
    let next (a : AuditRun) := (({ s a with spe := { (s a).spe with audit := tdel 15 (s a).spe.audit } } : State).nextOnUnit 15).jobCounted 15 4 (a.bytes + 2)
    let v := (next ⟨5, 1, 0, 0, 2, true, true⟩).chkValue 15 [1, 2]
    tget none ready.spe.audit 15 = none ∧ tget none (s ⟨5, 1, v, 0, 2, true, true⟩).spe.audit 15 = some ⟨5, 1, v, 0, 2, true, true⟩ ∧
    (next ⟨5, 1, v, 0, 2, true, true⟩).chkValue 15 [1, 2] = v ∧ (next ⟨5, 1, v + 1, 0, 2, true, true⟩).chkValue 15 [1, 2] ≠ v + 1 ∧
    (⟨5, 1, v, 0, 2, false, true⟩ : AuditRun).ready = false := by decide
theorem test_candidate_premises : let t := (ready.setRegs [(.REF_C_STATUS_STATE, ckey 1 11, 2), (.REF_C_SOFT_PPB, ckey 1 11, 1), (.REF_C_QUAL_TICKS, ckey 1 11, 10)])
    let s (k : Nat) : State := { t with ref := { t.ref with meas := [(11, some 255), (10, some 256)] }, clk := { t.clk with tickCount := k, cycle := 0 } }
    (s 10).clk.cycle = 0 ∧ ready.clk.cycle ≠ 0 ∧ (s 10).offset 10 = some 256 ∧ 256 * (t.setReg .REF_C_SOFT_PPB (ckey 1 10) 1).reg .REF_C_SOFT_PPB (ckey 1 10) ≤ (256 : Int).natAbs ∧
    (s 10).cand 1 11 = 2 ∧ (s 10).offset 11 = some 255 ∧ (255 : Int).natAbs < 256 * (s 10).reg .REF_C_SOFT_PPB (ckey 1 11) ∧
    tget 0 (s 10).ref.qualAt (ckey 1 11) + (s 10).reg .REF_C_QUAL_TICKS (ckey 1 11) ≤ (s 10).clk.tickCount ∧
    (s 9).clk.tickCount < tget 0 (s 9).ref.qualAt (ckey 1 11) + (s 9).reg .REF_C_QUAL_TICKS (ckey 1 11) := by decide
theorem test_xo_premises : let s := ready.setRegs [(.REF_DPLL_STATUS_STATE, 0, 3), (.REF_DPLL_STATUS_SELECTED, 0, 11), (.TME_STATUS_TRACEABLE, 0, 1), (.REF_XO_TRUSTED, 0, 1), (.REF_XO_TRUST_S, 0, 1)]
    let t : State := { s with clk := { s.clk with tickCount := 10 ^ 6 - 1 } }
    s.clk.tickCount % 1000 = 0 ∧ s.ref.xoAt ≠ s.clk.tickCount + 1 ∧ s.dpllState 0 = 3 ∧ s.selected 0 < 12 ∧ s.traceable = true ∧ ready.dpllState 0 ≠ 3 ∧ t.trusted = true ∧
    t.reg .REF_XO_TRUST_S * 10 ^ 6 ≤ t.clk.tickCount + 1 - t.ref.xoAt ∧ ready.trusted = false := by decide
/-- DPLL1 on slot 11 in ACQUIRE, NARROW (a step above and at its candidate's bandwidth) and LOCKED. -/
theorem test_dpll_premises : let s (k b : Nat) := (ready.setRegs [(.REF_DPLL_STATUS_STATE, 1, k), (.REF_DPLL_STATUS_SELECTED, 1, 11)]).setDpll 1 { Dpll.start with bw := b }
    (∀ k ∈ [1, 2, 3], (s k 0).dpllState 1 = k) ∧ (s 2 0).selected 1 < 12 ∧
    (s 2 (4 * (ready.candBw 1 11 + 1))).candBw 1 11 < ((s 2 (4 * (ready.candBw 1 11 + 1))).dpll 1).bw / 2 ∧
    ((s 2 0).dpll 1).bw / 2 ≤ (s 2 0).candBw 1 11 := by decide
/-- Each wait of DPLL1 before and after its end, and a phase error on each side of 10 ns. -/
theorem test_dpll_waits : let t := (ready.setRegs [(.REF_DPLL_STATUS_STATE, 1, 1), (.REF_DPLL_STATUS_SELECTED, 1, 11), (.REF_DPLL_CFG_ACQ_LIMIT, 1, 2)]).setDpll 1 { Dpll.start with bw := 2 ^ 30 }
    let s (k : Nat) : State := { t with clk := { t.clk with tickCount := k } }
    let u (k : Nat) := (s k).phaseShown 1 1000
    (u 999999).clk.tickCount < ((u 999999).dpll 1).withinAt + 10 ^ 6 ∧ ((u 1000000).dpll 1).withinAt + 10 ^ 6 ≤ (u 1000000).clk.tickCount ∧
    (s 1999999).clk.tickCount < ((s 1999999).dpll 1).acqAt + (s 1999999).reg .REF_DPLL_CFG_ACQ_LIMIT 1 * 10 ^ 6 ∧
    ((s 2000000).dpll 1).acqAt + (s 2000000).reg .REF_DPLL_CFG_ACQ_LIMIT 1 * 10 ^ 6 ≤ (s 2000000).clk.tickCount ∧
    (s 999999).clk.tickCount < ((s 999999).dpll 1).stepAt + max (10 ^ 6) (10 ^ 9 * 2 ^ 20 / max 1 ((s 999999).dpll 1).bw) ∧
    ((s 1000000).dpll 1).stepAt + max (10 ^ 6) (10 ^ 9 * 2 ^ 20 / max 1 ((s 1000000).dpll 1).bw) ≤ (s 1000000).clk.tickCount ∧
    (10001 : Int).natAbs > 10000 ∧ (-10000 : Int).natAbs ≤ 10000 := by decide
/-- A gate and an XO second before and at their end. -/
theorem test_gate_second_premises : let s (x : Nat) : State := { ready with ref := { ready.ref with xo := x } }
    (s 0).xoNow < (s 0).ref.gateAt + (s 0).gateTime ∧ (s (10 ^ 26)).ref.gateAt + (s (10 ^ 26)).gateTime ≤ (s (10 ^ 26)).xoNow ∧
    (s 0).xoNow < ((s 0).ref.sec + 1) * (256 * 10 ^ 21) ∧ ((s (10 ^ 26)).ref.sec + 1) * (256 * 10 ^ 21) ≤ (s (10 ^ 26)).xoNow := by decide
/-- A signal of each kind of slot, there and gone. -/
theorem test_ref_signal_premises : let u := (ready.setReg .REF_PORTSLOT_PORT 7 9).setReg .LN_STATUS_STATE 9 6
    ready.slotUp 7 = false ∧ u.slotUp 7 = true ∧ (ready.setReg .REF_IN_CFG_PPS 3 1).inputLost 11 1500000000 = true ∧
    (ready.setReg .REF_IN_CFG_PPS 3 1).inputLost 11 1499999999 = false ∧ ready.refSignal 12 = false ∧
    (ready.setReg .TME_SERVO_CTRL_VALID 0 1).refSignal 12 = true := by decide
theorem test_esmc_premises : let t := ready.setReg .REF_SLOT_QL_ESMC_SEEN 7 1
    let s (k : Nat) : State := { t with clk := { t.clk with tickCount := k } }
    (s 4999999).reg .REF_SLOT_QL_ESMC_SEEN 7 = 1 ∧ tget 0 (s 4999999).ref.pduAt 7 + 5 * 10 ^ 6 ≤ (s 4999999).clk.tickCount + 1 ∧
    (s 4999998).clk.tickCount + 1 < tget 0 (s 4999998).ref.pduAt 7 + 5 * 10 ^ 6 ∧ ready.ref.sent ≠ some ready.advertised ∧
    ({ ready with ref := { ready.ref with sent := some ready.advertised } } : State).advertised = ready.advertised ∧
    (ready.setReg .REF_ESMC_EN 0 1).reg .REF_ESMC_EN = 1 ∧ ready.ref.infoAt = 0 ∧ (ready.setReg .REF_ESMC_EN 0 0).reg .REF_ESMC_EN ≠ 1 := by decide

theorem test_output_premises : let s := ready.setRegs [(.OUT_CLK_STATUS_STATE, 7, 1), (.OUT_CLK_STATUS_STATE, 6, 3), (.OUT_CLK_CFG_AUTO_RET, 6, 1), (.OUT_CLK_STATUS_STATE, 5, 2)]
    bit 128 7 = true ∧ s.outState 7 ≠ 0 ∧ s.outState 7 ≠ 3 ∧ (∀ k, k < 16 → k ≠ 7 → bit 128 k = false) ∧
    (s.outPin 6).since + 1000 * s.reg .OUT_CFG_RET_MS ≤ ({ s with clk := { s.clk with tickCount := 10 ^ 9 } } : State).clk.tickCount ∧
    s.clk.tickCount < (s.outPin 6).since + 1000 * s.reg .OUT_CFG_RET_MS ∧ s.outState 6 = 3 ∧ s.reg .OUT_CLK_CFG_AUTO_RET 6 = 1 ∧ s.outState 5 = 2 ∧
    ((s.setPin 5 { OutPin.idle with ready := true }).outPin 5).ready = true ∧ (s.outPin 5).ready = false ∧
    (∀ n, n < 16 → bit 0 n = true → s.outState n = 0 ∨ s.outState n = 3) := by decide
theorem test_gate_change_premises : let s := ready.setReg .OUT_TIO_CFG_SHARED 7 1
    s.shared 15 = true ∧ (s.setClaimGate 15 (!s.gateWanted 15)).claimGate 15 ≠ (s.setClaimGate 15 (!s.gateWanted 15)).gateWanted 15 ∧
    (s.setClaimGate 15 (!s.gateWanted 15)).shared 15 = true ∧ s.gateWanted 15 ≠ !s.gateWanted 15 ∧ ready.shared 15 = false ∧
    (s.setClaimGate 15 true).claimGate 15 = true ∧ ((s.setClaimGate 15 true).setOutState 15 1).outState 15 ≠ 0 ∧ ready.claimGate 15 = false ∧
    (let u : State := (((s.setClaimGate 15 true).setOutState 15 1).setPin 15 { OutPin.idle with opened := 1 })
     let v : State := { u with clk := { u.clk with acc := 10 ^ 12 * 2 ^ 40 } }
     (v.outPin 15).opened ≠ 0 ∧ v.shared 15 = true ∧ v.claimGate 15 = true ∧ v.outState 15 ≠ 0 ∧ v.watchEnd 15 ((v.outPin 15).opened - 1) ≤ v.grains) := by decide
theorem test_power_premises : let s : State := { ready.setReg .SYS_STATUS_START 0 3 with clk := { ready.clk with cycle := 0 } }
    s.clk.cycle = 0 ∧ ready.clk.cycle ≠ 0 ∧ s.clk.tickCount % 1000 = 0 ∧ s.sys.calAt ≠ s.clk.tickCount + 1 ∧ s.startState = 3 ∧ (s.setReg .SYS_CAL_EN 0 1).reg .SYS_CAL_EN = 1 ∧
    (s.setReg .SYS_CAL_EN 0 0).reg .SYS_CAL_EN ≠ 1 ∧ State.reset.startState ≠ 3 ∧
    s.reg .SYS_AVS_TARGET_MV ≤ (s.reg .SYS_AVS_TARGET_MV + 15) + 15 ∧ s.reg .SYS_AVS_TARGET_MV + 15 < s.reg .SYS_AVS_TARGET_MV + 16 := by decide
theorem test_wake_premises : (18 : Nat) ≤ 18 ∧ ready.subFloor 0 = none ∧ ready.subFloor 18 ≠ none := by decide
/-- The claim frame of claim 0x35 and alive count 0xFF, built from R486's CRC, and one with a bit turned. -/
theorem test_claim_frame : crcBytes 8 0x07 false 0 [0x35, 0xFF] = 75 ∧ 0xA535FF00 + 75 = claimFrame 0x35 0xFF ∧
    (0xA535FF00 + 75) / 2 ^ 16 % 256 = 0x35 ∧ (0xA535FF00 + 75) / 2 ^ 8 % 256 = 0xFF ∧ 0xA535FF00 + (75 ^^^ 1) ≠ claimFrame 0x35 0xFF := by
  have h0 : crcByte 8 7 0 0x35 = 139 := by decide
  have h1 : crcByte 8 7 139 0xFF = 75 := by decide
  have h : crcBytes 8 0x07 false 0 [0x35, 0xFF] = 75 := by
    simp only [crcBytes, List.foldl_cons, List.foldl_nil, Bool.false_eq_true, if_false, h0, h1]
  refine ⟨h, ?_, by decide, by decide, ?_⟩ <;> unfold claimFrame <;> rw [show (0x35 % 256 : Nat) = 0x35 from rfl, show (0xFF % 256 : Nat) = 0xFF from rfl, h] <;> decide
theorem test_claim_premises : ready.pair.alive ≠ (255 : Nat) % 256 + 1 ∧
    ({ ready with pair := { ready.pair with alive := 256 } } : State).pair.alive = 255 % 256 + 1 ∧
    (∀ k ∈ [0, 1], let s : State := { ready.setReg .PAIR_STATUS_PEER_SRC 0 1 with clk := { ready.clk with cycle := 0 }, pair := { ready.pair with claim := [(0, 1), (1, k)], missed := [(0, 4)] } }
      s.clk.cycle = 0 ∧ tget 0 s.pair.claim 0 ≠ 0 ∧ 4 ≤ tget 0 s.pair.missed 0 ∧ (k = 0 → tget 0 s.pair.claim (1 - 0) = 0) ∧
      (k = 1 → tget 0 s.pair.claim (1 - 0) ≠ 0 ∧ s.reg .PAIR_STATUS_PEER_SRC = 0 + 1)) ∧ ready.reg .PAIR_STATUS_PEER_SRC ≠ 0 + 1 ∧
    ({ ready with pair := { ready.pair with differ := 3 } } : State).pair.differ > 2 ∧
    ({ ready with pair := { ready.pair with differ := 3 } } : State).pair.told = false := by decide
theorem test_heartbeat_premises : let u : State := { readyPair with clk := { readyPair.clk with cycle := 0 } }
    u.clk.cycle = 0 ∧ u.clk.tick % 64 = 0 ∧ u.pair.hbDone ≠ u.clk.tickCount + 1 ∧ u.pairState = 2 ∧
    u.pairState ≠ 0 ∧ u.pairState ≠ 5 ∧
    (let s : State := { ready.setReg .PAIR_STATUS_STATE 0 1 with clk := { ready.clk with cycle := 0 }, pair := { ready.pair with joined := 255 } }
     s.clk.cycle = 0 ∧ s.pairState = 1 ∧ s.reg .PAIR_STATUS_PEER_SRC = 0 ∧ max 1 (s.reg .PAIR_CFG_JOIN_WAIT) ≤ s.pair.joined) := by decide
theorem test_epoch_premises : let s : State := { (readyPair.setReg .PAIR_STATUS_ROLE 0 1).setReg .PAIR_PATHS_MY1 0 1 with clk := { readyPair.clk with cycle := 0 } }
    s.clk.cycle = 0 ∧ s.clk.tick % 1024 = 0 ∧ s.pair.epochDone ≠ s.clk.tickCount + 1 ∧ s.active = true ∧ s.pairState = 2 ∧ s.mywynUp = true ∧
    s.reg (myFlag 1) = 1 ∧ s.reg (myFlag 0) ≠ 1 ∧ readyPair.active = false ∧ readyPair.reg .SYS_COMMIT_STATUS_PENDING ≠ 1 := by decide
/-- A handover at its instant, acknowledged and not, one before it, and one that ends. -/
theorem test_handover_premises : let s (a : Bool) (th : Nat) : State := { readyPair.setReg .PAIR_PATHS_MY0 0 1 with clk := { readyPair.clk with cycle := 0 }, pair := { readyPair.pair with handover := some ⟨1, th, true, a, 0, 0⟩ } }
    (s true 0).clk.cycle = 0 ∧ readyPair.clk.cycle ≠ 0 ∧ (s true 0).pair.handover = some ⟨1, 0, true, true, 0, 0⟩ ∧ 0 ≤ (s true 0).clk.tick ∧ (s true 0).mywynUp = true ∧
    (s true 0).tme.steps = 0 ∧ (s true 0).pair.peerSteps = 0 ∧ (s true 1).clk.tick < 1 ∧ (s false 0).pair.handover = some ⟨1, 0, true, false, 0, 0⟩ ∧
    ({ readyPair with pair := { readyPair.pair with ending := some (5, 1) } } : State).pair.ending = some (5, 1) ∧
    readyPair.gatesPending = false ∧ readyPair.pair.ending = none ∧ readyPair.pair.handover = none := by decide

/-- Port 2 of width 4 breaks R189; port 252 of width 4 and rate 4 with FEC 2 keeps it and is acceptable. -/
theorem test_port_set_premises : let h := hd
    (∀ p ∈ [2, 252], let sp := specPortSet h p 4 4 2 0 0
      let f := ready.fetched h sp
      ready.fetchable h.fn h.sq = true ∧ ready.cqUsable h.fn h.cq = true ∧ tget 0 ready.hst.fetched h.fn < fetchBudget ∧
      f.execWindow = true ∧ f.hst.waiting.any (fun w => sameRing w h.fn h.sq) = false ∧ f.mayIssue h.fn 0x20 = true ∧
      validPassed (f.wrapNs) h.validNs = false ∧ h.fence = false ∧ h.rsvd = false ∧ h.hold = false ∧ f.reg .SYS_STATUS_PLAYA ≠ 1) ∧
    2 % 4 ≠ 0 ∧ 252 % 4 = 0 ∧ (modeRung 4 4 2).isSome = true ∧ (ready.portJudged 252).absorbed = false ∧ (ready.portJudged 252).admin = false ∧
    (∀ q ∈ portLanes 252 4, (ready.portJudged q).admin = false) ∧
    (let f := ready.setRegs [(.PRT_MODE_ADMIN_UP, 8, 1), (.PRT_MODE_WIDTH, 8, 1)]
     (f.portJudged 8).admin = true ∧ 4 ≠ (f.portJudged 8).width) := by decide
/-- Slot 3 of DPLL0 FAILED and selected; slots 5 and 7 VALID with the same RANK: by grade in QL mode, by number without. -/
theorem test_selection_order_premises :
    let s (m : Nat) := ready.setRegs [(.REF_DPLL_STATUS_SELECTED, 0, 3), (.REF_C_STATUS_STATE, ckey 0 3, 5), (.REF_C_STATUS_STATE, ckey 0 5, 3), (.REF_C_STATUS_STATE, ckey 0 7, 3), (.REF_CFG_QL_MODE, 0, m), (.REF_SLOT_QL_GRADE, 5, 2), (.REF_SLOT_QL_GRADE, 7, 1)]
    ((s 0).selected 0 ≤ 12 ∧ (s 0).eligible 0 ((s 0).selected 0) = false ∧ (s 0).eligible 0 5 = true ∧
      (s 0).qlMode = false ∧ (s 0).rank 0 5 = (s 0).rank 0 7 ∧ ∀ k, k < 13 → (s 0).eligible 0 k = true → k = 5 ∨ k = 7) ∧
    ((s 1).selected 0 ≤ 12 ∧ (s 1).eligible 0 ((s 1).selected 0) = false ∧ (s 1).eligible 0 7 = true ∧
      (s 1).qlMode = true ∧ (s 1).gradeOf 0 7 < (s 1).gradeOf 0 5 ∧ ∀ k, k < 13 → (s 1).eligible 0 k = true → k = 5 ∨ k = 7) := by decide
theorem test_no_candidate_premises : let s := ready.setReg .REF_DPLL_STATUS_SELECTED 0 3
    s.selected 0 ≤ 12 ∧ ∀ k, k < 13 → s.eligible 0 k = false := by decide
/-- Slot 3 selected and VALID; slot 5 VALID and better, with REVERT and without. -/
theorem test_revert_premises : let s (r : Nat) := ready.setRegs [(.REF_DPLL_STATUS_SELECTED, 0, 3), (.REF_C_STATUS_STATE, ckey 0 3, 3), (.REF_C_CTRL_RANK, ckey 0 3, 2), (.REF_C_STATUS_STATE, ckey 0 5, 3), (.REF_C_CTRL_RANK, ckey 0 5, 1), (.REF_C_CTRL_REVERT, ckey 0 5, r)]
    (∀ r ∈ [0, 1], (s r).selected 0 ≤ 12 ∧ (s r).eligible 0 ((s r).selected 0) = true ∧ (s r).eligible 0 5 = true ∧ (s r).qlMode = false ∧
      (s r).rank 0 5 < (s r).rank 0 3) ∧ (s 1).reg .REF_C_CTRL_REVERT (ckey 0 5) = 1 ∧ (s 0).reg .REF_C_CTRL_REVERT (ckey 0 5) = 0 := by decide
theorem test_receiver_premises : let s := ready.setRegs [(.MBX_CH_BIND_VALID, 31, 1), (.MBX_CH_BIND_RECEIVER, 31, 22), (.MBX_CH_BIND_SENDER, 31, 20), (.MBX_CH_STATUS_FULL, 31, 1)]
    s.reg .MBX_CH_BIND_VALID 31 = 1 ∧ s.reg .MBX_CH_BIND_RECEIVER 31 = 22 ∧ s.reg .PAIR_CFG_CHK_TX < 16 ∧ s.reg .MBX_CH_STATUS_FULL 31 = 1 ∧
    ready.reg .MBX_CH_STATUS_FULL 31 = 0 := by decide
theorem test_lowest_port_premises : ready.lockHolder 0 = none ∧ lockPorts[4]? = some 0 ∧ 0 ∈ [22, 0] ∧
    (∀ q, q < 4 → ∀ v ∈ lockPorts[q]?, v ∉ [22, 0]) := by decide

/-- HST_FN_STATUS.DMA_ERR is clear-1: set in this cycle, written with ones in its byte; and the same field in a later cycle. -/
theorem test_set_wins_premises : let f := Fld.HST_FN_STATUS_DMA_ERR
    let s := ready.setReg f 0 1
    f.desc.kind = .clear1 ∧ 0 < f.width ∧ (1 : Nat).testBit 0 = true ∧ s.hw.at_ ≠ s.coreCycle + 1 ∧ s.absorbedReg f 0 = false ∧
    bits (2 ^ 32 - 1) f.desc.hi f.desc.lo ≠ 0 := by decide
/-- R645's example: DIV 9 on SYN0. -/
theorem test_odd_divider_premises : (ready.setReg .OUT_CLK_CFG_DIV 3 9).reg .OUT_CLK_CFG_DIV 3 = 9 ∧
    (ready.setReg .OUT_CLK_CFG_DIV 3 9).reg .OUT_CLK_CFG_MODE 3 ≠ 1 ∧ ready.reg .SYS_REV_MAJOR = 1 := by decide
/-- R155: the pairs 00 01 11 10 are the levels 0 1 2 3, and precoded after level 0 they are 0 1 1 2. -/
theorem test_pam : pamLevels [false, false, false, true, true, true, true, false] = [0, 1, 2, 3] ∧
    precode 0 [0, 1, 2, 3] = [0, 1, 1, 2] ∧ unprecode 0 [0, 1, 1, 2] = [0, 1, 2, 3] := by decide

/-- Commands that are well formed, at the last number of each kind of thing. -/
theorem test_wf_accepts : (Instr.kick 15).wf = true ∧ (Instr.ringEnable 15 2 255).wf = true ∧ (Instr.msixUnmask 0 63).wf = true ∧
    (Instr.portUp 257).wf = true ∧ (Instr.laneSignalDetect 259).wf = true ∧ (Instr.flowDel hd 5242879).wf = true ∧
    (Instr.lockRelease 22 63).wf = true ∧ (Instr.counterClear 18 255).wf = true := by decide
/-- Fields wider than they are. -/
theorem test_wf_widths : (Instr.esmcPduReceive 0 16 none).wf = false ∧ (Instr.setEndpointId 256).wf = false ∧ (Instr.avsDeviation ⟨65536, 0⟩).wf = false ∧
    (Instr.mctpRead32 (2 ^ 32)).wf = false ∧ (Instr.timeStep hd 0 (2 ^ 64) 0 0 0).wf = false ∧ (Instr.reload [256]).wf = false ∧
    (Instr.loWrite 0 0 0 16).wf = false := by decide
/-- Things that the part does not have. -/
theorem test_wf_things : (Instr.kick 16).wf = false ∧ (Instr.ringEnable 0 3 0).wf = false ∧ (Instr.ringEnable 0 0 256).wf = false ∧
    (Instr.msixUnmask 0 64).wf = false ∧ (Instr.suspendTimeout 32).wf = false ∧ (Instr.portUp 258).wf = false ∧
    (Instr.laneSignalDetect 260).wf = false ∧ (Instr.flowDel hd 5242880).wf = false ∧ (Instr.refetchRetry 7 0).wf = false ∧
    (Instr.generationRetire 4).wf = false ∧ (Instr.scrubPass [(11, 0, 0)]).wf = false ∧ (Instr.samplerEnable 2 true).wf = false ∧ (Instr.caravanQueueRoom 8).wf = false ∧
    (Instr.selfTest 16).wf = false ∧ (Instr.txsPop 4).wf = false ∧ (Instr.tioInPop 8).wf = false ∧ (Instr.mbxDataSend 32).wf = false ∧
    (Instr.lockHoldExpiry 64).wf = false ∧ (Instr.subsystemWake 19 true).wf = false ∧ (Instr.refSignalLoss ⟨13, 0⟩).wf = false ∧
    (Instr.bindLock 23).wf = false ∧ (Instr.seifBeat 256 0 none).wf = false ∧ (Instr.seifBeat 0 2 none).wf = false := by decide
/-- Operands that lack a part, or name a part twice. -/
theorem test_wf_shapes : (Instr.nop { hd with tag := 2 ^ 32 }).wf = false ∧ (Instr.groupSet hd 0 0 2 .error [.error]).wf = false ∧
    (Instr.tioSet hd ⟨256, 0, 0, 0, 0, 0, 0⟩).wf = false ∧ (Instr.frameHead ⟨0, true, [], ⟨0, 0, 0, 1⟩, []⟩).wf = false ∧
    (Instr.pauseFrameReceive 0 true [(1, 0), (1, 0)] 0).wf = false ∧ (Instr.tickBoundary ⟨[], [], [], 0, 0⟩).wf = false ∧
    (Instr.ladderBlockReceive 0 ⟨4, 0, 0, 0, 0, 0, 0, false⟩).wf = false ∧ (Instr.heartbeatFrameReceive ⟨256, 0, 0, 0, []⟩ 0 0).wf = false ∧
    (Instr.hostReadReturn (.failed 0 5 0 0)).wf = false := by decide

end Tests
end Sys2Proof
end

section
/-!
PROOFS. The kinds of a field (R7, R8): what a write does to one field, and a write in the cycle in which hardware sets its bits.
-/
namespace Sys2Proof
namespace Machine

/-- The field part of the bits `m` of a word. -/
def Fld.part (f : Fld) (m : Nat) : Nat := bits m f.desc.hi f.desc.lo

/-- The value a field takes when the bits `m` of a word `v` are written over `old` (R7). -/
def State.merged (s : State) (f : Fld) (i v m old : Nat) : Nat :=
  s.norm f i (old - (old &&& f.part m) + (f.part v &&& f.part m))

/-- A field none of whose bits are enabled, or one of an absorbed port, is left as it is. -/
theorem storeField_untouched (s : State) (f : Fld) (i v m a : Nat) (h : f.part m = 0 ∨ s.absorbedReg f i = true) :
    s.storeField f i v m a = s := by
  unfold State.storeField; exact if_pos h

/-- A write that reaches a field acts by the field's kind. -/
theorem storeField_reached (s : State) (f : Fld) (i v m a : Nat) (hm : f.part m ≠ 0) (ha : s.absorbedReg f i = false) :
    s.storeField f i v m a = match f.desc.kind with
      | .live => s.setReg f i (s.merged f i v m (s.reg f i))
      | .staged => s.setPend f i (s.merged f i v m (s.pendReg f i))
      | .frozen =>
        if s.merged f i v m (s.reg f i) = s.reg f i then s
        else if s.idleFor f i then s.setReg f i (s.merged f i v m (s.reg f i)) else s.frozenEvent f i a
      | .clear1 | .sticky => s.clearBits f i (f.part v &&& f.part m)
      | .set1 => s.setReg f i (s.reg f i ||| (f.part v &&& f.part m))
      | .status | .pulse => s := by
  have h : ¬ (bits m f.desc.hi f.desc.lo = 0 ∨ s.absorbedReg f i = true) := by
    rw [ha]; exact fun h => h.elim hm (by decide)
  unfold State.storeField; exact if_neg h

/-- The report of a discarded frozen write is an event and nothing else. -/
theorem agree_frozenEvent (s : State) (f : Fld) (i a : Nat) : Agree (s.frozenEvent f i a) s := by
  unfold State.frozenEvent; dsimp only
  split
  case h_7 | h_8 => exact agree_evLow _ _ _ _
  case h_11 => exact agree_evFn _ _ _ _
  all_goals exact agree_ev _ _ _

/-- Settles O18: `storeField` read kind by kind. -/
theorem fieldWrittenByKind : Obligations.FieldWrittenByKind := by
  unfold Obligations.FieldWrittenByKind
  refine ⟨storeField_untouched, fun s f i v m a hm ha => ?_⟩
  have hs := storeField_reached s f i v m a hm ha
  refine ⟨fun hk => ?_, fun hk => ?_, fun hk hi => ?_, fun hk hi => ?_, fun hk => ?_, fun hk => ?_, fun hk => ?_⟩
  · rw [hs, hk]; rfl
  · rw [hs, hk]; exact ⟨rfl, rfl⟩
  · rw [hs, hk, hi]; rfl
  · rw [hs, hk, hi]
    dsimp only
    split
    · exact Agree.refl s
    · exact agree_frozenEvent s f i a
  · rcases hk with hk | hk <;> rw [hs, hk] <;> rfl
  · rw [hs, hk]; rfl
  · rcases hk with hk | hk <;> rw [hs, hk]

/-! ### Set against clear in one CORE cycle (R8) -/

/-- A bit of a field after its bits `v` were cleared, where hardware has set the bits `s.hwBits f i` in the cycle. -/
theorem reg_clearBits_testBit (s : State) (f : Fld) (i v k : Nat) (hk : k < f.width) :
    ((s.clearBits f i v).reg f i).testBit k = ((s.reg f i).testBit k && !(v.testBit k && !(s.hwBits f i).testBit k)) := by
  unfold State.clearBits
  rw [State.reg_setReg, Nat.testBit_mod_two_pow, sub_and_testBit, sub_and_testBit]
  simp [hk]

/-- A bit of a field that hardware has set reads 1. -/
theorem reg_hwSet_testBit (s : State) (f : Fld) (i v k : Nat) (hk : k < f.width) (hv : v.testBit k = true) :
    ((s.hwSet f i v).reg f i).testBit k = true := by
  rw [reg_hwSet, Nat.testBit_mod_two_pow, Nat.testBit_or, hv]
  simp [hk]

/-- A bit that hardware set in the cycle of a write of a clear-1 or sticky field survives the write. -/
theorem storeField_keeps_hwSet (s : State) (f : Fld) (i v w m a k : Nat) (hf : f.desc.kind = .clear1 ∨ f.desc.kind = .sticky)
    (hk : k < f.width) (hv : v.testBit k = true) : (((s.hwSet f i v).storeField f i w m a).reg f i).testBit k = true := by
  rw [storeField_clear _ _ _ _ _ _ hf]
  split
  · exact reg_hwSet_testBit s f i v k hk hv
  · rw [reg_clearBits_testBit _ _ _ _ _ hk, reg_hwSet_testBit s f i v k hk hv, hwBits_hwSet, Nat.testBit_or, hv]
    simp

/-- Settles O56: a clear spares what the cycle's note of hardware sets holds, and without a note it clears what is written. -/
theorem setWinsOverClear : Obligations.SetWinsOverClear := by
  unfold Obligations.SetWinsOverClear
  intro s f i v w m a k hf hk
  refine ⟨fun hv => ⟨storeField_keeps_hwSet s f i v w m a k hf hk hv, reg_hwSet_testBit _ f i v k hk hv⟩, fun hc ha hm => ?_⟩
  have hno : s.hwBits f i = 0 := if_neg hc
  rw [storeField_clear _ _ _ _ _ _ hf, if_neg (by rw [ha]; exact fun h => h.elim hm (by decide)),
    reg_clearBits_testBit _ _ _ _ _ hk, hno, Nat.zero_testBit]
  simp

end Machine
end Sys2Proof
end

section
/-!
PROOFS. Register reads and writes that have no effect of their own (R5, R6, R606, R622-R626): which part of an access each form
of address takes, and the two MCTP accesses that are such a read and such a write.
-/
namespace Sys2Proof
namespace Machine

/-! ### Reads -/

/-- A command whose work is a read without effects of its own yields what the plain read leaves. -/
theorem yields_plainRead {i : Instr} {s x : State} {who a : Nat} (hi : i = .loRead who a ∨ i = .hiRead who a)
    (hr : s.readReg who a = x) : Yields i s x := by
  have he : exec i s = run (fun s => s.readReg who a) s := by rcases hi with rfl | rfl <;> rfl
  exact yields_run he (by rw [hr]; exact Agree.refl x)

/-- A plain read of a _LO. -/
theorem readPlain_lo (s : State) (who a : Nat) (hp : isPair (fieldsAt a) = true) :
    s.readPlain who a = s.readLo who a (latchKey who a) (s.wordFor who a (fieldsAt a)) := by
  unfold State.readPlain; exact if_pos hp

/-- A plain read of a register that has no half. -/
theorem readPlain_word (s : State) (who a : Nat) (hp : isPair (fieldsAt a) = false) (hn : fieldsAt a ≠ []) :
    s.readPlain who a = s.emit (.readValue who a (s.wordFor who a (fieldsAt a))) := by
  unfold State.readPlain; dsimp only; rw [if_neg (by rw [hp]; decide), if_pos hn]

/-- No field at an address: it is no pair either. -/
theorem isPair_of_nil {a : Nat} (hn : fieldsAt a = []) : isPair (fieldsAt a) = false := by rw [hn]; rfl

/-- A plain read of a _HI. -/
theorem readPlain_hi (s : State) (who a : Nat) (hn : fieldsAt a = []) (hh : hiOf a ≠ []) :
    s.readPlain who a = s.readHi who a (latchKey who a) (s.wordFor who (a - 4) (hiOf a)) := by
  unfold State.readPlain; dsimp only
  rw [if_neg (by rw [isPair_of_nil hn]; decide), if_neg (by rw [hn]; simp), if_pos hh]

/-- A plain read of an unassigned offset. -/
theorem readPlain_unassigned (s : State) (who a : Nat) (hn : fieldsAt a = []) (hh : hiOf a = []) :
    s.readPlain who a = s.emit (.readValue who a 0) := by
  unfold State.readPlain; dsimp only
  rw [if_neg (by rw [isPair_of_nil hn]; decide), if_neg (by rw [hn]; simp), if_neg (by rw [hh]; simp)]

/-- An address at which a _HI lies is not one of the first four. -/
theorem four_le_of_hiOf {a : Nat} (h : hiOf a ≠ []) : 4 ≤ a := by
  by_contra h4
  exact h (if_neg fun hc => h4 hc.1)

/-- The fields of a _HI are those of its pair, at the address of the _LO. -/
theorem hiOf_eq {a : Nat} (h : hiOf a ≠ []) : hiOf a = fieldsAt (a - 4) := by
  by_cases hc : 4 ≤ a ∧ isPair (fieldsAt (a - 4)) = true
  · exact if_pos hc
  · exact absurd (if_neg hc) h

/-- A _HI whose half the path has latched. -/
theorem readHi_latched (s : State) (who a key w v : Nat) (h4 : 4 ≤ a) (hl : tget none s.hiLatch key = some (a - 4, v)) :
    s.readHi who a key w = ({ s with hiLatch := tdel key s.hiLatch } : State).emit (.readValue who a v) := by
  unfold State.readHi; rw [hl]; exact if_pos (by omega)

/-- A _HI of whose pair the path has latched nothing. -/
theorem readHi_live (s : State) (who a key w : Nat) (hl : ∀ v, tget none s.hiLatch key ≠ some (a - 4, v)) :
    s.readHi who a key w = s.emit (.readValue who a (w / 2 ^ 32 % 2 ^ 32)) := by
  unfold State.readHi
  split
  · next b v hb => exact if_neg fun h => hl v (by rw [hb]; congr 2; omega)
  · rfl

/-- The management endpoint answers while internal reset is not held. -/
theorem mctpAnswer_released (s : State) (ty cmd : Nat) (d : List Nat) (h : s.sys.held = false) :
    s.mctpAnswer ty cmd d = s.emit (.mctp ty cmd d) := if_neg (by rw [h]; decide)

/-- MCTP_READ32 of a register without effects of its own, which has no half, sends the word it reads. -/
theorem doMctpRead32_word (s : State) (a w : Nat) (h : s.sys.held = false) (hb : a < 0x4000000)
    (hr : s.readReg 21 a = s.emit (.readValue 21 a w)) :
    doMctpRead32 a s = (s.emit (.readValue 21 a w)).emit (.mctp 0x7F 1 (0 :: le 4 w)) := by
  unfold doMctpRead32
  rw [if_neg (by rw [h]; decide), if_neg (by omega), hr]
  exact mctpAnswer_released (s.emit (.readValue 21 a w)) _ _ _ h

/-- Settles O16: such a read is `readPlain`, taken apart by what lies at the address. -/
theorem registerReadsComplete : Obligations.RegisterReadsComplete := by
  unfold Obligations.RegisterReadsComplete
  refine ⟨fun i s who a hi hr h4 hb ht ha => ?_, fun s a hh hr h4 hb ht ha hp hn => ?_⟩
  · have hplain := readReg_plain s who a hr h4 hb ht ha
    refine ⟨fun hp hn => ?_, fun hp => ?_, fun hn hh v hv => ?_, fun hn hh hv => ?_, fun hn hh => ?_⟩ <;>
      refine yields_plainRead hi (hplain.trans ?_)
    · exact readPlain_word s who a hp hn
    · exact readPlain_lo s who a hp
    · exact (readPlain_hi s who a hn hh).trans (readHi_latched _ _ _ _ _ _ (four_le_of_hiOf hh) hv)
    · exact (readPlain_hi s who a hn hh).trans (readHi_live _ _ _ _ _ hv)
    · exact readPlain_unassigned s who a hn hh
  · have hread := (readReg_plain s 21 a hr h4 hb ht ha).trans (readPlain_word s 21 a hp hn)
    exact yields_run (f := doMctpRead32 a) rfl (by rw [doMctpRead32_word s a _ hh hb hread]; exact Agree.refl _)

/-! ### Writes -/

/-- A write that its identity may make of a _LO is held for the path. -/
theorem writeReg_lo (s : State) (who a v be : Nat) (data : List Line) (hr : s.reaches who a true = true) (h4 : a % 4 = 0)
    (hp : isPair (fieldsAt a) = true) :
    s.writeReg who a v be data = { s with loHold := tset none (latchKey who a) (some (a, be % 16 * 2 ^ 32 + v % 2 ^ 32)) s.loHold } := by
  unfold State.writeReg; dsimp only
  rw [if_neg (by simp [hr, h4]), if_pos hp]

/-- A write of a register that has no half is stored when the subsystem is awake. -/
theorem writeReg_word (s : State) (who a v be : Nat) (data : List Line) (hr : s.reaches who a true = true) (h4 : a % 4 = 0)
    (hp : isPair (fieldsAt a) = false) (hn : fieldsAt a ≠ []) :
    s.writeReg who a v be data = (s.wakeFor a).storeOrdered who a (v % 2 ^ 32) (beMask be) data := by
  unfold State.writeReg; dsimp only
  rw [if_neg (by simp [hr, h4]), if_neg (by rw [hp]; decide), if_pos hn]

/-- A write of the _HI of a pair whose _LO the path holds writes both halves as one. -/
theorem writeReg_hi_held (s : State) (who a v be x : Nat) (data : List Line) (hr : s.reaches who a true = true) (h4 : a % 4 = 0)
    (hn : fieldsAt a = []) (hh : hiOf a ≠ []) (hl : tget none s.loHold (latchKey who a) = some (a - 4, x)) :
    s.writeReg who a v be data = (({ s with loHold := tdel (latchKey who a) s.loHold } : State).wakeFor a).storeOrdered who (a - 4)
      (v % 2 ^ 32 * 2 ^ 32 + x % 2 ^ 32) (beMask be * 2 ^ 32 + beMask (x / 2 ^ 32)) data := by
  have h := four_le_of_hiOf hh
  unfold State.writeReg; dsimp only
  rw [if_neg (by simp [hr, h4]), if_neg (by rw [isPair_of_nil hn]; decide), if_neg (by rw [hn]; simp), if_pos hh, hl]
  exact if_pos (by omega)

/-- A write of the _HI of a pair whose _LO the path does not hold writes the upper half alone. -/
theorem writeReg_hi_alone (s : State) (who a v be : Nat) (data : List Line) (hr : s.reaches who a true = true) (h4 : a % 4 = 0)
    (hn : fieldsAt a = []) (hh : hiOf a ≠ []) (hl : ∀ x, tget none s.loHold (latchKey who a) ≠ some (a - 4, x)) :
    s.writeReg who a v be data = (s.wakeFor a).storeOrdered who (a - 4) (v % 2 ^ 32 * 2 ^ 32) (beMask be * 2 ^ 32) data := by
  unfold State.writeReg; dsimp only
  rw [if_neg (by simp [hr, h4]), if_neg (by rw [isPair_of_nil hn]; decide), if_neg (by rw [hn]; simp), if_pos hh]
  split
  · next b x hb => exact if_neg fun h => hl x (by rw [hb]; congr 2; omega)
  · rfl

/-- A command that stores a word in plain registers yields the state with the word stored, and time goes on. -/
theorem yields_storeOrdered {i : Instr} {s u : State} {f : State → State} {who a v m : Nat} {data : List Line}
    (he : exec i s = runReset f s) (hf : f s = u.storeOrdered who a v m data)
    (ha : ((fieldsAt a).all fun x => !writeActs x.1) = true) (hc : u.clk = s.clk) :
    Yields i s (u.stored who a (fieldsAt a) v m) := by
  obtain ⟨hclk, hag⟩ := storeOrdered_yields (data := data) (v := v) (m := m) (who := who) ha rfl hc
  exact yields_reset he (by rw [hf]; exact hclk) (by rw [hf]; exact hag)

/-- Settles O17: such a write is held, or is `storeOrdered` of a word, of both halves or of the upper half. -/
theorem registerWritesComplete : Obligations.RegisterWritesComplete := by
  unfold Obligations.RegisterWritesComplete
  refine ⟨fun i s who a v be hi hr h4 ha hn => ?_, fun i s who a v be hi hr h4 hn hh ha => ?_,
    fun s a v hh hr h4 hb hw ha hn hp => ?_⟩
  · have he : exec i s = runReset (fun s => s.writeReg who a v be []) s := by rcases hi with rfl | rfl <;> rfl
    refine ⟨fun hp => yields_storeOrdered he (writeReg_word s who a v be [] hr h4 hp hn) ha (wakeFor_clk s a), fun hp => ?_⟩
    have hlo := writeReg_lo s who a v be [] hr h4 hp
    exact yields_reset he (by rw [hlo]) (by rw [hlo]; exact Agree.refl _)
  · have he : exec i s = runReset (fun s => s.writeReg who a v be []) s := by rcases hi with rfl | rfl <;> rfl
    rw [hiOf_eq hh] at ha ⊢
    exact ⟨fun x hl => yields_storeOrdered he (writeReg_hi_held s who a v be x [] hr h4 hn hh hl) ha (wakeFor_clk _ a),
      fun hl => yields_storeOrdered he (writeReg_hi_alone s who a v be [] hr h4 hn hh hl) ha (wakeFor_clk s a)⟩
  · have hdo : doMctpWrite32 a v s = (s.emit (.mctp 0x7F 2 [0])).writeReg 21 a v 15 [] := by
      unfold doMctpWrite32
      rw [if_neg (by rw [hh]; decide), if_pos ⟨hw, hb⟩, mctpAnswer_released s _ _ _ hh]
    exact yields_storeOrdered (f := doMctpWrite32 a v) rfl (hdo.trans (writeReg_word _ 21 a v 15 [] hr h4 hp hn)) ha (wakeFor_clk _ a)

end Machine
end Sys2Proof
end

section
/-!
PROOFS. The warm reset (R585-R588, R592, R607): what it leaves of a state, from which the three causes of it are settled; and
that the end of the interval meter's set, which XO_LOSS makes first (R424), touches nothing that a warm reset keeps.
-/
namespace Sys2Proof
namespace Machine

/-! ### What a warm reset keeps -/

/-- `u` is as `s` in what a warm reset keeps, and in whether internal reset is held. -/
structure HoldsKept (u s : State) : Prop where
  held : u.sys.held = s.sys.held
  clk : u.clk = s.clk
  numVf : u.hst.numVf = s.hst.numVf
  linkRate : u.hst.linkRate = s.hst.linkRate
  linkWidth : u.hst.linkWidth = s.hst.linkWidth
  slewLeft : u.tme.slewLeft = s.tme.slewLeft
  first : u.cairn.first = s.cairn.first
  last : u.cairn.last = s.cairn.last
  mirror : u.cairn.mirror = s.cairn.mirror
  reg : ∀ f k, f ∈ warmFields → k < 8192 → u.reg f k = s.reg f k

theorem HoldsKept.refl (s : State) : HoldsKept s s := ⟨rfl, rfl, rfl, rfl, rfl, rfl, rfl, rfl, rfl, fun _ _ _ _ => rfl⟩

theorem HoldsKept.trans {a b c : State} (h : HoldsKept a b) (g : HoldsKept b c) : HoldsKept a c :=
  ⟨h.held.trans g.held, h.clk.trans g.clk, h.numVf.trans g.numVf, h.linkRate.trans g.linkRate, h.linkWidth.trans g.linkWidth,
    h.slewLeft.trans g.slewLeft, h.first.trans g.first, h.last.trans g.last, h.mirror.trans g.mirror,
    fun f k hf hk => (h.reg f k hf hk).trans (g.reg f k hf hk)⟩

/-- A field that the rule of a warm reset does not name is not kept. -/
theorem not_mem_warmFields {f : Fld} (h : warmField f = false) : f ∉ warmFields := fun hf => by
  have hw : warmField f = true := (List.mem_filter.mp hf).2
  rw [h] at hw; exact absurd hw (by decide)

/-- No kept field is an account of events. -/
theorem isAccount_of_warmFields {f : Fld} (h : f ∈ warmFields) : Fld.isAccount f = false := by
  by_contra ha
  have hor : f = .OBS_U_CNT_VALUE ∨ f = .OBS_U_OVF_OVF := by simpa [Fld.isAccount, or_iff_not_imp_left] using ha
  rcases hor with rfl | rfl <;> exact not_mem_warmFields (by decide) h

/-- No kept field is one that a warm reset shows anew. -/
theorem not_warmShown_of_warmFields {f : Fld} (h : f ∈ warmFields) : f ∉ warmShown := fun hs =>
  have hall : ∀ g ∈ warmShown, warmField g = false := by decide
  not_mem_warmFields (hall f hs) h

/-- Of the kept fields only the reasons of the start are written when a start begins. -/
theorem not_startShown_of_warmFields {f : Fld} (h : f ∈ warmFields) (hr : reasonField f = false) :
    f ∉ [Fld.SYS_STATUS_READY, .SYS_STATUS_PLAYA, .SYS_START_REASON_SWITCHED, .SYS_START_REASON_FALLBACK, .SYS_STATUS_START,
      .SYS_START_REASON_CAUSE] := fun hs =>
  have hall : ∀ g ∈ [Fld.SYS_STATUS_READY, .SYS_STATUS_PLAYA, .SYS_START_REASON_SWITCHED, .SYS_START_REASON_FALLBACK,
      .SYS_STATUS_START, .SYS_START_REASON_CAUSE], reasonField g = false → warmField g = false := by decide
  not_mem_warmFields (hall f hs hr) h

/-- The count of failed starts is kept. -/
theorem count_mem_warmFields : Fld.SYS_START_REASON_COUNT ∈ warmFields := by decide

/-- States that agree hold the same. -/
theorem HoldsKept.of_agree {u s : State} (h : Agree u s) : HoldsKept u s := by
  have hbody : ∀ {β : Type} (p : State → β), p u.body = p s.body := fun p => congrArg p h.1
  exact ⟨congrArg Sys.held h.sys, h.clk, congrArg Hst.numVf h.hst, congrArg Hst.linkRate h.hst, congrArg Hst.linkWidth h.hst,
    congrArg Tme.slewLeft h.tme, hbody fun t => t.cairn.first, hbody fun t => t.cairn.last, hbody fun t => t.cairn.mirror,
    fun f k hf hk => h.reg (isAccount_of_warmFields hf) hk⟩

/-- A write of a field that a warm reset clears. -/
theorem HoldsKept.setReg (s : State) (f : Fld) (i v : Nat) (hi : i < 8192) (hf : warmField f = false) : HoldsKept (s.setReg f i v) s :=
  { HoldsKept.refl s with reg := fun g k hg hk => State.reg_setReg_ne s (by rintro rfl; exact not_mem_warmFields hf hg) v hi hk }

/-- Writes of fields that a warm reset clears. -/
theorem HoldsKept.setRegs (s : State) (l : List (Fld × Nat × Nat)) (hl : ∀ x ∈ l, x.2.1 < 8192 ∧ warmField x.1 = false) :
    HoldsKept (s.setRegs l) s := by
  unfold State.setRegs
  induction l generalizing s with
  | nil => exact HoldsKept.refl s
  | cons x l ih =>
    obtain ⟨hi, hf⟩ := hl x (List.mem_cons_self ..)
    exact (ih _ fun y hy => hl y (List.mem_cons_of_mem _ hy)).trans (HoldsKept.setReg s _ _ _ hi hf)

/-! ### The end of the meter's set (R423, R424) -/

theorem HoldsKept.setItm (s : State) (x : Itm) : HoldsKept (s.setItm x) s :=
  ⟨rfl, rfl, rfl, rfl, rfl, rfl, rfl, rfl, rfl, fun _ _ _ _ => rfl⟩

/-- What the meter shows is cleared by a warm reset. -/
theorem HoldsKept.itmShown (s : State) (r : Nat) : HoldsKept (s.itmShown r) s := by
  have hstats : ∀ (u : State) (a b c d : Nat), HoldsKept (u.setRegs [(.SEIF_ITM_MEAN_MEAN, 0, a), (.SEIF_ITM_DEV_DEV, 0, b),
      (.SEIF_ITM_MIN_MIN, 0, c), (.SEIF_ITM_MAX_MAX, 0, d)]) u := fun u a b c d =>
    HoldsKept.setRegs u _ (by simp only [List.forall_mem_cons]; decide)
  have hend : ∀ (u : State) (a b c d e f g : Nat), HoldsKept (u.setRegs [(.SEIF_ITM_STATUS_BUSY, 0, a),
      (.SEIF_ITM_STATUS_RESULT, 0, b), (.SEIF_ITM_STATUS_COUNT, 0, c), (.SEIF_ITM_FLAGS_UNDER, 0, d),
      (.SEIF_ITM_FLAGS_REVERSED, 0, e), (.SEIF_ITM_FLAGS_TIMEOUT, 0, f), (.SEIF_ITM_FLAGS_IGNORED, 0, g)]) u :=
    fun u a b c d e f g => HoldsKept.setRegs u _ (by simp only [List.forall_mem_cons]; decide)
  unfold State.itmShown; dsimp only
  refine (HoldsKept.of_agree ((agree_tally _ _ _ _ _ _ _ (by decide)).trans (agree_ev _ _ _))).trans ((hend _ _ _ _ _ _ _ _).trans ?_)
  split
  · exact HoldsKept.refl s
  · exact hstats s _ _ _ _

/-- Ending the meter's set touches nothing that a warm reset keeps. -/
theorem HoldsKept.itmEnd (s : State) (r : Nat) : HoldsKept (s.itmEnd r) s := by
  unfold State.itmEnd State.itmStart; dsimp only
  split
  · exact ((HoldsKept.setReg _ _ _ _ (by decide) (by decide)).trans (HoldsKept.setItm _ _)).trans (HoldsKept.itmShown s r)
  · split
    · exact (((HoldsKept.setReg _ _ _ _ (by decide) (by decide)).trans (HoldsKept.setItm _ _)).trans (HoldsKept.setItm _ _)).trans
        (HoldsKept.itmShown s r)
    · exact (HoldsKept.setItm _ _).trans (HoldsKept.itmShown s r)

/-- The state in which XO_LOSS resets the part. -/
def State.xoGone (s : State) : State :=
  let u := if s.itmBusy then s.itmEnd 2 else s
  { u with sys := { u.sys with xo := false } }

theorem doXoLoss_eq (s : State) (h : s.startState = 3) : doXoLoss s = s.xoGone.warmReset 7 := by
  unfold doXoLoss; exact if_neg (fun hn => hn h)

theorem HoldsKept.xoGone (s : State) : HoldsKept s.xoGone s := by
  have hxo : ∀ u : State, HoldsKept { u with sys := { u.sys with xo := false } } u := fun u => { HoldsKept.refl u with }
  unfold State.xoGone; dsimp only
  refine (hxo _).trans ?_
  split
  · exact HoldsKept.itmEnd s 2
  · exact HoldsKept.refl s

/-! ### What a warm reset leaves -/

/-- What a warm reset of `s` with a cause leaves (R585, R592). -/
structure WarmStart (t s : State) (cause : Nat) : Prop where
  clk : t.clk = s.clk
  blocks : t.blocksStart
  pend : t.pend = []
  hst : t.hst = { Hst.start with numVf := s.hst.numVf, linkRate := s.hst.linkRate, linkWidth := s.hst.linkWidth }
  slewLeft : t.tme.slewLeft = s.tme.slewLeft
  first : t.cairn.first = s.cairn.first
  last : t.cairn.last = s.cairn.last
  mirror : t.cairn.mirror = s.cairn.mirror
  causeShown : t.reg .SYS_START_REASON_CAUSE = cause
  startShown : t.reg .SYS_STATUS_START = 0
  warm : t.sys.warm = true
  held : t.sys.held = false
  holdover0 : t.reg .REF_DPLL_STATUS_STATE 0 = 4
  holdover1 : t.reg .REF_DPLL_STATUS_STATE 1 = 4
  kept : ∀ f k, f ∈ warmFields → reasonField f = false → k < 8192 → t.reg f k = s.reg f k

/-- What is left does not depend on more of the state before than a warm reset keeps. -/
theorem WarmStart.of_holdsKept {t u s : State} {cause : Nat} (h : WarmStart t u cause) (g : HoldsKept u s) : WarmStart t s cause :=
  { h with
    clk := h.clk.trans g.clk
    hst := by rw [h.hst, g.numVf, g.linkRate, g.linkWidth]
    slewLeft := h.slewLeft.trans g.slewLeft
    first := h.first.trans g.first
    last := h.last.trans g.last
    mirror := h.mirror.trans g.mirror
    kept := fun f k hf hr hk => (h.kept f k hf hr hk).trans (g.reg f k hf hk) }

/-- A kept register reads as before when the rest has been cleared. -/
theorem warmClear_reg (s : State) (f : Fld) (k : Nat) (hf : f ∈ warmFields) (hk : k < 8192) : s.warmClear.reg f k = s.reg f k := by
  rw [(warmClear_spec s).1.2 f k (not_warmShown_of_warmFields hf) (isAccount_of_warmFields hf) hk]
  exact (keepRegs_get s warmFields f k hk).trans (if_pos hf)

/-- What the clearing of a warm reset leaves beside the registers, as `p` reads it from the accounts' frame. -/
theorem warmClear_body {β : Type} (p : State → β) (hp : ∀ (u : State) (r : Ref) (c : Chk), p { u.body with ref := r, chk := c } = p u)
    (s : State) : p s.warmClear = p (warmBase s) := by
  have hb := (warmClear_spec s).1.1
  have h1 : p s.warmClear.body = p s.warmClear := hp s.warmClear _ _
  rw [← h1, hb]
  exact hp (warmBase s) _ _

/-- A warm reset while internal reset is not held and fewer than three starts have failed. -/
theorem warmReset_spec (s : State) (cause : Nat) (hc : cause < 256) (hh : s.sys.held = false) (hn : s.reg .SYS_START_REASON_COUNT < 3) :
    WarmStart (s.warmReset cause) s cause := by
  have hcount : s.warmClear.reg .SYS_START_REASON_COUNT < 3 := by rw [warmClear_reg s _ _ count_mem_warmFields (by decide)]; exact hn
  have hreset : s.warmReset cause = s.warmClear.beginStart cause := if_neg (by rw [hh]; decide)
  have hkeep : ∀ {β : Type} (p : State → β),
      (∀ (u : State) r o x y, p { u with regs := r, out := o, sys := { u.sys with stateAt := x, startAt := y } } = p u) →
      (∀ (u : State) (r : Ref) (c : Chk), p { u.body with ref := r, chk := c } = p u) →
      p (s.warmClear.beginStart cause) = p (warmBase s) := fun p h1 h2 =>
    (beginStart_keep p h1 s.warmClear cause hcount).trans (warmClear_body p h2 s)
  have hstart := beginStart_start s.warmClear cause hc hcount
  have hdpll : ∀ d, d < 8192 → (s.warmClear.beginStart cause).reg .REF_DPLL_STATUS_STATE d = s.warmClear.reg .REF_DPLL_STATUS_STATE d :=
    fun d hd => beginStart_reg s.warmClear cause hcount _ d hd (by decide)
  rw [hreset]
  exact
    { clk := hkeep State.clk (fun _ _ _ _ _ => rfl) fun _ _ _ => rfl
      blocks := cast (hkeep State.blocksStart (fun _ _ _ _ _ => rfl) fun _ _ _ => rfl).symm
        ⟨rfl, rfl, rfl, rfl, rfl, rfl, rfl, rfl, rfl, rfl, rfl, rfl, rfl, rfl⟩
      pend := hkeep State.pend (fun _ _ _ _ _ => rfl) fun _ _ _ => rfl
      hst := hkeep State.hst (fun _ _ _ _ _ => rfl) fun _ _ _ => rfl
      slewLeft := hkeep (fun t => t.tme.slewLeft) (fun _ _ _ _ _ => rfl) fun _ _ _ => rfl
      first := hkeep (fun t => t.cairn.first) (fun _ _ _ _ _ => rfl) fun _ _ _ => rfl
      last := hkeep (fun t => t.cairn.last) (fun _ _ _ _ _ => rfl) fun _ _ _ => rfl
      mirror := hkeep (fun t => t.cairn.mirror) (fun _ _ _ _ _ => rfl) fun _ _ _ => rfl
      causeShown := hstart.2.1
      startShown := hstart.1
      warm := hkeep (fun t => t.sys.warm) (fun _ _ _ _ _ => rfl) fun _ _ _ => rfl
      held := hkeep (fun t => t.sys.held) (fun _ _ _ _ _ => rfl) fun _ _ _ => rfl
      holdover0 := (hdpll 0 (by decide)).trans (warmClear_spec s).2.1
      holdover1 := (hdpll 1 (by decide)).trans (warmClear_spec s).2.2
      kept := fun f k hf hr hk => (beginStart_reg s.warmClear cause hcount f k hk (not_startShown_of_warmFields hf hr)).trans
        (warmClear_reg s f k hf hk) }

/-- A second expiry of a core's watchdog within 60 s in service is a warm reset. -/
theorem doWatchdogExpiry_second (s : State) (c : Nat) (hc : c < 4) (h3 : s.reg .SYS_STATUS_START = 3) (hw : s.sys.watchAt ≠ 0)
    (hl : s.clk.tickCount + 1 ≤ s.sys.watchAt + 60000000) : doWatchdogExpiry c s = s.warmReset 5 := by
  have hstart : s.startState = 3 := h3
  unfold doWatchdogExpiry State.starting; dsimp only
  rw [if_neg (by omega), if_neg (by rw [hstart]; simp), if_neg (fun h => h hstart), if_pos ⟨hw, by omega⟩]

/-- The three causes of a warm reset. -/
theorem exec_warmReset {i : Instr} {s : State} {cause : Nat}
    (h : (∃ who, i = .sysResetWarm who ∧ (who = 0 ∨ who = 16 ∨ who = 21) ∧ cause = 4) ∨
      (∃ c, i = .watchdogExpiry c ∧ c < 4 ∧ s.reg .SYS_STATUS_START = 3 ∧ s.sys.watchAt ≠ 0 ∧
        s.clk.tickCount + 1 ≤ s.sys.watchAt + 60000000 ∧ cause = 5) ∨
      (i = .xoLoss ∧ s.reg .SYS_STATUS_START = 3 ∧ cause = 7)) :
    ∃ f u, exec i s = runReset f s ∧ f s = u.warmReset cause ∧ HoldsKept u s ∧ cause < 256 := by
  rcases h with ⟨who, rfl, hw, rfl⟩ | ⟨c, rfl, hc, h3, hw, hl, rfl⟩ | ⟨rfl, h3, rfl⟩
  · have hp : startWriter who = true := by rcases hw with rfl | rfl | rfl <;> decide
    exact ⟨doSysResetWarm who, s, rfl, if_pos hp, HoldsKept.refl s, by decide⟩
  · exact ⟨doWatchdogExpiry c, s, rfl, doWatchdogExpiry_second s c hc h3 hw hl, HoldsKept.refl s, by decide⟩
  · exact ⟨doXoLoss, s.xoGone, rfl, doXoLoss_eq s h3, HoldsKept.xoGone s, by decide⟩

/-- Settles O21: each cause resets a state that holds what a warm reset of `s` keeps. -/
theorem warmResetKeeps : Obligations.WarmResetKeeps := by
  unfold Obligations.WarmResetKeeps
  intro i s cause hi hh hn
  obtain ⟨f, u, he, hf, hu, hc⟩ := exec_warmReset hi
  have hcount : u.reg .SYS_START_REASON_COUNT < 3 := by rw [hu.reg _ _ count_mem_warmFields (by decide)]; exact hn
  have h : WarmStart (f s) s cause := hf ▸ (warmReset_spec u cause hc (hu.held.trans hh) hcount).of_holdsKept hu
  exact ⟨_, he, rfl, if_pos h.clk, h.blocks, h.pend, h.hst, h.slewLeft, h.first, h.last, h.mirror, h.causeShown, h.startShown,
    h.warm, h.held, h.holdover0, h.holdover1, h.kept⟩

end Machine
end Sys2Proof
end

section
/-!
PROOFS. The rows of the classifier's stores (R44, R238-R241) and of the Cistern arbiter (R245-R252): which of its branches a
row takes, and that what a contest does beyond the grant is in the accounts.
-/
namespace Sys2Proof
namespace Machine

/-! ### Placement query (R240) -/

/-- The query's FLOW field holds every flow number. -/
theorem reg_placeQueryFlow (s : State) {flow : Nat} (h : flow < 2 ^ 23) :
    (s.setReg .CLS_PLACE_QUERY_FLOW 0 flow).reg .CLS_PLACE_QUERY_FLOW 0 = flow :=
  (State.reg_setReg s _ 0 flow).trans (Nat.mod_eq_of_lt h)

/-! ### Refetches of an entry (R44, R107) -/

/-- Every version of generation `g` of an entry gives way to `v`. -/
def State.putVer (s : State) (t i g : Nat) (v : Ver) : State :=
  s.setVers t i ((s.vers t i).map fun u => if u.gen = g then v else u)

/-- The refetch of version `v` is to be tried again: its last read failed, and the tick after that has come. -/
def Ver.retryDue (v : Ver) (now : Nat) : Prop := v.state = 1 ∧ v.at_ ≠ 0 ∧ v.at_ ≤ now

/-- No new try before it is due, nor of an entry that is not invalid. -/
theorem doRefetchRetry_early (s : State) {t i : Nat} {v : Ver} (hv : (s.vers t i).getLast? = some v)
    (h : v.state ≠ 1 ∨ v.at_ = 0 ∨ s.clk.tickCount < v.at_) : doRefetchRetry t i s = s := by
  unfold doRefetchRetry; dsimp only
  rw [hv]
  exact if_pos h

/-- A retry that is due takes the entry to FAILED, or counts a try and reads again where there is an entry to read. -/
theorem doRefetchRetry_due (s : State) {t i : Nat} {v : Ver} (hv : (s.vers t i).getLast? = some v) (h : v.retryDue s.clk.tickCount) :
    doRefetchRetry t i s =
      if tget 0 s.hst.shadowOwner t = 0 ∨ 8 ≤ v.tries then
        ((s.putVer t i v.gen { v with state := 2, at_ := 0 }).failedEvent t i).flowFailed t i
      else (s.shadowOf t i).elim (s.putVer t i v.gen { v with tries := v.tries + 1, at_ := s.clk.tickCount + 1 })
        fun f => (s.putVer t i v.gen { v with tries := v.tries + 1, at_ := 0 }).shadowRead t i f := by
  obtain ⟨hs, ha, hnow⟩ := h
  unfold doRefetchRetry; dsimp only
  rw [hv]; dsimp only
  rw [if_neg (by omega)]
  unfold State.putVer
  cases s.shadowOf t i with
  | none => rw [Option.elim_none]
  | some f => rw [Option.elim_some]

/-- A due retry with tries left, under a registration, is another try. -/
theorem doRefetchRetry_again (s : State) {t i : Nat} {v : Ver} (hv : (s.vers t i).getLast? = some v) (h : v.retryDue s.clk.tickCount)
    (ho : tget 0 s.hst.shadowOwner t ≠ 0) (hn : v.tries < 8) :
    doRefetchRetry t i s = (s.shadowOf t i).elim (s.putVer t i v.gen { v with tries := v.tries + 1, at_ := s.clk.tickCount + 1 })
      fun f => (s.putVer t i v.gen { v with tries := v.tries + 1, at_ := 0 }).shadowRead t i f := by
  rw [doRefetchRetry_due s hv h, if_neg (by omega)]

/-- An entry that is not a flow's has no placement to fail. -/
theorem flowFailed_of_ne (s : State) {t : Nat} (i : Nat) (h : t ≠ 3) : s.flowFailed t i = s := if_neg h

/-- A due retry without tries left, or without a registration, fails the entry; the rest is its event. -/
theorem agree_doRefetchRetry_failed (s : State) {t i : Nat} {v : Ver} (hv : (s.vers t i).getLast? = some v)
    (h : v.retryDue s.clk.tickCount) (ht : t ≠ 3) (hf : tget 0 s.hst.shadowOwner t = 0 ∨ 8 ≤ v.tries) :
    Agree (doRefetchRetry t i s) (s.putVer t i v.gen { v with state := 2, at_ := 0 }) := by
  rw [doRefetchRetry_due s hv h, if_pos hf, flowFailed_of_ne _ i ht]
  exact agree_failedEvent _ t i

/-! ### The Cistern arbiter (R245-R251) -/

theorem arbStore_of_lt (s : State) {x : ArbWrite} (h : x.n < 8) :
    s.arbStore x = s.setRegs [(.CIS_ARB_CFG_WEIGHT, x.n, x.weight), (.CIS_ARB_CFG_BURST, x.n, if x.burst % 16 = 0 then 1 else x.burst),
      (.CIS_ARB_CFG_WAIT_LIMIT, x.n, x.limit)] := if_neg (by omega)

theorem arbClamp_of_lt (s : State) {x : ArbWrite} (h : x.n < 8) : s.arbClamp x = s.setCredit x.n (s.credit x.n) := if_neg (by omega)

/-- The requesters that take part in a contest: the bank of their next line has an access left. -/
def State.contenders (s : State) : List Nat := (List.range 8).filter fun n => !(s.burstLines 1 (s.nextBanks n)).isEmpty

/-- The grant of a contest to `w`, before the burst is charged: its lines leave the queue, the wait counts move, and the banks
serve the lines. -/
def State.granted (s : State) (w : Nat) : State :=
  let lines := s.burstLines 8 (s.nextBanks w)
  let u : State := { s with cls := { s.cls with asks := tset [] w (takeRun lines.length (tget [] s.cls.asks w)).2 s.cls.asks } }
  lines.foldl (fun (u : State) b => u.bankAccess b)
    (s.contenders.foldl (fun (u : State) n => if n = w then u.setReg .CIS_ARB_STAT_WAIT n 0 else u.countReg .CIS_ARB_STAT_WAIT n 1) u)

/-- The burst of a contest is charged to `w`, one a line; a write that came meanwhile is stored before that, and clamps the
credit after it. -/
def State.chargeBurst (s : State) (w lines : Nat) (x : Option ArbWrite) : State :=
  let u := x.elim s s.arbStore
  let u := u.setCredit w (u.credit w - lines)
  x.elim u u.arbClamp

/-- The counts of a burst's lines and of the burst are accounts. -/
theorem agree_contestTally (s : State) (w lines : Nat) : Agree ((s.tally 14 1 1 0 0 w lines).tally 14 2 1 0 0 w 1) s :=
  (agree_tally _ _ _ _ _ _ _ (by decide)).trans (agree_tally _ _ _ _ _ _ _ (by decide))

/-- The count and the event of a grant that a wait limit forced are accounts. -/
theorem Agree.forcedGrant {t s : State} (h : Agree t s) (w : Nat) (forced : Bool) (l : List (Nat × Nat × Mg)) :
    Agree (if forced then (t.tally 14 3 1 0 0 w 1).evT 65 l else t) s := by
  split
  · exact (agree_evT _ _ _).trans ((agree_tally _ _ _ _ _ _ _ (by decide)).trans h)
  · exact h

/-- A contest with a winner grants it its burst and charges it. -/
theorem agree_doArbContest_winner (s : State) (x : Option ArbWrite) {w : Nat} {forced : Bool}
    (h : s.arbWinner s.contenders = some (w, forced)) :
    Agree (doArbContest x s) ((s.granted w).chargeBurst w (s.burstLines 8 (s.nextBanks w)).length x) := by
  unfold State.contenders at h
  unfold doArbContest; dsimp only
  rw [h]
  exact (agree_contestTally _ w _).forcedGrant w forced _

/-- A contest without a winner leaves only the write that comes with it. -/
theorem doArbContest_none (s : State) (x : Option ArbWrite) (h : s.arbWinner s.contenders = none) :
    doArbContest x s = x.elim s fun y => (s.arbStore y).arbClamp y := by
  unfold State.contenders at h
  unfold doArbContest; dsimp only
  rw [h]

/-- Settles O30: each row is the branch its conditions select, and differs from the state it is to yield in accounts only. -/
theorem storeRowsComplete : Obligations.StoreRowsComplete := by
  unfold Obligations.StoreRowsComplete
  refine ⟨?placeQuery, ?refetchOk, ?refetchError, ?retryRead, ?retryUnread, ?retryFailed, ?retryEarly, ?scrub, ?arbCfg, ?contest,
    ?noContest, ?hbm⟩
  case placeQuery =>
    intro s flow h
    refine yields_run (f := doPlaceQuery flow) rfl ?_
    unfold doPlaceQuery; dsimp only
    rw [reg_placeQueryFlow s h]
    exact Agree.refl _
  case refetchOk =>
    intro s t i v b hv hs ht
    refine yields_run (f := doRefetchDone t i (.ok b)) rfl ?_
    unfold doRefetchDone; dsimp only
    rw [hv]; dsimp only
    rw [if_neg (not_not_intro hs), if_neg ht]
    exact Agree.refl _
  case refetchError =>
    intro s t i v hv hs
    refine yields_run (f := doRefetchDone t i .error) rfl ?_
    unfold doRefetchDone; dsimp only
    rw [hv]; dsimp only
    rw [if_neg (not_not_intro hs)]
    exact agree_dmaError _ _ _ _
  case retryRead =>
    intro s t i f v hv hs ha hd ho hn hf
    refine yields_run (f := doRefetchRetry t i) rfl ?_
    rw [doRefetchRetry_again s hv ⟨hs, ha, hd⟩ ho hn, hf, Option.elim_some]
    exact Agree.refl _
  case retryUnread =>
    intro s t i v hv hs ha hd ho hn hf
    refine yields_run (f := doRefetchRetry t i) rfl ?_
    rw [doRefetchRetry_again s hv ⟨hs, ha, hd⟩ ho hn, hf, Option.elim_none]
    exact Agree.refl _
  case retryFailed =>
    intro s t i v hv hs ha hd ht hf
    exact yields_run (f := doRefetchRetry t i) rfl (agree_doRefetchRetry_failed s hv ⟨hs, ha, hd⟩ ht hf)
  case retryEarly =>
    intro s t i v hv h
    refine yields_run (f := doRefetchRetry t i) rfl ?_
    rw [doRefetchRetry_early s hv h]
    exact Agree.refl s
  case scrub =>
    intro s damaged hon hdue
    refine yields_run (f := doScrubPass damaged) rfl ?_
    unfold doScrubPass; dsimp only
    rw [if_neg (by omega)]
    exact Agree.refl _
  case arbCfg =>
    intro s n weight burst limit hn
    refine yields_run (f := doArbCfgWrite n weight burst limit) rfl ?_
    unfold doArbCfgWrite
    rw [arbClamp_of_lt _ hn, arbStore_of_lt _ hn]
    exact Agree.refl _
  case contest =>
    rintro s _ w forced rfl hw
    refine ⟨yields_run (f := doArbContest none) rfl (agree_doArbContest_winner s none hw), fun y hy => ?_⟩
    refine yields_run (f := doArbContest (some y)) rfl ((agree_doArbContest_winner s (some y) hw).trans ?_)
    unfold State.chargeBurst; dsimp only [Option.elim]
    rw [arbClamp_of_lt _ hy, arbStore_of_lt _ hy]
    exact Agree.refl _
  case noContest =>
    intro s h
    refine ⟨yields_run (f := doArbContest none) rfl ?_, fun n weight burst limit =>
      yields_run (f := doArbContest (some ⟨n, weight, burst, limit⟩)) rfl ?_⟩ <;> rw [doArbContest_none s _ h]
    · exact Agree.refl s
    · exact Agree.refl _
  case hbm =>
    exact fun s channel kind => yields_run (f := doHbmInterfaceError channel kind) rfl (agree_ev s _ _)

end Machine
end Sys2Proof
end

section
/-!
PROOFS. The clock over a step (R16, R46-R48, R379, R585): what each kind of row does to it, and from that the invariant of the
clock, the rows that alone move it, and the count of ticks.
-/
namespace Sys2Proof
namespace Machine

/-! ### The three kinds of row -/

/-- A row that neither makes time pass nor can reset the part. -/
theorem exec_run (i : Instr) (hm : movesTime i = false) (hr : mayRestart i = false) : ∃ f, ∀ s, exec i s = run f s := by
  cases i
  case tickBoundary | quietWindowCapture | timeStepApply | longOpShare => cases hm
  case powerOn | railFault | resetPin | internalResetRelease | thermalTrip | thermalHoldRelease | sysResetWarm | sysResetCold |
      watchdogExpiry | xoLoss | registerWrite | loWrite | hiWrite | mctpWrite32 => cases hr
  all_goals exact ⟨_, fun _ => rfl⟩

/-- A row that only runs its work leaves the clock. -/
theorem run_clk {f : State → State} {s t : State} (h : run f s = .next t) : t.clk = s.clk := by
  cases h; rfl

/-- A row that makes time pass leaves the clock of its work. -/
theorem runTick_clk {f : State → State} {s t : State} (h : runTick f s = .next t) : t.clk = (f s).clk := by
  cases h; rfl

/-- On an empty queue a step is an idle cycle. -/
theorem step_idle {s : State} (hp : s.pending = []) : step s = runTick doIdle s := by
  unfold step; rw [hp]

/-- What a step runs: an idle cycle on an empty queue, else the command at its front on the rest. -/
theorem step_cases {s t : State} (h : step s = .next t) :
    (s.pending = [] ∧ runTick doIdle s = .next t) ∨
      ∃ i rest, s.pending = i :: rest ∧ exec i { s with pending := rest } = .next t := by
  cases hp : s.pending with
  | nil => exact .inl ⟨rfl, (step_idle hp).symm.trans h⟩
  | cons i rest => unfold step at h; rw [hp] at h; exact .inr ⟨i, rest, rfl, h⟩

/-- Settles O6: a row that neither makes time pass nor can reset the part only runs its work. -/
theorem onlyTimeRowsMoveClock : Obligations.OnlyTimeRowsMoveClock := by
  unfold Obligations.OnlyTimeRowsMoveClock
  intro i s t he hm
  cases hr : mayRestart i with
  | false =>
    obtain ⟨f, hf⟩ := exec_run i hm hr
    exact .inl (run_clk ((hf s).symm.trans he))
  | true => exact (exec_clk i s t hm he).imp_right fun hc => ⟨rfl, hc⟩

/-! ### The invariant -/

/-- The clock of a reset is in order. -/
theorem clockOk_start : Clock.ok Clock.start := ⟨Nat.zero_le _, ⟨100, rfl⟩, Nat.zero_le _⟩

/-- Settles O3: after reset the clock is that of a reset. -/
theorem clockOkAtReset : Obligations.ClockOkAtReset := clockOk_start

/-- LONG_OP_SHARE runs time to the cycle of the shares, if it does anything. -/
theorem doLongOpShare_clk (reads : List (Nat × List FlowRead)) (s : State) :
    (doLongOpShare reads s).clk = s.clk ∨ (doLongOpShare reads s).clk = (s.reachExec.runTo s.reachExec.shareCycle).clk := by
  unfold doLongOpShare
  split
  · exact .inl rfl
  · right; dsimp only; rw [State.still_clk, passed_clk]

/-- Every command keeps the clock in order. -/
theorem clockOk_exec {i : Instr} {s t : State} (h : Clock.ok s.clk) (he : exec i s = .next t) : Clock.ok t.clk := by
  cases hm : movesTime i with
  | false =>
    rcases exec_clk i s t hm he with hc | hc <;> rw [hc]
    · exact h
    · exact clockOk_start
  | true =>
    cases i
    case tickBoundary x => rw [runTick_clk he]; exact clockOk_boundary x h
    case quietWindowCapture => rw [runTick_clk he]; exact clockOk_capture h
    case timeStepApply => rw [runTick_clk he]; exact clockOk_stepApply h
    case longOpShare reads =>
      rw [runTick_clk he]
      rcases doLongOpShare_clk reads s with hc | hc <;> rw [hc]
      · exact h
      · exact clockOk_runTo (clockOk_reachExec h) _
    all_goals cases hm

/-- Settles O4: an idle cycle keeps the clock in order, and so does every command. -/
theorem stepKeepsClockOk : Obligations.StepKeepsClockOk := by
  unfold Obligations.StepKeepsClockOk
  intro s t h hs
  rcases step_cases hs with ⟨-, he⟩ | ⟨i, rest, -, he⟩
  · rw [runTick_clk he]; exact clockOk_idle h
  · exact clockOk_exec (s := { s with pending := rest }) h he

/-! ### The count of ticks (R47) -/

/-- Every command leaves the tick count, or is the boundary, or restarts the clock. -/
theorem exec_tickCount {i : Instr} {s t : State} (he : exec i s = .next t) :
    t.clk.tickCount = s.clk.tickCount ∨ (t.clk.tickCount = s.clk.tickCount + 1 ∧ ∃ x, i = .tickBoundary x) ∨
      (t.clk = Clock.start ∧ mayRestart i = true) := by
  cases hm : movesTime i with
  | false =>
    rcases onlyTimeRowsMoveClock i s t he hm with hc | ⟨hr, hc⟩
    · rw [hc]; exact .inl rfl
    · exact .inr (.inr ⟨hc, hr⟩)
  | true =>
    cases i
    case tickBoundary x =>
      rw [runTick_clk he]
      cases hh : s.sys.held with
      | true => unfold doTickBoundary; rw [hh]; exact .inl rfl
      | false => exact .inr (.inl ⟨boundary_tickCount x s hh, x, rfl⟩)
    case quietWindowCapture => rw [runTick_clk he]; exact .inl (capture_tickCount s)
    case timeStepApply => rw [runTick_clk he]; exact .inl (stepApply_tickCount s)
    case longOpShare reads =>
      rw [runTick_clk he]
      left
      rcases doLongOpShare_clk reads s with hc | hc <;> rw [hc]
      unfold State.runTo
      rw [runTime_tickCount, reachExec_tickCount]
    all_goals cases hm

/-- The tick number at a boundary is the whole part of time in units of 1,000 ns. -/
theorem boundary_tick (x : BoundaryIn) (s : State) (h : s.sys.held = false) :
    (doTickBoundary x s).clk.tick = (doTickBoundary x s).clk.acc / 2 ^ 40 / 1000 := by
  unfold doTickBoundary; rw [h]; rfl

/-- Settles O10: the boundary adds one to the count and renumbers the tick; every other step keeps the count or restarts it. -/
theorem tickCountRisesByOnePerBoundary : Obligations.TickCountRisesByOnePerBoundary := by
  unfold Obligations.TickCountRisesByOnePerBoundary
  refine ⟨fun s => ⟨rfl, rfl⟩, fun s x hh => ⟨_, rfl, boundary_tickCount x s hh, ?_⟩, fun s t hs => ?_⟩
  · have ht := boundary_tick x s hh
    dsimp only
    omega
  · rcases step_cases hs with ⟨-, he⟩ | ⟨i, rest, hp, he⟩
    · rw [runTick_clk he]; exact .inl (idle_tickCount s)
    · rcases exec_tickCount he with hc | ⟨hc, x, rfl⟩ | ⟨hc, hr⟩
      · exact .inl hc
      · exact .inr (.inl ⟨hc, x, rest, hp⟩)
      · exact .inr (.inr ⟨hc, i, rest, hp, hr⟩)

/-! ### The idle step (R48) -/

/-- In internal reset and at the last CORE cycle of the tick an idle step changes nothing. -/
theorem doIdle_stays {s : State} (h : s.sys.held = true ∨ s.clk.tickLen ≤ s.clk.cycle + 1) : doIdle s = s := by
  unfold doIdle; exact if_pos h

/-- Settles O2: the step on an empty queue is `doIdle`. -/
theorem idleStepPassesOneCycle : Obligations.IdleStepPassesOneCycle := by
  unfold Obligations.IdleStepPassesOneCycle
  intro s hp
  refine ⟨{ doIdle s with pending := s.pending }, step_idle hp, hp, fun h => ?_, fun hh hc => idle_cycle s hh hc⟩
  rw [doIdle_stays h]

end Machine
end Sys2Proof
end

section
/-!
PROOFS. The rows that make time pass (R46-R48, R58, R59, R141, R379): the boundary, the quiet window and the steps of time, with
what each does and when it does nothing.
-/
namespace Sys2Proof
namespace Machine

/-- A row of time whose work leaves the state alone answers that state. -/
theorem runTick_self {f : State → State} {s : State} (h : f s = s) : runTick f s = .next s := by
  unfold runTick; rw [h]

/-! ### The boundary -/

/-- The work of a boundary, in internal reset none. -/
theorem doTickBoundary_held (x : BoundaryIn) {s : State} (h : s.sys.held = true) : doTickBoundary x s = s := by
  unfold doTickBoundary; exact if_pos h

/-- The boundary out of internal reset: the capture and the rest of the tick, its end, then the work of the tick that begins. -/
theorem doTickBoundary_runs (x : BoundaryIn) {s : State} (h : s.sys.held = false) :
    doTickBoundary x s =
      (let u := (doQuietWindowCapture s).runToEnd
       let v : State := { State.still State.endTick u with clk := u.clk.advance }
       State.still (fun s => s.boundaryWork x u.clk.cycle)
         (State.still (fun s => s.applyTick u.clk.tick x.overrun u.switchWaited) v).setTickLen) := by
  unfold doTickBoundary
  rw [if_neg (by rw [h]; decide)]
  dsimp only [State.still_clk]

/-! ### The quiet window -/

/-- The capture of a tick, made once and not in internal reset. -/
theorem doQuietWindowCapture_stays {s : State} (h : s.sys.held = true ∨ s.captureMade = true) : doQuietWindowCapture s = s := by
  unfold doQuietWindowCapture; exact if_pos h

/-- The capture that is still to be made. -/
theorem doQuietWindowCapture_makes {s : State} (h : s.sys.held = false) (hc : s.captureMade = false) :
    doQuietWindowCapture s = State.still State.capture (s.reachExec.runTo (s.reachExec.clk.tickLen - 64)).cyclePassed := by
  unfold doQuietWindowCapture; exact if_neg (by rw [h, hc]; decide)

/-! ### Steps of time -/

/-- With no step due, past CORE cycle 16 or in internal reset, none is applied. -/
theorem doTimeStepApply_stays {s : State} (h : s.sys.held = true ∨ s.stepsDue = [] ∨ 16 < s.clk.cycle) : doTimeStepApply s = s := by
  unfold doTimeStepApply
  exact if_pos (h.imp_right (.imp_left (by rintro e; rw [e]; rfl)))

/-- Steps that are due are applied at CORE cycle 16. -/
theorem doTimeStepApply_applies {s : State} (h : s.sys.held = false) (hd : s.stepsDue ≠ []) (hc : s.clk.cycle ≤ 16) :
    doTimeStepApply s = (s.leaveBoundary.runTo 16).cyclePassed.atExec := by
  unfold doTimeStepApply
  refine if_neg ?_
  rw [h, List.isEmpty_iff]
  rintro (hh | hh | hh)
  · exact absurd hh (by decide)
  · exact hd hh
  · omega

/-- What a step does to the clock (R379). -/
theorem stepOnce_clock (s : State) (r : StepReq) :
    (s.stepOnce r).clk.acc = r.apply s.clk.acc ∧ (s.stepOnce r).clk.tick = (s.stepOnce r).clk.acc / 2 ^ 40 / 1000 ∧
      (s.stepOnce r).clk.tickCount = s.clk.tickCount ∧ (s.stepOnce r).clk.cycle = s.clk.cycle := by
  rw [stepOnce_clk]; exact ⟨rfl, rfl, rfl, rfl⟩

/-- Settles O37: each row is the branch its conditions select. -/
theorem timeRowsComplete : Obligations.TimeRowsComplete := by
  unfold Obligations.TimeRowsComplete
  refine ⟨?boundary, ?capture, ?captured, ?apply, ?noStep, ?atExec, stepOnce_clock, ?held⟩
  case boundary =>
    intro s x h
    have hb := doTickBoundary_runs x h
    refine ⟨{ doTickBoundary x s with pending := s.pending }, rfl, rfl, ?_, boundary_tickCount x s h, boundary_tick x s h, ?_, ?_⟩
    · rw [hb]; rfl
    · rw [hb]; rfl
    · rw [hb]
  case capture =>
    intro s h hc
    show runTick doQuietWindowCapture s = _
    unfold runTick; rw [doQuietWindowCapture_makes h hc]
  case captured => exact fun s hc => runTick_self (doQuietWindowCapture_stays (.inr hc))
  case apply =>
    intro s h hd hc
    show runTick doTimeStepApply s = _
    unfold runTick; rw [doTimeStepApply_applies h hd hc]
  case noStep => exact fun s hc => runTick_self (doTimeStepApply_stays (.inr hc))
  case atExec => exact fun s => rfl
  case held =>
    exact fun s x h => ⟨runTick_self (doTickBoundary_held x h), runTick_self (doQuietWindowCapture_stays (.inl h)),
      runTick_self (doTimeStepApply_stays (.inl h))⟩

end Machine
end Sys2Proof
end

section
/-!
PROOFS. Generations (R64-R71, R113-R116, R135): a table update and what frames of each generation see of it; then the rows of the
switch, of the comparator and of long operations.
-/
namespace Sys2Proof
namespace Machine

/-- A command yields what its work answers. -/
theorem yields_eq {i : Instr} {s x : State} {f : State → State} (he : exec i s = run f s) (h : f s = x) : Yields i s x :=
  yields_run he (by rw [h]; exact Agree.refl x)

/-! ### Versions of an entry (R64) -/

/-- Keys of different entries differ. -/
theorem ekey_ne {t i t' i' : Nat} (hi : i < 2 ^ 23) (hi' : i' < 2 ^ 23) (h : (t', i') ≠ (t, i)) : ekey t' i' ≠ ekey t i := by
  unfold ekey
  intro e
  exact h (Prod.ext (by dsimp only; omega) (by dsimp only; omega))

/-- A version put last is seen from its generation on. -/
theorem verAt_putVer_of_le (l : List Ver) {v : Ver} {g : Nat} (h : v.gen ≤ g) : verAt (putVer l v) g = some v := by
  unfold verAt putVer
  rw [List.foldl_append, List.foldl_cons, List.foldl_nil, if_pos h]

/-- Older generations see what they saw before a version was put. -/
theorem verAt_putVer_of_lt (l : List Ver) {v : Ver} {g : Nat} (h : g < v.gen) : verAt (putVer l v) g = verAt l g := by
  unfold verAt putVer
  rw [List.foldl_append, List.foldl_cons, List.foldl_nil, if_neg (by omega)]
  refine foldl_ver g l none _ fun w _ hw => ?_
  rw [bne_eq_false_iff_eq] at hw
  omega

/-- The versions of an entry after its update. -/
theorem vers_update_self (s : State) (t i : Nat) (val : Option Line) (held : Bool) :
    (s.update t i val held).vers t i = putVer (s.vers t i) ⟨s.pendSeq, val, held, 0, 0, 0⟩ :=
  tget_tset_self _ _ _ _

/-- The versions of every other entry. -/
theorem vers_update_ne (s : State) {t i t' i' : Nat} (val : Option Line) (held : Bool) (h : ekey t' i' ≠ ekey t i) :
    (s.update t i val held).vers t' i' = s.vers t' i' :=
  tget_tset_ne _ _ _ h _

/-- Settles O7: the update puts one version of the pending generation. -/
theorem updateWritesPendingGeneration : Obligations.UpdateWritesPendingGeneration := by
  unfold Obligations.UpdateWritesPendingGeneration
  intro s t i val held hi
  refine ⟨rfl, fun g hg => ?_, fun g hg => ?_, fun t' i' g hi' h => ?_⟩ <;> unfold State.lookup
  · rw [vers_update_self]; exact verAt_putVer_of_le _ hg
  · rw [vers_update_self]; exact verAt_putVer_of_lt _ hg
  · rw [vers_update_ne s val held (ekey_ne hi hi' h)]

/-! ### The switch (R65-R68) -/

/-- The switch can take place when it is due and the pending generation's number has drained. -/
theorem switchReady_iff (s : State) : s.switchReady = true ↔ s.sys.switchDue = true ∧ s.drainOf s.pendSeq = 0 := by
  unfold State.switchReady; simp

/-- Reporting the stall changes only accounts. -/
theorem agree_stallEvent (s : State) : Agree s.stallEvent s := agree_ev _ _ _

/-! ### The comparator (R70-R73) -/

/-- A comparator arms at CORE cycle 0 once its instant's tick is the next. -/
theorem doComparatorArm_due {s : State} {t : Timed} (ht : s.sys.timed = some t) (ha : t.armed = false) (hc : s.clk.cycle = 0)
    (hi : instantTick t.instant ≤ s.clk.tick + 1) :
    doComparatorArm s =
      if s.drainOf s.pendSeq = 0 then { s with sys := { s.sys with timed := some { t with armed := true } } }
      else
        let s : State := { s with sys := { s.sys with
          timed := none, unheld := t.joined ++ s.sys.unheld, noAuto := s.sys.unheldAny } }
        (s.stallEvent.tally1 0 2 0).complete t.cmd stNOROOM s.commitResult := by
  unfold doComparatorArm
  rw [ht, hc]
  refine if_neg ?_
  rintro (h | h | h)
  · rw [ha] at h; exact absurd h (by decide)
  · exact absurd h (by simp)
  · omega

/-- A retirement is due: the comparator is armed, its instant has passed by a tick, and no step holds it back. -/
theorem retireDue_of {s : State} {t : Timed} (ht : s.sys.timed = some t) (ha : t.armed = true)
    (hi : t.instant + 1000 * 65536 ≤ s.grains) (hb : t.notBefore ≤ s.clk.tickCount) : s.retireDue = true := by
  unfold State.retireDue; rw [ht]; simp [ha, hi, hb]

/-- Agreeing states give a COMMIT_AT the same result. -/
theorem Agree.commitResult {t x : State} (h : Agree t x) : t.commitResult = x.commitResult := by
  unfold State.commitResult; rw [h.clk, h.sys]

/-- A retirement that is due makes the switch and completes its COMMIT_AT; an untraceable time only tells of it. -/
theorem agree_doComparatorRetire {s : State} {t : Timed} (ht : s.sys.timed = some t) (hc : s.clk.cycle = 0) (hr : s.retireDue = true)
    (ho : s.oldUnstamped t.instant = false) :
    Agree (doComparatorRetire s)
      (let u : State := { s.doSwitch with sys := { s.doSwitch.sys with timed := none } }
       u.complete t.cmd stOK u.commitResult) := by
  unfold doComparatorRetire
  rw [ht]; dsimp only
  rw [if_neg (by rw [hc, hr, ho]; decide)]
  have told (u : State) : Agree ((if u.traceable = true then u else u.commitEvent 4 0 (t.instant / 65536) t.tag).tally1 0 4 0) u := by
    refine (agree_tally1 _ _ _ (by decide)).trans ?_
    split
    · exact Agree.refl u
    · exact agree_commitEvent _ _ _ _ _
  have untallied (u : State) : (u.tally1 0 4 0).commitResult = u.commitResult := (agree_tally1 u 4 0 (by decide)).commitResult
  rw [← untallied, (told _).commitResult]
  exact (told _).complete _ _ _

/-! ### Long operations (R113-R117, R135) -/

/-- LONG_OP_SHARE past its cycle, a second time or in internal reset. -/
theorem doLongOpShare_stays (reads : List (Nat × List FlowRead)) {s : State}
    (h : s.sys.held = true ∨ s.shareCycle < s.clk.cycle ∨ s.hst.sharedAt = s.clk.tickCount + 1) : doLongOpShare reads s = s := by
  unfold doLongOpShare; exact if_pos h

/-- LONG_OP_SHARE that is due. -/
theorem doLongOpShare_takes (reads : List (Nat × List FlowRead)) {s : State} (h : s.sys.held = false) (hc : s.clk.cycle ≤ s.shareCycle)
    (hs : s.hst.sharedAt ≠ s.clk.tickCount + 1) :
    doLongOpShare reads s = State.still (fun u => u.sharesTaken reads) (s.reachExec.runTo s.reachExec.shareCycle).cyclePassed := by
  unfold doLongOpShare
  refine if_neg ?_
  rw [h]
  rintro (hh | hh | hh)
  · exact absurd hh (by decide)
  · omega
  · exact hs hh

/-- A slot reads what was last put there. -/
@[simp] theorem op_setOp_self (s : State) (k : Nat) (o : LongOp) : (s.setOp k o).op k = o := tget_tset_self _ _ _ _

/-- The boundary's part of LONG_OP_DONE. -/
theorem doLongOpDone_ended {s : State} {k st : Nat} (r : OpEnd) (hl : (s.op k).live = true) (hc : s.clk.cycle = 0)
    (he : (s.op k).ended = some st) (h3 : (s.op k).state ≠ 3) :
    doLongOpDone k r s = s.finishOp k (endState st) st (s.op k).result := by
  unfold doLongOpDone; dsimp only
  rw [if_neg (by rw [hl]; decide), if_neg (by omega), he]
  exact if_neg h3

/-- A scrub that finds no damage ends with the lines it checked. -/
theorem scrubEnds_undamaged {s : State} {k : Nat} (st : Nat) {r : OpEnd} (hl : (s.op k).live = true) (hd : r.damage = []) :
    s.scrubEnds k st r = s.setOp k { s.op k with ended := some st, result := le 4 r.a ++ le 4 0 } := by
  unfold State.scrubEnds; dsimp only
  rw [hd]
  exact if_pos hl

/-- An operation whose work has ended leaves its slot with its status and result. -/
theorem finishEnded_of {s : State} {k st : Nat} (he : (s.op k).ended = some st) :
    s.finishEnded k = s.finishOp k (endState st) st (s.op k).result := by
  unfold State.finishEnded; dsimp only; rw [he]

/-- A running scrub whose work has ended leaves its slot. -/
theorem doLongOpDone_scrub {s : State} {k : Nat} {r : OpEnd} (hl : (s.op k).live = true) (hc : s.clk.cycle = 0)
    (he : (s.op k).ended = none) (hn : (s.op k).cancelled = false) (h2 : (s.op k).state = 2) (ho : (s.op k).opcode = 0x80)
    (hd : r.damage = []) (hf : r.fault = false) :
    doLongOpDone k r s =
      (s.setOp k { s.op k with ended := some stOK, result := le 4 r.a ++ le 4 0 }).finishOp k (endState stOK) stOK
        (le 4 r.a ++ le 4 0) := by
  have hs : doLongOpDone k r s = (s.scrubEnds k stOK r).finishEnded k := by
    unfold doLongOpDone; dsimp only
    rw [if_neg (by rw [hl]; decide), if_neg (by omega), he]; dsimp only
    rw [if_neg (by rw [h2]; simp), hn, hf, ho]
    rfl
  rw [hs, scrubEnds_undamaged _ hl hd, finishEnded_of (st := stOK) (by rw [op_setOp_self]), op_setOp_self]

/-- Settles O38: each row is the branch its conditions select. -/
theorem generationRowsComplete : Obligations.GenerationRowsComplete := by
  unfold Obligations.GenerationRowsComplete
  refine ⟨?switch, ?noSwitch, ?stall, ?noStall, ?retire, ?noRetire, ?arm, ?comparatorRetire, ?share, ?noShare, fun _ _ => rfl, ?ended,
    ?scrub, ?suspend⟩
  case switch =>
    exact fun s hc hs hd => yields_eq (f := doGenerationSwitch) rfl (if_pos ⟨hc, (switchReady_iff s).2 ⟨hs, hd⟩⟩)
  case noSwitch =>
    refine fun s h => yields_eq (f := doGenerationSwitch) rfl (if_neg ?_)
    rw [switchReady_iff]
    rintro ⟨hc, hs, hd⟩
    rcases h with h | h | h
    · exact h hc
    · rw [h] at hs; exact absurd hs (by decide)
    · exact h hd
  case stall =>
    intro s hc hw hs ht hl
    refine yields_run (f := doGenerationStall) rfl ?_
    unfold doGenerationStall
    rw [if_pos ⟨hc, hw, hs, by rw [ht]; rfl, hl⟩]
    exact agree_stallEvent _
  case noStall =>
    refine fun s h => yields_eq (f := doGenerationStall) rfl (if_neg ?_)
    rintro ⟨hc, hw, hs, ht, hl⟩
    rcases h with h | ⟨h1, h2⟩ | h | h | h
    · exact h hc
    · rw [h1, h2] at hw; exact absurd hw (by decide)
    · exact hs h
    · rw [h] at ht; exact absurd ht (by decide)
    · omega
  case retire => exact fun s n hn hg hd => yields_eq (f := doGenerationRetire n) rfl (if_pos ⟨hn, hg, hd⟩)
  case noRetire =>
    exact fun s n h => yields_eq (f := doGenerationRetire n) rfl (if_neg fun ⟨_, hg, hd⟩ => h.elim hg fun h => h hd)
  case arm =>
    intro s t ht ha hc hi
    have harm := doComparatorArm_due ht ha hc hi
    refine ⟨fun hd => yields_eq (f := doComparatorArm) rfl ?_, fun hd => yields_run (f := doComparatorArm) rfl ?_⟩ <;> rw [harm]
    · exact if_pos hd
    · rw [if_neg hd]
      exact ((agree_tally1 _ _ _ (by decide)).trans (agree_stallEvent _)).complete _ _ _
  case comparatorRetire =>
    intro s t ht ha hc hi hb ho
    exact yields_run (f := doComparatorRetire) rfl (agree_doComparatorRetire ht hc (retireDue_of ht ha hi hb) ho)
  case share =>
    intro s reads h hc hs
    show runTick (doLongOpShare reads) s = _
    unfold runTick; rw [doLongOpShare_takes reads h hc hs]
  case noShare => exact fun s reads h => runTick_self (doLongOpShare_stays reads h)
  case ended => exact fun s k st r hl hc he h3 => yields_eq (f := doLongOpDone k r) rfl (doLongOpDone_ended r hl hc he h3)
  case scrub =>
    exact fun s k r hl hc he hn h2 ho hd hf => yields_eq (f := doLongOpDone k r) rfl (doLongOpDone_scrub hl hc he hn h2 ho hd hf)
  case suspend =>
    exact fun s k hc h3 hl hs he hn =>
      yields_eq (f := doSuspendTimeout k) rfl (if_pos ⟨hc, h3, hl, hs, by rw [he]; rfl, by rw [hn]; rfl⟩)

end Machine
end Sys2Proof
end

section
/-!
PROOFS. Igzozel's commands that end at once, that write tables and that wait for a boundary (R53, R64, R74, R90, R97, R117,
R129-R148): a descriptor that starts at once does its command's own work, and that is the state it is to yield.
-/
namespace Sys2Proof
namespace Machine

/-- A command that starts yields what its work answers. -/
theorem yields_work_eq {i : Instr} {s x : State} {h : Hdr} {sp : Spec} (hs : specOf i = some (h, sp)) (st : Starts s h sp)
    (hw : sp.work s.hst.nextId (s.charged h sp) = x) : Yields i s x :=
  yields_starts (exec_eq_issue i h sp s hs) st (by rw [hw]; exact Agree.refl x)

/-! ### Commands that end at once (R90, R117, R134) -/

/-- The work of a suspend, resume or cancel joins the requests of a live operation. -/
theorem opControl_work (h : Hdr) (opc kind handle id : Nat) (u : State) :
    (specOpControl h opc kind handle).work id u =
      let o := u.op (handle % 32)
      if 1 ≤ o.state ∧ o.state ≤ 3 then u.setOp (handle % 32) { o with reqs := o.reqs ++ [(kind, id)] }
      else u.complete id stOK [] := by
  unfold specOpControl LongOp.live; dsimp only
  simp only [decide_eq_true_eq]

/-- Settles O11: each command's work is the state it is to yield. -/
theorem shortCommandsComplete : Obligations.ShortCommandsComplete := by
  unfold Obligations.ShortCommandsComplete
  refine ⟨fun s h st => ?nop, fun s h handle opc kind i hi st => ?control, fun s h flow cache repl st => ?hint⟩
  case nop =>
    refine yields_work_eq rfl st ?_
    dsimp only [specNop]
  case control =>
    refine yields_work_eq ?_ st (opControl_work h opc kind handle _ _)
    rcases hi with ⟨rfl, rfl, rfl⟩ | ⟨rfl, rfl, rfl⟩ | ⟨rfl, rfl, rfl⟩ <;> rfl
  case hint =>
    refine yields_work_eq rfl st ?_
    generalize s.charged h _ = u
    dsimp only [specPlaceHint]; rfl

/-! ### Table commands (R129, R131, R225) -/

/-- The lines read for a GROUP_SET, one for each of the list. -/
theorem getD_range_map (ls : List HostRead) {lines k : Nat} (h : k < lines) :
    ((List.range lines).map fun k => ls.getD k .error).getD k .error = ls.getD k .error := by
  simp [List.getD_eq_getElem?_getD, h]

/-- The list lines of a GROUP_SET are written as they were read. -/
theorem foldl_groupLines (u : State) (list lines : Nat) (ls : List HostRead) (held : Bool) :
    (List.range lines).foldl (fun (s : State) k => s.update tList (list + k)
        (some (hostLine (((List.range lines).map fun k => ls.getD k .error).getD k .error))) held) u =
      (List.range lines).foldl (fun (s : State) k => s.update tList (list + k) (some (hostLine (ls.getD k .error))) held) u :=
  List.foldl_ext _ _ _ fun s k hk => by rw [getD_range_map ls (List.mem_range.1 hk)]

/-- Settles O12: each command's work writes its versions, and HOLD says when it completes. -/
theorem tableCommandsComplete : Obligations.TableCommandsComplete := by
  unfold Obligations.TableCommandsComplete
  refine ⟨fun s h i sp flow crc check r hi st => ?load, fun s h flow st => yields_work_eq rfl st rfl,
    fun s h group list lines g ls st => ?group⟩
  case load => rcases hi with ⟨rfl, rfl⟩ | ⟨rfl, rfl⟩ <;> exact yields_work_eq rfl st rfl
  case group =>
    refine yields_work_eq rfl st ?_
    unfold specGroupSet; dsimp only
    rw [foldl_groupLines]
    rfl

/-! ### Commands that wait for a boundary (R69-R74, R136-R148) -/

/-- The work of an accepted timed set; an untraceable time only tells of it. -/
theorem agree_timedAccept (u : State) (id tag instant : Nat) :
    Agree (u.timedAccept id tag instant)
      (let auto := u.sys.switchDue && u.sys.switchAuto
       let v : State := { u with sys := { u.sys with
         timed := some ⟨id, tag, instant, false, u.sys.unheld, 0⟩
         timedTick := true
         unheld := []
         switchDue := u.sys.switchDue && !auto
         switchAuto := false
         stall := if auto then 0 else u.sys.stall
         stallTold := u.sys.stallTold && !auto } }
       if auto then v.setReg .SYS_GEN_STALL_TICKS 0 0 else v) := by
  unfold State.timedAccept; dsimp only
  generalize (if (u.sys.switchDue && u.sys.switchAuto) = true then _ else _ : State) = w
  split
  · exact Agree.refl w
  · exact agree_commitEvent _ _ _ _ _

/-- Settles O14: each command's work adds what waits to the state of its fetch. -/
theorem boundaryCommandsAreAccepted : Obligations.BoundaryCommandsAreAccepted := by
  unfold Obligations.BoundaryCommandsAreAccepted
  refine ⟨?commitAt, ?timed, ?portSet, ?tioSet, ?refSet, ?setIncr, ?step, ?align, ?audit, ?clearFirst⟩
  case commitAt =>
    refine fun s h scope tick sec ns grain st => yields_work_eq rfl st ?_
    generalize s.charged h _ = u
    dsimp only [specCommitAt]; rfl
  case timed =>
    refine fun s h scope tick sec ns grain st => yields_starts rfl st ?_
    generalize s.charged h _ = u
    dsimp only [specCommitAt]
    exact agree_timedAccept u s.hst.nextId h.tag (instantGrains sec ns grain)
  case portSet =>
    refine fun s h port width rate fec flags mask st => yields_work_eq rfl st ?_
    generalize s.charged h _ = u
    dsimp only [specPortSet]
  case tioSet =>
    refine fun s h x st => yields_work_eq rfl st ?_
    generalize s.charged h _ = u
    dsimp only [specTioSet]; rfl
  case refSet =>
    refine fun s h d n rank revert soft hard qual bw st => yields_work_eq rfl st ?_
    generalize s.charged h _ = u
    dsimp only [specRefSet]; rfl
  case setIncr =>
    refine fun s h units incr ppb st => yields_work_eq rfl st ?_
    generalize s.charged h _ = u
    dsimp only [specTimeSetIncr, incrOfPpb]
  case step =>
    refine fun s h abs delta sec ns grain st => yields_work_eq rfl st ?_
    unfold specTimeStep; dsimp only
    rw [State.charged_clk]
  case align =>
    refine fun s h mask st => yields_work_eq rfl st ?_
    generalize s.charged h _ = u
    dsimp only [specOutAlign]
  case audit =>
    refine fun s h reclaim st => yields_work_eq rfl st ?_
    generalize s.charged h _ = u
    dsimp only [specAuditNow]
  case clearFirst =>
    refine fun s h confirm st => yields_work_eq rfl st ?_
    generalize s.charged h _ = u
    dsimp only [specCairnClearFirst]

end Machine
end Sys2Proof
end

section
/-!
PROOFS. The management endpoint's control messages and SYS_COMMIT (R57, R58, R539, R606).
-/
namespace Sys2Proof
namespace Machine

/-- SET_ENDPOINT_ID while internal reset is not held. -/
theorem doSetEndpointId_released (s : State) (eid : Nat) (h : s.sys.held = false) :
    doSetEndpointId eid s =
      (let u : State := { s with sys := { s.sys with mctpEid := eid % 256 } }
       (if s.sys.mctpEid ≠ 0 ∧ s.sys.mctpEid ≠ eid % 256 then u.abandon 21 else u).emit (.mctp 0 1 [0, 0, eid % 256, 0])) := by
  unfold doSetEndpointId
  rw [if_neg (by rw [h]; decide)]
  refine mctpAnswer_released _ _ _ _ ?_
  split
  · rw [abandon_sys]; exact h
  · exact h

/-- The registers of SYS_COMMIT hold what its write asks for. -/
def State.askCommit (s : State) (at_ tables : Bool) (scope : Nat) : State :=
  ((s.setReg .SYS_COMMIT_AT 0 (b2n at_)).setReg .SYS_COMMIT_TABLES 0 (b2n tables)).setReg .SYS_COMMIT_SCOPE 0 scope

/-- Every other register stands. -/
theorem askCommit_reg (s : State) (at_ tables : Bool) (scope : Nat) {f : Fld} {i : Nat} (hi : i < 8192)
    (hf : f ∉ [Fld.SYS_COMMIT_AT, .SYS_COMMIT_TABLES, .SYS_COMMIT_SCOPE]) : (s.askCommit at_ tables scope).reg f i = s.reg f i := by
  simp only [List.mem_cons, List.not_mem_nil, or_false, not_or] at hf
  obtain ⟨h1, h2, h3⟩ := hf
  unfold State.askCommit
  rw [State.reg_setReg_ne _ h3 _ (by decide) hi, State.reg_setReg_ne _ h2 _ (by decide) hi, State.reg_setReg_ne _ h1 _ (by decide) hi]

/-- SYS_COMMIT with GO: a commit under way stands and the request is only told of; else the commit that waits starts. -/
theorem agree_doSysCommit (s : State) (at_ tables : Bool) (scope : Nat) :
    Agree (doSysCommit at_ tables scope s)
      (let sc := setBits (scope % 2 ^ 19) 11 11 0
       let u := s.askCommit at_ tables sc
       if s.flag .SYS_COMMIT_STATUS_PENDING then u
       else if s.commitAtOpen then u.setReg .SYS_COMMIT_STATUS_RESULT 0 4
       else ({ u with sys := { u.sys with
         commit := some ⟨sc, if at_ then some (s.reg .SYS_COMMIT_AT_TICK) else none, tables, none, 0, s.skipsCapture⟩ } } : State).setReg
           .SYS_COMMIT_STATUS_PENDING 0 1) := by
  unfold doSysCommit
  dsimp only
  generalize setBits (scope % 2 ^ 19) 11 11 0 = sc
  have htick : (s.askCommit at_ tables sc).reg .SYS_COMMIT_AT_TICK = s.reg .SYS_COMMIT_AT_TICK :=
    askCommit_reg s at_ tables sc (by decide) (by decide)
  have hbusy : (s.askCommit at_ tables sc).flag .SYS_COMMIT_STATUS_PENDING = s.flag .SYS_COMMIT_STATUS_PENDING := by
    unfold State.flag; rw [askCommit_reg s at_ tables sc (by decide) (by decide)]
  have hopen : (s.askCommit at_ tables sc).commitAtOpen = s.commitAtOpen := rfl
  have hskip : (s.askCommit at_ tables sc).skipsCapture = s.skipsCapture := rfl
  rw [show s.setRegs [(.SYS_COMMIT_AT, 0, b2n at_), (.SYS_COMMIT_TABLES, 0, b2n tables), (.SYS_COMMIT_SCOPE, 0, sc)] =
    s.askCommit at_ tables sc from rfl, htick, hbusy, hopen, hskip]
  generalize s.askCommit at_ tables sc = u
  by_cases hp : s.flag .SYS_COMMIT_STATUS_PENDING = true
  · rw [if_pos (.inl hp), if_pos hp, if_pos hp]
    exact agree_commitEvent _ _ _ _ _
  · rw [if_neg hp, if_neg hp]
    by_cases ho : s.commitAtOpen = true
    · rw [if_pos (.inr ho), if_pos ho]
      exact agree_commitEvent _ _ _ _ _
    · rw [if_neg (not_or.2 ⟨hp, ho⟩), if_neg ho]
      exact Agree.refl _

/-- Settles O19: the control messages answer, and SYS_COMMIT starts a commit where none is under way. -/
theorem endpointAndCommitComplete : Obligations.EndpointAndCommitComplete := by
  unfold Obligations.EndpointAndCommitComplete
  refine ⟨?setId, ?getId, ?version, ?types, ?commit⟩
  case setId => exact fun s eid h => yields_eq (f := doSetEndpointId eid) rfl (doSetEndpointId_released s eid h)
  case getId => exact fun s h => yields_eq (f := fun s => s.mctpAnswer 0 2 [0, s.sys.mctpEid, 0, 0]) rfl (mctpAnswer_released s _ _ _ h)
  case version =>
    exact fun s ty h => yields_eq (f := fun s => (s.mctpAnswer 0 4 ([0, 1] ++ le 4 (Config.freeField (s.freeCtr + ty)))).fresh) rfl
      (congrArg State.fresh (mctpAnswer_released s _ _ _ h))
  case types => exact fun s h => yields_eq (f := fun s => s.mctpAnswer 0 5 [0, 1, 0x7F]) rfl (mctpAnswer_released s _ _ _ h)
  case commit => exact fun s at_ tables scope => yields_run (f := doSysCommit at_ tables scope) rfl (agree_doSysCommit s at_ tables scope)

end Machine
end Sys2Proof
end

section
/-!
PROOFS. The calibration check, the core supply and the wake of a subsystem (R50, R179, R584, R600, R601, R604).
-/
namespace Sys2Proof
namespace Machine

/-! ### The calibration check (R50, R604) -/

/-- The check has been made in this tick. -/
def State.calChecked (s : State) : State := { s with sys := { s.sys with calAt := s.clk.tickCount + 1 } }

/-- A check that is due, with calibration off and on. -/
theorem doCalCheck_due (found : List LaneCal) (resid : List (Nat × Nat)) {s : State} (hc : s.clk.cycle = 0)
    (hn : s.clk.tickCount % 1000 = 0) (ha : s.sys.calAt ≠ s.clk.tickCount + 1) (h3 : s.startState = 3) :
    doCalCheck found resid s =
      if s.reg .SYS_CAL_EN = 1 then
        let a := (s.calChecked.calLanes found).calSeif
        let b := if a.calMoved 2 0 then (if a.itmCal then a else a.itmCalRequest 3).stillDue 2 6 [0] else a
        ((List.range 16).filter fun k => b.calMoved 3 k).foldl (fun (u : State) k =>
          u.outCal k (u.temp 8) (((resid.find? fun x => x.1 == k).map Prod.snd).getD 0)) b
      else s.calChecked := by
  unfold doCalCheck; dsimp only
  rw [if_neg (by rintro (h | h | h | h); exacts [h hc, h hn, ha h, h h3])]
  by_cases he : s.reg .SYS_CAL_EN = 1
  · have hf : (!s.calChecked.flag .SYS_CAL_EN) = false := congrArg not ((flag_eq_true s _ _).2 he)
    rw [if_pos he]
    exact if_neg (ne_true_of_eq_false hf)
  · have hf : (!s.calChecked.flag .SYS_CAL_EN) = true := congrArg not ((flag_eq_false s _ _).2 he)
    rw [if_neg he]
    exact if_pos hf

/-! ### The core supply (R584) -/

/-- A supply that has been off its target for a millisecond is told of with three free values. -/
theorem agree_doAvsDeviation {s : State} {mv us : Nat} (hu : 1000 ≤ us)
    (hd : s.reg .SYS_AVS_TARGET_MV + 15 < mv ∨ mv + 15 < s.reg .SYS_AVS_TARGET_MV) :
    Agree (doAvsDeviation mv us s) s.fresh.fresh.fresh := by
  unfold doAvsDeviation; dsimp only
  rw [if_neg (by omega)]
  exact (agree_evSevBy s _ _ _).fresh.fresh.fresh

/-- Settles O48: each row is the branch its conditions select. -/
theorem powerRowsComplete : Obligations.PowerRowsComplete := by
  unfold Obligations.PowerRowsComplete
  refine ⟨?noCheck, ?check, ?supplyOk, ?supplyOff, ?conditionEnds, ?write, ?stays⟩
  case noCheck => exact fun s found resid h => yields_eq (f := doCalCheck found resid) rfl (if_pos h)
  case check =>
    intro s found resid hc hn ha h3
    have hdue := doCalCheck_due found resid hc hn ha h3
    exact ⟨fun he => yields_eq (f := doCalCheck found resid) rfl (hdue.trans (if_neg he)),
      fun he => yields_eq (f := doCalCheck found resid) rfl (hdue.trans (if_pos he))⟩
  case supplyOk => exact fun s mv us h => yields_eq (f := doAvsDeviation mv us) rfl (if_pos h)
  case supplyOff => exact fun s mv us hu hd => yields_run (f := doAvsDeviation mv us) rfl (agree_doAvsDeviation hu hd)
  case conditionEnds =>
    refine fun s u hu h10 h12 hf => yields_eq (f := doSubsystemWake u false) rfl (if_neg ?_)
    rintro (h | ⟨-, h | h | h⟩)
    · omega
    · exact h10 h
    · exact h12 h
    · rw [hf] at h; exact absurd h (by decide)
  case write =>
    refine fun s u hu => yields_eq (f := doSubsystemWake u true) rfl (if_neg ?_)
    rintro (h | ⟨h, -⟩)
    · omega
    · exact absurd h (by decide)
  case stays =>
    refine fun s u h => yields_eq (f := doSubsystemWake u false) rfl (if_pos ?_)
    rcases h with h | h | h | h
    · exact .inl h
    · exact .inr ⟨rfl, .inl h⟩
    · exact .inr ⟨rfl, .inr (.inl h)⟩
    · exact .inr ⟨rfl, .inr (.inr (Option.isSome_iff_ne_none.2 h))⟩

end Machine
end Sys2Proof
end

section
/-!
PROOFS. The step over its queue (R93, R94), and descriptors that are refused (R91, R92, R123-R128): the first check of R124 that
fails decides the status, and a bad completion ring stops the submission ring.
-/
namespace Sys2Proof
namespace Machine

/-- Settles O1: it is the step's definition for a queue that is not empty. -/
theorem stepRunsFrontCommand : Obligations.StepRunsFrontCommand := by
  unfold Obligations.StepRunsFrontCommand step
  intro c rest s h
  rw [h]

/-- The idle step leaves the queue as it is. -/
theorem runTick_pending {f : State → State} {s t : State} (h : runTick f s = .next t) : t.pending = s.pending := by
  injection h with h; rw [← h]

/-- Settles O5: no command touches the queue, and the step has taken its front. -/
theorem stepConsumesOneCommand : Obligations.StepConsumesOneCommand := by
  unfold Obligations.StepConsumesOneCommand step
  intro s t h
  cases hp : s.pending with
  | nil =>
    rw [hp] at h
    rw [runTick_pending h, hp]; rfl
  | cons c rest =>
    rw [hp] at h
    exact exec_pending c { s with pending := rest } t h

/-! ### The checks in their order (R124) -/

/-- What the checks at the fetch refuse, the acceptance refuses. -/
theorem acceptance_early {s : State} {h : Hdr} {opc ns st : Nat} (c : Checks) (he : s.earlyChecks h opc ns = some st) :
    s.acceptance h opc ns c = some st := by
  unfold State.acceptance; rw [he]; rfl

/-- A descriptor that passes the checks at its fetch is left to those behind them. -/
theorem acceptance_later {s : State} {h : Hdr} {opc ns : Nat} (c : Checks) (hm : s.mayIssue h.fn opc = true)
    (hv : validPassed ns h.validNs = false) : s.acceptance h opc ns c = s.laterChecks h opc c := by
  unfold State.acceptance State.earlyChecks; rw [hm, hv]; rfl

/-- The first check: the function may issue the opcode (R125, R127). -/
theorem earlyChecks_opcode {s : State} {h : Hdr} {opc : Nat} (ns : Nat) (hm : s.mayIssue h.fn opc = false) :
    s.earlyChecks h opc ns = some stBADOPCODE := by
  unfold State.earlyChecks; rw [hm]; rfl

/-- The second check: VALID_NS has not passed (R91). -/
theorem earlyChecks_passed {s : State} {h : Hdr} {opc ns : Nat} (hm : s.mayIssue h.fn opc = true)
    (hv : validPassed ns h.validNs = true) : s.earlyChecks h opc ns = some stTICKPAST := by
  unfold State.earlyChecks; rw [hm, hv]; rfl

/-- When VALID_NS counts as passed. -/
theorem validPassed_of {ns v : Nat} (hv : v ≠ 0) (h : 0 < sgn 32 (ns + 2 ^ 32 - v % 2 ^ 32)) : validPassed ns v = true := by
  unfold validPassed; rw [decide_eq_true h, bne_iff_ne.2 hv]; rfl

/-- The third check: reserved bits, HOLD and the fields of the opcode (R123). -/
theorem laterChecks_badField {s : State} {h : Hdr} {opc : Nat} {c : Checks}
    (hb : (h.rsvd || (h.hold && !holdValid opc) || c.badField) = true) : s.laterChecks h opc c = some stBADFIELD := if_pos hb

/-- The fourth check: the pair standby refuses the opcode (R128). -/
theorem laterChecks_notOwner {s : State} {h : Hdr} {opc : Nat} {c : Checks}
    (hb : (h.rsvd || (h.hold && !holdValid opc) || c.badField) = false) (hs : s.standby = true) (ho : standbyRefused opc = true) :
    s.laterChecks h opc c = some stNOTOWNER := by
  unfold State.laterChecks; rw [hb, hs, ho]; rfl

/-- The fifth check: playa mode serves few opcodes. -/
theorem laterChecks_frozen {s : State} {h : Hdr} {opc : Nat} {c : Checks}
    (hb : (h.rsvd || (h.hold && !holdValid opc) || c.badField) = false) (hs : s.standby = false ∨ standbyRefused opc = false)
    (hp : s.reg .SYS_STATUS_PLAYA = 1) (h1 : opc ≠ 0x01) (h2 : opc ≠ 0xB0) (h3 : opc ≠ 0x70) :
    s.laterChecks h opc c = some stFROZEN := by
  have hs' : (s.standby && standbyRefused opc) = false := by rcases hs with hs | hs <;> simp [hs]
  have hp' : (s.flag .SYS_STATUS_PLAYA && opc != 0x01 && opc != 0xB0 && opc != 0x70) = true := by
    simp [(flag_eq_true s _ _).2 hp, h1, h2, h3]
  unfold State.laterChecks; rw [hb, hs', hp']; rfl

/-- Settles O8: the second check of R124 fails, and so the command completes with TICK_PAST. -/
theorem passedValidTimeDoesNothing : Obligations.PassedValidTimeDoesNothing := by
  unfold Obligations.PassedValidTimeDoesNothing
  intro i h sp s hs h1 h2 h3 h4 h5 h6 hm hv hp
  exact yields_refused hs h1 h2 h3 h4 h5 h6 (acceptance_early _ (earlyChecks_passed hm (validPassed_of hv hp)))
    (by decide) (by decide) (by decide)

/-! ### A bad completion ring (R92) -/

/-- A descriptor whose completion ring cannot receive completions stops its ring. -/
theorem present_stops {s : State} {h : Hdr} (i : Instr) (sp : Spec) (h1 : s.fetchable h.fn h.sq = true)
    (h2 : s.cqUsable h.fn h.cq = false) : s.present h i sp = s.stopSq h.fn h.sq 2 := by
  unfold State.present; rw [h1, h2]; rfl

/-- A stopped submission ring shows its error; the rest is an event. -/
theorem agree_stopSq (s : State) (fn n err : Nat) : Agree (s.stopSq fn n err) (s.setReg .HST_SQ_STATUS_ERR (ring fn n) err) :=
  agree_evFn _ _ _ _

/-- An event of HST or SYS occurs in every mode (R615). -/
theorem raised_evFn (s : State) {e : Nat} (fn : Nat) (d : List (Nat × Nat)) (he : 240 ≤ e) : (s.evFn e fn d).raised e := by
  have ha : evAllowed s e = true := by unfold evAllowed; simp [he]
  unfold State.raised State.evFn State.raiseBy
  rw [if_pos ha, tget_tset_self]
  exact Nat.succ_ne_zero _

/-- Settles O9: the checks of R124 in their order, and R92. -/
theorem refusedCommandsDoNothing : Obligations.RefusedCommandsDoNothing := by
  unfold Obligations.RefusedCommandsDoNothing
  intro i h sp s hs h1
  refine ⟨fun h2 hfn hsq => ?ring, fun h2 h3 h4 h5 h6 => ?checks⟩
  case ring =>
    have he : exec i s = run (fun s => s.stopSq h.fn h.sq 2) s := by
      rw [exec_eq_issue i h sp s hs]; unfold State.issue run
      dsimp only
      rw [present_stops i sp h1 h2]
    refine ⟨⟨_, he, raised_evFn (s.setReg .HST_SQ_STATUS_ERR (ring h.fn h.sq) 2) h.fn _ (by decide), ?_⟩,
      yields_run he (agree_stopSq s h.fn h.sq 2)⟩
    have hk : ring h.fn h.sq < 8192 := by unfold ring; omega
    calc (s.stopSq h.fn h.sq 2).reg .HST_SQ_STATUS_INDEX (ring h.fn h.sq)
        = (s.setReg .HST_SQ_STATUS_ERR (ring h.fn h.sq) 2).reg .HST_SQ_STATUS_INDEX (ring h.fn h.sq) :=
          (agree_stopSq s h.fn h.sq 2).reg rfl hk
      _ = s.reg .HST_SQ_STATUS_INDEX (ring h.fn h.sq) := s.reg_setReg_ne (by decide) 2 hk hk
  case checks =>
    have refused {st : Nat} (ha : (s.fetched h sp).acceptance h sp.opc (s.fetched h sp).wrapNs (sp.chk (s.fetched h sp)) = some st)
        (hst : st ∈ [stBADOPCODE, stBADFIELD, stNOTOWNER, stFROZEN]) : Yields i s ((s.fetched h sp).complete s.hst.nextId st []) :=
      yields_refused hs h1 h2 h3 h4 h5 h6 ha (by rintro rfl; revert hst; decide) (by rintro rfl; revert hst; decide)
        (by rintro rfl; revert hst; decide)
    refine ⟨fun hm => refused (acceptance_early _ (earlyChecks_opcode _ hm)) (by decide), fun hm hv => ?_⟩
    have later := acceptance_later (sp.chk (s.fetched h sp)) hm hv
    exact ⟨fun hb => refused (later.trans (laterChecks_badField hb)) (by decide),
      fun hb hst ho => refused (later.trans (laterChecks_notOwner hb hst ho)) (by decide),
      fun hb hst hp o1 o2 o3 => refused (later.trans (laterChecks_frozen hb hst hp o1 o2 o3)) (by decide)⟩

end Machine
end Sys2Proof
end

section
/-!
PROOFS. The commands of long operations (R115, R122, R135, R139, R145-R150, R177, R503), which take a slot at once; and
LANE_SLIP, SET_WAKE_BUDGET, PAIR_SWAP and PKT_INJECT (R112, R144, R149, R151, R176, R497-R500).
-/
namespace Sys2Proof
namespace Machine

/-! ### Long operations (R115) -/

/-- With a free slot, a long operation takes it and does what acceptance itself starts. -/
theorem startOp_of {u : State} {h : Hdr} {id opc k : Nat} {args : List Nat} {first : Nat → State → State}
    (hk : u.freeSlot h.fn = some k) : u.startOp h id opc args first = first k (u.acceptOp h id opc args k) := by
  unfold State.startOp; rw [hk]

/-- Settles O13: each command's work takes the free slot; the lane of LANE_TRAIN and LANE_SWEEP is the one of its index. -/
theorem longCommandsAreAccepted : Obligations.LongCommandsAreAccepted := by
  unfold Obligations.LongCommandsAreAccepted
  refine ⟨?bulk, ?train, ?sweep, ?copy, ?run, ?copyOut, ?scrub, ?update⟩
  case bulk =>
    refine fun s h first count k delete st hk => yields_work_eq rfl st ?_
    generalize s.charged h _ = u at hk ⊢
    dsimp only [specFlowBulk]
    rw [startOp_of hk]
  case train =>
    refine fun s h lane i mode arg count k hl st hk => yields_work_eq rfl st ?_
    generalize s.charged h _ = u at hk ⊢
    dsimp only [specLaneTrain]
    rw [hl, Option.getD_some, startOp_of hk]
  case sweep =>
    refine fun s h lane i mode count addr len k hl st hk => yields_work_eq rfl st ?_
    generalize s.charged h _ = u at hk ⊢
    dsimp only [specLaneSweep]
    rw [hl, Option.getD_some, startOp_of hk]
  case copy =>
    refine fun s h all k st hk => yields_work_eq rfl st ?_
    generalize s.charged h _ = u at hk ⊢
    dsimp only [specPairCopy]
    rw [startOp_of hk]
  case run =>
    refine fun s h u addr len n k st hn hk => yields_work_eq rfl st ?_
    generalize s.charged h _ = u at hn hk ⊢
    dsimp only [specChkRun]
    rw [startOp_of hk, hn]
  case copyOut =>
    refine fun s h area seq count addr len k st hk => yields_work_eq rfl st ?_
    generalize s.charged h _ = u at hk ⊢
    dsimp only [specCairnExport]
    rw [startOp_of hk]
  case scrub =>
    refine fun s h targets k st hk => yields_work_eq rfl st ?_
    generalize s.charged h _ = u at hk ⊢
    dsimp only [specScrub]
    rw [startOp_of hk]
  case update =>
    refine fun s h activate addr len k st hk => yields_work_eq rfl st ?_
    generalize s.charged h _ = u at hk ⊢
    dsimp only [specFwUpdate]
    rw [startOp_of hk]

/-! ### The remaining short commands -/

/-- The work of a LANE_SLIP on lane `i`; the count of slips is an account. -/
theorem agree_laneSlip_work (u : State) {lane i : Nat} (bits dir id : Nat) (hl : laneIndex lane = some i) :
    Agree ((specLaneSlip lane bits dir).work id u)
      (let v := slipSum (u.rawWidth i) (u.reg .LN_SLIP_CUM i) bits (dir == 0)
       (u.setReg .LN_SLIP_CUM i v).complete id stOK (le 2 v)) := by
  dsimp only [specLaneSlip]
  rw [hl, Option.getD_some]
  exact (agree_tally1 _ 5 i (by decide)).complete _ _ _

/-- The slip of a lane, with DIR written as the number it is. -/
theorem slipSum_dir (w cum bits dir : Nat) : slipSum w cum bits (dir == 0) =
    unsgn 16 ((sgn 16 cum + (if dir = 0 then (bits : Int) else -(bits : Int)) + (w / 2 : Nat)) % (w : Nat) - (w / 2 : Nat)) := by
  unfold slipSum; simp only [beq_iff_eq]

/-- Settles O15: each command's work is the state it is to yield. -/
theorem slipWakeSwapInjectComplete : Obligations.SlipWakeSwapInjectComplete := by
  unfold Obligations.SlipWakeSwapInjectComplete
  refine ⟨?slip, ?wakePort, ?wakeSubsystem, ?swap, ?inject, ?unread⟩
  case slip =>
    refine fun s h lane i bits dir hl st => yields_starts rfl st ?_
    generalize s.charged h _ = u
    have hw := agree_laneSlip_work u bits dir s.hst.nextId hl
    rw [slipSum_dir] at hw
    exact hw
  case wakePort =>
    refine fun s h target ns st => yields_work_eq rfl st ?_
    generalize s.charged h _ = u
    dsimp only [specSetWakeBudget]; rfl
  case wakeSubsystem =>
    refine fun s h target ns st => yields_work_eq rfl st ?_
    generalize s.charged h _ = u
    dsimp only [specSetWakeBudget]; rfl
  case swap =>
    refine fun s h st => yields_work_eq rfl st ?_
    generalize s.charged h _ = u
    dsimp only [specPairSwap]
  case inject =>
    refine fun s h addr len port queue flags launchNs launchGrain bytes st => yields_work_eq rfl st ?_
    generalize s.charged h _ = u
    dsimp only [specPktInject]
  case unread =>
    refine fun s h addr len port queue flags launchNs launchGrain st => yields_starts rfl st ?_
    generalize s.charged h _ = u
    dsimp only [specPktInject]
    exact (agree_dmaError u h.fn addr 4).complete _ _ _

end Machine
end Sys2Proof
end

section
/-!
PROOFS. The host interface: function control and rings (R83-R89, R99-R101), doorbells, completions and interrupts (R86-R105,
R120), and the resets of functions and of the link (R77, R103, R118-R120).
-/
namespace Sys2Proof
namespace Machine

/-! ### Function control and kicks (R83, R86, R89) -/

/-- A function that exists takes its commands. -/
theorem not_fnOk {s : State} {fn : Nat} (h : fn ≤ s.hst.numVf) : ¬ (!s.fnOk fn) = true := by
  unfold State.fnOk; simp [h]

/-- A function that exists and runs takes doorbells. -/
theorem not_fnIdle {s : State} {fn : Nat} (h : fn ≤ s.hst.numVf) (hr : s.reg .HST_FN_CTRL_RUN fn = 1) :
    ¬ ((!s.fnOk fn) = true ∨ (!s.flag .HST_FN_CTRL_RUN fn) = true) := by
  rw [(flag_eq_true s _ _).2 hr]
  exact fun hh => hh.elim (not_fnOk h) (by decide)

/-- A kick of a running function reads its doorbells, unless a kicked read is in flight. -/
theorem agree_doKick {s : State} {fn : Nat} (hf : fn < 16) (h : fn ≤ s.hst.numVf) (hr : s.reg .HST_FN_CTRL_RUN fn = 1) :
    Agree (doKick fn s) (if tget 0 s.hst.kicked fn = 1 then s
      else ({ s with hst := { s.hst with kicked := tset 0 fn 1 s.hst.kicked } } : State).emit
        (.hostRead fn 1 (s.reg .HST_DB_BASE_ADDR fn * 4096))) := by
  unfold doKick
  rw [if_neg (not_fnIdle h hr)]
  have ht : Agree (s.tally 1 2 1 0 0 fn 1) s := agree_tally s _ _ _ _ _ _ (by decide)
  dsimp only
  rw [State.tally_hst, ht.reg rfl (by omega)]
  exact Agree.ite (fun _ => ht) fun _ => (ht.setHst _).emit _

/-- A function that does not run ignores its kicks. -/
theorem doKick_stays {s : State} {fn : Nat} (hr : s.reg .HST_FN_CTRL_RUN fn ≠ 1) : doKick fn s = s := by
  unfold doKick
  rw [(flag_eq_false s _ _).2 hr]
  exact if_pos (.inr rfl)

/-- RUN takes the value written; from 0 to 1 the DB_GEN acted on is forgotten. -/
theorem doFnRunWrite_ok {s : State} {fn : Nat} (v : Bool) (h : fn ≤ s.hst.numVf) :
    doFnRunWrite fn v s =
      (let u := s.setReg .HST_FN_CTRL_RUN fn (b2n v)
       if v = true ∧ s.reg .HST_FN_CTRL_RUN fn ≠ 1 then { u with hst := { u.hst with dbGen := tdel fn u.hst.dbGen } } else u) := by
  unfold doFnRunWrite
  rw [if_neg (not_fnOk h)]
  simp only [Bool.not_eq_true', flag_eq_false]

/-! ### Enabling and disabling rings (R84, R99-R101) -/

/-- A ring that exists takes a write of EN. -/
theorem not_ringAbsent {s : State} {fn n : Nat} (h : fn ≤ s.hst.numVf) (hn : n < 256) : ¬ ((!s.fnOk fn) = true ∨ 256 ≤ n) :=
  fun hh => hh.elim (not_fnOk h) (by omega)

/-- Enabling a submission ring that is disabled. -/
theorem doRingEnable_sq {s : State} {fn n : Nat} (h : fn ≤ s.hst.numVf) (hn : n < 256)
    (he : s.reg .HST_SQ_CTRL_EN (ring fn n) ≠ 1) :
    doRingEnable fn 0 n s = s.enableSq fn n := by
  unfold doRingEnable; dsimp only
  rw [if_neg (not_ringAbsent h hn), (flag_eq_false s _ _).2 he]; rfl

/-- Enabling a completion ring that is disabled. -/
theorem doRingEnable_cq {s : State} {fn n : Nat} (h : fn ≤ s.hst.numVf) (hn : n < 256)
    (he : s.reg .HST_CQ_CTRL_EN (ring fn n) ≠ 1) :
    doRingEnable fn 1 n s = s.enableCq fn n := by
  unfold doRingEnable; dsimp only
  rw [if_neg (not_ringAbsent h hn), (flag_eq_false s _ _).2 he]; rfl

/-- Enabling an event ring that is disabled. -/
theorem doRingEnable_evq {s : State} {fn : Nat} (h : fn ≤ s.hst.numVf) (he : s.reg .HST_EVQ_CTRL_EN fn ≠ 1) :
    doRingEnable fn 2 0 s = s.enableEvq fn := by
  unfold doRingEnable; dsimp only
  rw [if_neg (not_ringAbsent h (by decide)), (flag_eq_false s _ _).2 he]; rfl

/-- A submission ring of an allowed size starts empty. -/
theorem enableSq_ok {s : State} {fn n : Nat} (h6 : 6 ≤ s.reg .HST_SQ_CTRL_LOG2_SIZE (ring fn n))
    (h16 : s.reg .HST_SQ_CTRL_LOG2_SIZE (ring fn n) ≤ 16) :
    s.enableSq fn n =
      (let k := ring fn n
       let u := ((s.setReg .HST_SQ_CTRL_EN k 1).setReg .HST_SQ_STATUS_ERR k 0).setReg .HST_SQ_STATUS_INDEX k 0
       { u with hst := { u.hst with sqTail := tdel k u.hst.sqTail } }) := by
  unfold State.enableSq; dsimp only
  rw [if_neg (by omega)]; rfl

/-- A submission ring of a size that is not allowed shows BAD_SIZE. -/
theorem agree_enableSq_badSize {s : State} {fn n : Nat}
    (h : s.reg .HST_SQ_CTRL_LOG2_SIZE (ring fn n) < 6 ∨ 16 < s.reg .HST_SQ_CTRL_LOG2_SIZE (ring fn n)) :
    Agree (s.enableSq fn n) (s.setReg .HST_SQ_STATUS_ERR (ring fn n) 4) := by
  unfold State.enableSq; dsimp only
  rw [if_pos h]; exact agree_ringErr _ _ _ _

/-- A completion ring of an allowed size with an allowed vector starts empty. -/
theorem enableCq_ok {s : State} {fn n : Nat} (h6 : 6 ≤ s.reg .HST_CQ_CTRL_LOG2_SIZE (ring fn n))
    (h16 : s.reg .HST_CQ_CTRL_LOG2_SIZE (ring fn n) ≤ 16) (hp : s.reg .HST_CQ_CTRL_PUNT (ring fn n) ≠ 1)
    (hv : s.vectorOk fn (s.reg .HST_CQ_CTRL_VECTOR (ring fn n)) = true) :
    s.enableCq fn n =
      (let k := ring fn n
       let u := (((s.setReg .HST_CQ_CTRL_EN k 1).setReg .HST_CQ_STATUS_ERR k 0).setReg .HST_CQ_STATUS_INDEX k 0).setReg
         .HST_CQ_STATUS_FULL k 0
       { u with hst := { u.hst with
         lostVec := tdel k u.hst.lostVec
         cqHead := tdel k u.hst.cqHead, cqPhase := tdel k u.hst.cqPhase, cqUns := tdel k u.hst.cqUns
         cqAge := tdel k u.hst.cqAge } }) := by
  have hsize : ¬ (s.reg .HST_CQ_CTRL_LOG2_SIZE (ring fn n) < 6 ∨ 16 < s.reg .HST_CQ_CTRL_LOG2_SIZE (ring fn n) ∨
      (s.flag .HST_CQ_CTRL_PUNT (ring fn n) = true ∧ s.reg .HST_CQ_CTRL_SLOT (ring fn n) = 3)) := by
    rw [flag_eq_true]; omega
  have hvec : ¬ (!s.vectorOk fn (s.reg .HST_CQ_CTRL_VECTOR (ring fn n))) = true := by rw [hv]; decide
  exact (if_neg hsize).trans (if_neg hvec)

/-- An event ring of an allowed size with an allowed vector starts empty, when no E253 of a start waits for it. -/
theorem enableEvq_ok {s : State} {fn : Nat} (hb : fn ≠ 0 ∨ s.hst.bootEvent = none) (h6 : 6 ≤ s.reg .HST_EVQ_CTRL_LOG2_SIZE fn)
    (h16 : s.reg .HST_EVQ_CTRL_LOG2_SIZE fn ≤ 16) (hv : s.vectorOk fn (s.reg .HST_EVQ_CTRL_VECTOR fn) = true) :
    s.enableEvq fn =
      (let u := ((((s.setReg .HST_EVQ_CTRL_EN fn 1).setReg .HST_EVQ_STATUS_ERR fn 0).setReg .HST_EVQ_STATUS_INDEX fn 0).setReg
         .HST_EVQ_STATUS_FULL fn 0).setReg .HST_EVQ_STATUS_LOST fn 0
       { u with hst := { u.hst with
         lostVec := tdel (65536 + fn) u.hst.lostVec
         evqHead := tdel fn u.hst.evqHead, evqPhase := tdel fn u.hst.evqPhase, evqSeq := tdel fn u.hst.evqSeq
         evqOwed := tdel fn u.hst.evqOwed } }) := by
  have hsize : ¬ (s.reg .HST_EVQ_CTRL_LOG2_SIZE fn < 6 ∨ 16 < s.reg .HST_EVQ_CTRL_LOG2_SIZE fn) := by omega
  have hvec : ¬ (!s.vectorOk fn (s.reg .HST_EVQ_CTRL_VECTOR fn)) = true := by rw [hv]; decide
  refine (if_neg hsize).trans ((if_neg hvec).trans ?_)
  dsimp only
  split
  next d hd =>
    have hn := hb.resolve_left (not_not_intro rfl)
    rw [State.setRegs_hst] at hd
    exact absurd (hd.symm.trans hn) (by simp)
  next => rfl

/-- Settles O24: each row is the branch its conditions select. -/
theorem functionRowsComplete : Obligations.FunctionRowsComplete := by
  unfold Obligations.FunctionRowsComplete
  refine ⟨?kick, ?noKick, ?run, ?quiesce, fun s fn n h hn => ?rings, ?evqEnable, ?evqDisable⟩
  case kick => exact fun s fn hf h hr => yields_run (f := doKick fn) rfl (agree_doKick hf h hr)
  case noKick => exact fun s fn hr => yields_eq (f := doKick fn) rfl (doKick_stays hr)
  case run => exact fun s fn v h => yields_eq (f := doFnRunWrite fn v) rfl (doFnRunWrite_ok v h)
  case quiesce => exact fun s fn h => yields_eq (f := doQuiesce fn) rfl (if_neg (not_fnOk h))
  case rings =>
    refine ⟨fun he h6 h16 => ?_, fun he hs => ?_, fun he h6 h16 hp hv => ?_, ?_, ?_⟩
    · exact yields_eq (f := doRingEnable fn 0 n) rfl ((doRingEnable_sq h hn he).trans (enableSq_ok h6 h16))
    · refine yields_run (f := doRingEnable fn 0 n) rfl ?_
      rw [doRingEnable_sq h hn he]
      exact agree_enableSq_badSize hs
    · exact yields_eq (f := doRingEnable fn 1 n) rfl ((doRingEnable_cq h hn he).trans (enableCq_ok h6 h16 hp hv))
    · exact yields_eq (f := doRingDisable fn 0 n) rfl (if_neg (not_ringAbsent h hn))
    · exact yields_eq (f := doRingDisable fn 1 n) rfl (if_neg (not_ringAbsent h hn))
  case evqEnable =>
    exact fun s fn h hb he h6 h16 hv =>
      yields_eq (f := doRingEnable fn 2 0) rfl ((doRingEnable_evq h he).trans (enableEvq_ok hb h6 h16 hv))
  case evqDisable => exact fun s fn h => yields_eq (f := doRingDisable fn 2 0) rfl (if_neg (not_ringAbsent h (by decide)))

/-! ### Doorbells and host reads (R86-R89, R96, R120) -/

/-- A poll with a DB_GEN not acted on acts on the lines its mask names. -/
theorem doDoorbellPoll_acts {s : State} {fn : Nat} {d : Doorbell} (h : fn ≤ s.hst.numVf) (hr : s.reg .HST_FN_CTRL_RUN fn = 1)
    (hg : tget 0 s.hst.dbGen fn ≠ d.gen + 1) : doDoorbellPoll fn (some d) s = s.doorbell fn d d.lineMask := by
  unfold doDoorbellPoll
  rw [if_neg (not_fnIdle h hr)]
  exact if_neg hg

/-- A poll with the DB_GEN acted on does nothing. -/
theorem doDoorbellPoll_stays {s : State} {fn : Nat} {d : Doorbell} (hg : tget 0 s.hst.dbGen fn = d.gen + 1) :
    doDoorbellPoll fn (some d) s = s := by
  unfold doDoorbellPoll
  split
  · rfl
  · exact if_pos hg

/-- The doorbell block records its DB_GEN. -/
theorem doorbell_dbGen (s : State) (fn : Nat) (d : Doorbell) (mask : Nat) :
    tget 0 (s.doorbell fn d mask).hst.dbGen fn = d.gen + 1 := by
  unfold State.doorbell; dsimp only
  rw [tget_tset_self]

/-- A tail in range of an enabled submission ring whose completion ring is disabled is taken. -/
theorem tailWord_takes {s : State} {fn : Nat} {w : TailWord} (he : s.reg .HST_SQ_CTRL_EN (ring fn w.ring) = 1)
    (h0 : s.reg .HST_SQ_STATUS_ERR (ring fn w.ring) = 0) (hc : s.reg .HST_CQ_CTRL_EN (ring fn w.ring) ≠ 1)
    (ht : w.sqTail < 2 ^ s.reg .HST_SQ_CTRL_LOG2_SIZE (ring fn w.ring)) :
    s.tailWord fn w = { s with hst := { s.hst with sqTail := tset 0 (ring fn w.ring) w.sqTail s.hst.sqTail } } := by
  have hsq : s.flag .HST_SQ_CTRL_EN (ring fn w.ring) = true ∧ s.reg .HST_SQ_STATUS_ERR (ring fn w.ring) = 0 :=
    ⟨(flag_eq_true s _ _).2 he, h0⟩
  unfold State.tailWord; dsimp only
  rw [if_pos hsq, if_neg (c := 2 ^ s.reg .HST_SQ_CTRL_LOG2_SIZE (ring fn w.ring) ≤ w.sqTail) (by omega)]
  exact if_neg fun hh => hc ((flag_eq_true s _ _).1 hh.1)

/-- A tail out of range stops such a ring. -/
theorem tailWord_stops {s : State} {fn : Nat} {w : TailWord} (hk : ring fn w.ring < 8192)
    (he : s.reg .HST_SQ_CTRL_EN (ring fn w.ring) = 1) (h0 : s.reg .HST_SQ_STATUS_ERR (ring fn w.ring) = 0)
    (hc : s.reg .HST_CQ_CTRL_EN (ring fn w.ring) ≠ 1) (ht : 2 ^ s.reg .HST_SQ_CTRL_LOG2_SIZE (ring fn w.ring) ≤ w.sqTail) :
    s.tailWord fn w = s.stopSq fn w.ring 1 := by
  have hreg : (s.stopSq fn w.ring 1).reg .HST_CQ_CTRL_EN (ring fn w.ring) = s.reg .HST_CQ_CTRL_EN (ring fn w.ring) :=
    ((agree_stopSq s fn w.ring 1).reg rfl hk).trans (s.reg_setReg_ne (by decide) 1 hk hk)
  have hsq : s.flag .HST_SQ_CTRL_EN (ring fn w.ring) = true ∧ s.reg .HST_SQ_STATUS_ERR (ring fn w.ring) = 0 :=
    ⟨(flag_eq_true s _ _).2 he, h0⟩
  unfold State.tailWord; dsimp only
  rw [if_pos hsq, if_pos ht]
  exact if_neg fun hh => hc (hreg ▸ (flag_eq_true _ _ _).1 hh.1)

/-- A kicked read that returns acts on every line. -/
theorem doHostReadReturn_tails {s : State} {fn : Nat} (d : Doorbell) (hk : tget 0 s.hst.kicked fn = 1)
    (hr : s.reg .HST_FN_CTRL_RUN fn = 1) : doHostReadReturn (.tails fn (some d)) s = (s.kickDone fn).doorbell fn d 0xFFFF :=
  (if_neg (not_not_intro hk)).trans (if_pos ((flag_eq_true s _ _).2 hr))

/-! ### Completions and interrupts (R95, R98-R100, R104, R105) -/

/-- The entry due for an enabled ring with room is written, and commands that waited start. -/
theorem doCompletionPost_posts {s : State} {fn cq : Nat} {c : Cmd} {r : Cpl} (hn : s.nextCompletion fn cq = some c)
    (hc : c.res = some r) (he : s.reg .HST_CQ_CTRL_EN (ring fn cq) = 1) (hroom : s.cqRoom (ring fn cq) = true) :
    doCompletionPost fn cq s = (s.postEntry c r).startWaiting := by
  unfold doCompletionPost; dsimp only
  rw [hn]; dsimp only
  rw [if_neg (by rw [(flag_eq_true s _ _).2 he]; decide), if_pos hroom, hc]

/-- With no entry due a completion ring is left as it is. -/
theorem doCompletionPost_stays {s : State} {fn cq : Nat} (hn : s.nextCompletion fn cq = none) : doCompletionPost fn cq s = s := by
  unfold doCompletionPost; dsimp only; rw [hn]

/-- A ring whose unsignalled entries reach its count signals. -/
theorem cqSignal_signals {s : State} {fn cq : Nat} (h0 : tget 0 s.hst.cqUns (ring fn cq) ≠ 0)
    (hn : max 1 (s.reg .HST_CQ_CTRL_COAL_COUNT (ring fn cq)) ≤ tget 0 s.hst.cqUns (ring fn cq)) :
    s.cqSignal fn cq =
      (let u : State := { s with hst := { s.hst with
        cqUns := tdel (ring fn cq) s.hst.cqUns, cqAge := tdel (ring fn cq) s.hst.cqAge } }
       if tget 0 s.hst.lostVec (ring fn cq) = 1 then u else u.signal fn (s.reg .HST_CQ_CTRL_VECTOR (ring fn cq))) :=
  (if_neg h0).trans (if_pos (.inl hn))

/-- Settles O25: each row is the branch its conditions select. -/
theorem ringRowsComplete : Obligations.RingRowsComplete := by
  unfold Obligations.RingRowsComplete
  refine ⟨?poll, ?tail, ?noPoll, ?failedPoll, ?kicked, ?failedFetch, ?post, ?noPost, ?interrupt, fun s fn v => yields_eq rfl rfl⟩
  case poll =>
    exact fun s fn d h hr hg =>
      ⟨yields_eq (f := doDoorbellPoll fn (some d)) rfl (doDoorbellPoll_acts h hr hg), doorbell_dbGen s fn d _⟩
  case tail =>
    intro s fn n tail head hf hn he h0 hc
    refine ⟨fun ht => tailWord_takes (w := ⟨n, tail, head⟩) he h0 hc ht, fun ht => ?_⟩
    rw [tailWord_stops (w := ⟨n, tail, head⟩) (by unfold ring; dsimp only; omega) he h0 hc ht]
    exact agree_stopSq s fn n 1
  case noPoll => exact fun s fn d hg => yields_eq (f := doDoorbellPoll fn (some d)) rfl (doDoorbellPoll_stays hg)
  case failedPoll =>
    refine fun s fn h hr => yields_run (f := doDoorbellPoll fn none) rfl ?_
    unfold doDoorbellPoll
    rw [if_neg (not_fnIdle h hr)]
    exact agree_dmaError _ _ _ _
  case kicked =>
    exact fun s fn d hk hr => yields_eq (f := doHostReadReturn (.tails fn (some d))) rfl (doHostReadReturn_tails d hk hr)
  case failedFetch =>
    refine fun s fn addr sq => yields_run (f := doHostReadReturn (.failed fn 2 addr sq)) rfl ?_
    unfold doHostReadReturn; dsimp only
    rw [if_neg (c := 2 = 1) (by decide), if_pos rfl]
    exact (agree_stopSq _ fn sq 3).trans ((agree_dmaError s fn addr 2).setReg _ _ _)
  case post =>
    exact fun s fn cq c r hn hc he hroom => yields_eq (f := doCompletionPost fn cq) rfl (doCompletionPost_posts hn hc he hroom)
  case noPost => exact fun s fn cq hn => yields_eq (f := doCompletionPost fn cq) rfl (doCompletionPost_stays hn)
  case interrupt => exact fun s fn cq h0 hn => yields_eq (f := doCqInterrupt fn cq) rfl (cqSignal_signals h0 hn)

/-! ### Resets of functions and of the link (R77, R103, R118-R120) -/

/-- The event of a link that changes. -/
theorem agree_linkEvent (s : State) (rate width ltssm : Nat) :
    Agree (s.linkEvent rate width ltssm) { s with hst := { s.hst with linkRate := rate, linkWidth := width } } := by
  unfold State.linkEvent; dsimp only
  rw [State.ev_hst]
  exact (agree_ev s _ _).setHst _

/-- The reset of a function leaves NumVFs as it is. -/
theorem fnReset_numVf (s : State) {fn : Nat} (cause : Nat) (h : fn < 16) : (s.fnReset fn cause).hst.numVf = s.hst.numVf := by
  obtain ⟨-, -, -, -, -, hn, -, -⟩ := fnReset_spec s fn cause h
  exact hn

/-- The reset of the PF clears VF Enable. -/
theorem pfReset_numVf (s : State) (vfCause cause : Nat) : (s.pfReset vfCause cause).hst.numVf = 0 := by
  unfold State.pfReset; dsimp only
  rw [fnReset_numVf _ _ (by decide)]

/-- What a function's reset leaves of it and of the rest. -/
theorem fnReset_leaves (s : State) {fn : Nat} (cause : Nat) (h : fn < 16) :
    (s.fnReset fn cause).reg .HST_FN_CTRL_RUN fn = 0 ∧ (s.fnReset fn cause).reg .HST_EVQ_CTRL_EN fn = 0 ∧
      (∀ c ∈ (s.fnReset fn cause).hst.cmds, c.fn ≠ fn) ∧ (∀ c ∈ (s.fnReset fn cause).hst.finals, c.fn ≠ fn) ∧
      (s.fnReset fn cause).hst.waiting = s.hst.waiting ∧ (s.fnReset fn cause).hst.numVf = s.hst.numVf ∧
      (s.fnReset fn cause).clk = s.clk ∧ (s.fnReset fn cause).store = s.store := by
  obtain ⟨hrun, hevq, hcmds, hfinals, hrest⟩ := fnReset_spec s fn cause h
  refine ⟨hrun, hevq, fun c hc => ?_, fun c hc => ?_, hrest⟩
  · rw [hcmds] at hc; exact bne_iff_ne.1 (List.mem_filter.1 hc).2
  · rw [hfinals] at hc; exact bne_iff_ne.1 (List.mem_filter.1 hc).2

/-- A link that comes up at a rate and a width of the register takes them. -/
theorem agree_doHstLink {s : State} {rate width : Nat} (ltssm : Nat) (hr : ¬ (rate = 0 ∨ 4 < rate ∨ width = 0 ∨ 3 < width)) :
    Agree (doHstLink rate width ltssm s) { s with hst := { s.hst with linkRate := rate, linkWidth := width } } := by
  unfold doHstLink
  rw [if_neg hr]
  split
  next h => rw [← h.1, ← h.2]; exact Agree.refl s
  next => exact agree_linkEvent s rate width ltssm

/-- The VFs that a smaller NumVFs takes away: none, where it is no smaller. -/
theorem filter_vfsTaken {k old : Nat} (h : old ≤ k) : ((List.range 15).filter fun i => decide (k ≤ i ∧ i < old)) = [] := by
  rw [List.filter_eq_nil_iff]
  intro i _
  rw [decide_eq_true_iff]
  omega

/-- VF_ENABLE resets each VF it takes away and sets their number; in playa mode it is 0. -/
theorem doVfEnable_eq (s : State) (n : Nat) :
    doVfEnable n s =
      (let k := if s.reg .SYS_STATUS_PLAYA = 1 then 0 else min 15 n
       let u := ((List.range 15).filter fun i => decide (k ≤ i ∧ i < s.hst.numVf)).foldl (fun (u : State) i => u.fnReset (i + 1) 1) s
       ({ u with hst := { u.hst with numVf := k } } : State).vectorsLost) := by
  unfold doVfEnable totalVfs
  simp only [flag_eq_true]

/-- Where VF_ENABLE takes no VF away, it sets their number alone. -/
theorem doVfEnable_grows {s : State} {n : Nat} (hp : s.reg .SYS_STATUS_PLAYA ≠ 1) (hn : s.hst.numVf ≤ min 15 n) :
    doVfEnable n s = ({ s with hst := { s.hst with numVf := min 15 n } } : State).vectorsLost := by
  rw [doVfEnable_eq]; dsimp only
  rw [if_neg hp, filter_vfsTaken hn]; rfl

/-- Settles O26: the resets by their definitions, with what a function's reset leaves. -/
theorem functionResetRowsComplete : Obligations.FunctionResetRowsComplete := by
  unfold Obligations.FunctionResetRowsComplete
  refine ⟨?vf, ?noVf, ?pf, ?linkDown, agree_linkEvent, ?hotReset,
    fun s a b => ⟨pfReset_numVf s a b, rfl⟩, fun s fn cause h => fnReset_leaves s cause h, ?link, ?noLink, ?vfEnable, ?vfMore,
    agree_vectorsLost⟩
  case vf => exact fun s fn h0 h => yields_eq (f := doFlr fn) rfl ((if_neg h0).trans (if_pos (decide_eq_true h)))
  case noVf =>
    refine fun s fn h0 h => yields_eq (f := doFlr fn) rfl ((if_neg h0).trans (if_neg ?_))
    unfold State.fnOk; simp [h]
  case pf => exact fun s => yields_eq (f := doFlr 0) rfl (if_pos rfl)
  case linkDown =>
    refine fun s ltssm => yields_eq (f := doPcieLinkDown 0 ltssm) rfl ?_
    unfold doPcieLinkDown
    rw [if_pos rfl]
  case hotReset =>
    refine fun s kind ltssm hk => yields_eq (f := doPcieLinkDown kind ltssm) rfl ?_
    unfold doPcieLinkDown
    rw [if_neg hk]
  case link =>
    exact fun s rate width ltssm h1 h4 w1 w3 =>
      yields_run (f := doHstLink rate width ltssm) rfl (agree_doHstLink ltssm (by omega))
  case noLink => exact fun s rate width ltssm h => yields_eq (f := doHstLink rate width ltssm) rfl (if_pos h)
  case vfEnable => exact fun s n => yields_eq (f := doVfEnable n) rfl (doVfEnable_eq s n)
  case vfMore => exact fun s n hp hn => yields_eq (f := doVfEnable n) rfl (doVfEnable_grows hp hn)

end Machine
end Sys2Proof
end

section
/-!
PROOFS. The registers of the time engine whose reads latch or pop and whose writes the servo's owner makes (R82, R375, R378,
R382-R384, R395, R402), and the PTP messages that the hardware sends (R390-R394).
-/
namespace Sys2Proof
namespace Machine

/-! ### TME_CFG (R382, R383) -/

/-- COMPAT does not hang on the owner. -/
theorem compat_setOwner (s : State) (v : Nat) : (s.setReg .TME_CFG_SERVO_OWNER 0 v).compat = s.compat := by
  unfold State.compat State.flag
  rw [State.reg_setReg_ne s (by decide) v (by decide) (by decide)]

/-- The PF's write of a new owner and, before the first correction, of a new COMPAT. -/
theorem doTmeCfgWrite_takes {s : State} {compat owner : Bool} (ht : s.tme.touched = false)
    (hc : compat ≠ s.flag .TME_CFG_COMPAT) (ho : owner ≠ s.flag .TME_CFG_SERVO_OWNER) :
    doTmeCfgWrite 0 compat owner s = (s.setReg .TME_CFG_SERVO_OWNER 0 (b2n owner)).setReg .TME_CFG_COMPAT 0 (b2n compat) := by
  unfold doTmeCfgWrite; dsimp only
  rw [if_neg ho, if_pos rfl, compat_setOwner, if_neg (c := compat = s.compat) hc, State.setReg_tme, ht]; rfl

/-- After the first correction, a write by another identity than the PF changes nothing. -/
theorem agree_doTmeCfgWrite_refused {s : State} {who : Nat} (compat owner : Bool) (ht : s.tme.touched = true) (hw : who ≠ 0) :
    Agree (doTmeCfgWrite who compat owner s) s := by
  unfold doTmeCfgWrite; dsimp only
  rw [if_neg hw]
  have told : Agree (if owner = s.flag .TME_CFG_SERVO_OWNER then s else s.ownerRefused who 0) s := by
    split
    · exact Agree.refl s
    · exact agree_ev s _ _
  generalize (if owner = s.flag .TME_CFG_SERVO_OWNER then s else s.ownerRefused who 0) = u at told ⊢
  rw [told.tme, ht, if_pos (c := true = true) rfl]
  split
  · exact told
  · exact (agree_ev u _ _).trans told

/-! ### The servo and the slew (R378, R384) -/

/-- Several register writes, the first one first. -/
theorem setRegs_cons (s : State) (f : Fld) (i v : Nat) (l : List (Fld × Nat × Nat)) :
    s.setRegs ((f, i, v) :: l) = (s.setReg f i v).setRegs l := List.foldl_cons ..

/-- A write of the servo by another identity changes nothing. -/
theorem agree_doServoFreqWrite_refused {s : State} {who : Nat} (freq : Option Nat) (ctrl : Option (Bool × Nat))
    (h : who ≠ s.servoOwner) :
    Agree (doServoFreqWrite who freq ctrl s) s := by
  unfold doServoFreqWrite
  rw [if_pos h]
  exact agree_ev s _ _

/-- A slew by the owner replaces the remainder. -/
theorem agree_doSlewWrite {s : State} {who : Nat} (amount : Nat) (h : who = s.servoOwner) (hc : s.reg .TME_CFG_COMPAT ≠ 1) :
    Agree (doSlewWrite who amount s)
      (({ s with tme := { s.tme with slewLeft := sgn 32 amount * (2 ^ 24 : Nat) } } : State).setRegs
        [(.TME_SLEW_AMT_AMOUNT, 0, amount), (.TME_STATUS_SLEWING, 0, b2n (sgn 32 amount != 0))]) := by
  have hc' : s.compat = false := (flag_eq_false s _ _).2 hc
  unfold doSlewWrite
  rw [if_neg (not_not_intro h), hc', if_neg (by decide)]
  dsimp only
  rw [State.evIf_tme]
  exact ((agree_evIf s _ _ _).setTme _).setRegs _

/-- A slew by another identity, or with COMPAT 1, changes nothing. -/
theorem agree_doSlewWrite_refused {s : State} {who : Nat} (amount : Nat) (h : who ≠ s.servoOwner ∨ s.reg .TME_CFG_COMPAT = 1) :
    Agree (doSlewWrite who amount s) s := by
  unfold doSlewWrite
  split
  · exact agree_ev s _ _
  next ho =>
    have hc : s.compat = true := (flag_eq_true s _ _).2 (h.resolve_left ho)
    rw [if_pos hc]
    exact agree_ev s _ _

/-! ### Stamps that a read takes out (R395, R402) -/

/-- A read of TXS shows the oldest entry. -/
theorem doTxsPop_cons {s : State} {i msg port seq stamp : Nat} {l : List (List Nat)}
    (h : tget [] s.tme.txs i = [msg, port, seq, stamp] :: l) :
    doTxsPop i s =
      (({ s with tme := { s.tme with txs := tset [] i l s.tme.txs } } : State).setRegs
        [(.TME_INST_TXS_VALID, i, 1), (.TME_INST_TXS_MSG, i, msg), (.TME_INST_TXS_PORT, i, port), (.TME_INST_TXS_SEQ, i, seq),
          (.TME_INST_TXS_NS_NS, i, stamp / 65536), (.TME_INST_TXS_GRAIN_GRAIN, i, stamp % 65536)]).emit
        (.readValue 0 (0x500110 + 0x40 * i) (2 ^ 31 + msg % 16 * 2 ^ 27 + port % 256 * 2 ^ 16 + seq % 65536)) := by
  unfold doTxsPop; rw [h]; rfl

/-- A read of TXS with nothing in the FIFO shows VALID 0. -/
theorem doTxsPop_nil {s : State} {i : Nat} (h : tget [] s.tme.txs i = []) :
    doTxsPop i s =
      (s.setRegs [(.TME_INST_TXS_VALID, i, 0), (.TME_INST_TXS_MSG, i, 0), (.TME_INST_TXS_PORT, i, 0), (.TME_INST_TXS_SEQ, i, 0)]).emit
        (.readValue 0 (0x500110 + 0x40 * i) 0) := by
  unfold doTxsPop; rw [h]

/-- A read of a pin's IN shows its oldest stamp. -/
theorem doTioInPop_cons {s : State} {n grain : Nat} {rising : Bool} {l : List (Bool × Nat)}
    (h : (s.tio n).fifo = (rising, grain) :: l) :
    doTioInPop n s =
      ((s.setTio n { s.tio n with fifo := l }).setRegs
        [(.TME_TIO_IN_VALID, n, 1), (.TME_TIO_IN_RISING, n, b2n rising), (.TME_TIO_IN_LEFT, n, l.length),
          (.TME_TIO_IN_SEC_SEC, n, grain * 2 ^ 24 / 2 ^ 40 / 10 ^ 9), (.TME_TIO_IN_NS_NS, n, grain * 2 ^ 24 / 2 ^ 40 % 10 ^ 9),
          (.TME_TIO_IN_FRAC_GRAIN, n, grain * 2 ^ 24 / 2 ^ 24 % 65536)]).emit
        (.readValue 0 (0x500224 + 0x40 * n) (2 ^ 31 + b2n rising * 2 ^ 30 + l.length)) := by
  unfold doTioInPop; dsimp only; rw [h]; dsimp only [fullTime]

/-- A read of a pin's IN with nothing in its FIFO shows VALID 0. -/
theorem doTioInPop_nil {s : State} {n : Nat} (h : (s.tio n).fifo = []) :
    doTioInPop n s = (s.setRegs [(.TME_TIO_IN_VALID, n, 0), (.TME_TIO_IN_RISING, n, 0), (.TME_TIO_IN_LEFT, n, 0)]).emit
      (.readValue 0 (0x500224 + 0x40 * n) 0) := by
  unfold doTioInPop; dsimp only; rw [h]

/-- Settles O27: each row is the branch its conditions select. -/
theorem timeRegisterRowsComplete : Obligations.TimeRegisterRowsComplete := by
  unfold Obligations.TimeRegisterRowsComplete
  refine ⟨?snapshot, ?latch, ?cfg, ?noCfg, ?servo, ?noServo, ?slew, ?noSlew, ?stamp, ?noStamp, ?edge, ?noEdge⟩
  case snapshot => exact fun s f => yields_eq (f := doTimeSnapshotRead f) rfl rfl
  case latch => exact fun s => yields_eq (f := doTimeLatchRead) rfl rfl
  case cfg => exact fun s compat owner ht hc ho => yields_eq (f := doTmeCfgWrite 0 compat owner) rfl (doTmeCfgWrite_takes ht hc ho)
  case noCfg =>
    exact fun s who compat owner ht hw => yields_run (f := doTmeCfgWrite who compat owner) rfl (agree_doTmeCfgWrite_refused _ _ ht hw)
  case servo =>
    refine fun s who freq timeout valid h => yields_eq (f := doServoFreqWrite who (some freq) (some (valid, timeout))) rfl ?_
    unfold doServoFreqWrite
    rw [if_neg (not_not_intro h), setRegs_cons]; dsimp only
    rw [State.setRegs_clk, State.setReg_clk]
  case noServo =>
    exact fun s who freq ctrl h => yields_run (f := doServoFreqWrite who freq ctrl) rfl (agree_doServoFreqWrite_refused freq ctrl h)
  case slew => exact fun s who amount h hc => yields_run (f := doSlewWrite who amount) rfl (agree_doSlewWrite amount h hc)
  case noSlew => exact fun s who amount h => yields_run (f := doSlewWrite who amount) rfl (agree_doSlewWrite_refused amount h)
  case stamp => exact fun s i msg port seq stamp l h => yields_eq (f := doTxsPop i) rfl (doTxsPop_cons h)
  case noStamp => exact fun s i h => yields_eq (f := doTxsPop i) rfl (doTxsPop_nil h)
  case edge => exact fun s n grain rising l h => yields_eq (f := doTioInPop n) rfl (doTioInPop_cons h)
  case noEdge => exact fun s n h => yields_eq (f := doTioInPop n) rfl (doTioInPop_nil h)

/-! ### PTP messages (R390-R394) -/

/-- A count of the time engine's unit is an account. -/
theorem agree_ptpCount (s : State) (item q p : Nat) : Agree (s.tally 5 item q 0 0 p 1) s := agree_tally s _ _ _ _ _ _ (by decide)

/-- The Sync of an instant that has come. -/
theorem agree_doSyncSend {s : State} {p : Nat} (hc : s.clockPort p 2 = true) (hr : s.syncInstant p s.grains ≤ s.grains)
    (hl : tget 0 s.tme.lastSync p < s.syncInstant p s.grains + 1) :
    Agree (doSyncSend p s)
      (let one := s.flag .TME_INST_CFG_ONE_STEP (s.portInst p)
       let r := s.syncInstant p s.grains
       let q := ({ s with tme := { s.tme with lastSync := tset 0 p (r + 1) s.tme.lastSync } } : State).nextSeq p 0
       q.1.sendDevice p ⟨0, one, q.2, r, 0⟩ (q.1.ptpFrame p (q.1.ptpTo p) true
         (q.1.ptpHeader p 0 44 (!one) 0 q.2 (unsgn 8 (sgn 4 (s.reg .TME_PORT_CFG_LOG_SYNC p))) ++ List.replicate 10 0))) := by
  unfold doSyncSend; dsimp only
  rw [if_neg (by rw [hc]; rintro (h | h | h) <;> [exact absurd h (by decide); omega; omega])]
  exact agree_ptpCount _ _ _ _

/-- No Sync goes out of a port that is no master, before the instant, or for an instant that has been served. -/
theorem doSyncSend_stays {s : State} {p : Nat} (h : s.clockPort p 2 = false ∨ s.grains < s.syncInstant p s.grains ∨
    s.syncInstant p s.grains + 1 ≤ tget 0 s.tme.lastSync p) : doSyncSend p s = s :=
  if_pos (h.imp_left fun h => by rw [h]; rfl)

/-- The Follow_Up or Pdelay_Resp_Follow_Up that is owed. -/
theorem agree_doFollowUpSend {s : State} {p : Nat} {d : PtpDue} (h : (s.tme.followUps.find? fun d => d.port == p) = some d) :
    Agree (doFollowUpSend p s)
      (let u : State := { s with tme := { s.tme with followUps := s.tme.followUps.erase d } }
       let g : Int := (d.stamp % 65536 : Nat)
       if (parse d.head).ptp.map PtpHead.msg = some 0 then
         u.sendDevice p ⟨8, false, d.seq, 0, 0⟩ (u.ptpFrame p (u.ptpTo p) false
           (u.ptpHeader p 8 44 false g d.seq (unsgn 8 (sgn 4 (s.reg .TME_PORT_CFG_LOG_SYNC p))) ++ stampBytes d.stamp))
       else
         u.sendDevice p ⟨10, false, d.seq, 0, 0⟩ (u.ptpFrame p (u.ptpTo p) false
           (u.ptpHeader p 10 54 false (d.corr + g) d.seq 0x7F ++ stampBytes d.stamp ++
             slice d.head (((parse d.head).ptp.map PtpHead.off).getD 0 + 44) 10))) := by
  unfold doFollowUpSend; rw [h]; dsimp only
  exact Agree.ite (fun _ => agree_ptpCount _ _ _ _) fun _ => Agree.refl _

/-- The Delay_Req of a port whose wait has gone by. -/
theorem agree_doDelayReqSend {s : State} {p : Nat} (hc : s.clockPort p 3 = true) (hn : tget 0 s.tme.nextDreq p ≤ s.grains) :
    Agree (doDelayReqSend p s)
      (let wait := Config.freeDelayReq s.freeCtr % (2 * logGrains (s.reg .TME_PORT_CFG_LOG_DREQ p) + 1)
       let q := (({ s with tme := { s.tme with nextDreq := tset 0 p (s.grains + wait) s.tme.nextDreq } } : State).fresh).nextSeq p 1
       q.1.sendDevice p ⟨1, true, q.2, 0, 0⟩ (q.1.ptpFrame p (q.1.ptpTo p) true
         (q.1.ptpHeader p 1 44 false 0 q.2 0x7F ++ List.replicate 10 0))) := by
  unfold doDelayReqSend; dsimp only
  rw [if_neg (by rw [hc]; rintro (h | h) <;> [exact absurd h (by decide); omega])]
  exact agree_ptpCount _ _ _ _

/-- The Pdelay_Req of a P2P port whose interval has gone by. -/
theorem agree_doPdelayReqSend {s : State} {p : Nat} (hp : p < 256) (hs : s.portState p ≠ 0)
    (he : s.reg .TME_INST_CFG_EN (s.portInst p) = 1) (hd : s.reg .TME_INST_CFG_DELAY (s.portInst p) = 1)
    (hn : tget 0 s.tme.nextPdelay p ≤ s.grains) :
    Agree (doPdelayReqSend p s)
      (let per := logGrains (s.reg .TME_PORT_CFG_LOG_PDELAY p)
       let due := tget 0 s.tme.nextPdelay p
       let next := if due ≠ 0 ∧ s.grains < due + per then due + per else s.grains + per
       let q := ({ s with tme := { s.tme with nextPdelay := tset 0 p next s.tme.nextPdelay } } : State).nextSeq p 2
       q.1.sendDevice p ⟨2, true, q.2, 0, 0⟩ (q.1.ptpFrame p (q.1.ptpTo p) true
         (q.1.ptpHeader p 2 54 false 0 q.2 0x7F ++ List.replicate 20 0))) := by
  have hguard : ¬ (p ≥ 256 ∨ s.portState p = 0 ∨ (!s.flag .TME_INST_CFG_EN (s.portInst p)) = true ∨
      (!s.flag .TME_INST_CFG_DELAY (s.portInst p)) = true ∨ s.grains < tget 0 s.tme.nextPdelay p) := by
    rw [(flag_eq_true s _ _).2 he, (flag_eq_true s _ _).2 hd]
    rintro (h | h | h | h | h)
    exacts [by omega, hs h, absurd h (by decide), absurd h (by decide), by omega]
  unfold doPdelayReqSend; dsimp only
  rw [if_neg hguard]
  exact agree_ptpCount _ _ _ _

/-- The Delay_Resp that is owed. -/
theorem agree_doDelayRespSend {s : State} {p : Nat} {d : PtpDue} (h : (s.tme.delayResps.find? fun d => d.port == p) = some d) :
    Agree (doDelayRespSend p s)
      (let u : State := { s with tme := { s.tme with delayResps := s.tme.delayResps.erase d } }
       let x := parse d.head
       let o := (x.ptp.map PtpHead.off).getD 0
       let dest := if bit (x.dmac.getD 0 0) 0 then u.ptpTo p else { u.ptpTo p with dmac := x.smac, ip := x.src }
       u.sendDevice p ⟨9, true, d.seq, 0, 0⟩ (u.ptpFrame p { dest with tag := x.tag } false
         (u.ptpHeader p 9 54 false (sgn 64 (ofBE (slice d.head (o + 8) 8)) - (d.stamp % 65536 : Nat)) d.seq
             (unsgn 8 (sgn 4 (s.reg .TME_PORT_CFG_LOG_DREQ p))) ++ stampBytes d.stamp ++ slice d.head (o + 20) 10))) := by
  unfold doDelayRespSend; rw [h]; dsimp only
  exact agree_ptpCount _ _ _ _

/-- The Pdelay_Resp that is owed. -/
theorem agree_doPdelayRespSend {s : State} {p : Nat} {d : PtpDue} (h : (s.tme.pdelayResps.find? fun d => d.port == p) = some d) :
    Agree (doPdelayRespSend p s)
      (let u : State := { s with tme := { s.tme with pdelayResps := s.tme.pdelayResps.erase d } }
       let o := ((parse d.head).ptp.map PtpHead.off).getD 0
       let one := s.flag .TME_INST_CFG_ONE_STEP (s.portInst p)
       let corr := sgn 64 (ofBE (slice d.head (o + 8) 8))
       u.sendDevice p ⟨3, one, d.seq, d.stamp, corr⟩ (u.ptpFrame p (u.ptpTo p) true
         (if one then u.ptpHeader p 3 54 false corr d.seq 0x7F ++ List.replicate 10 0 ++ slice d.head (o + 20) 10
          else u.ptpHeader p 3 54 true (-(d.stamp % 65536 : Nat)) d.seq 0x7F ++ stampBytes d.stamp ++ slice d.head (o + 20) 10))) := by
  unfold doPdelayRespSend; rw [h]; dsimp only
  exact agree_ptpCount _ _ _ _

/-- The sequenceIds of a port and message count on by themselves. -/
theorem nextSeq_nextSeq (s : State) {p q m k : Nat} (hm : m < 16) (hk : k < 16) :
    ((s.nextSeq p m).1.nextSeq q k).2 =
      if q = p ∧ k = m then ((s.nextSeq p m).2 + 1) % 65536 else tget 0 s.tme.seqs (q * 16 + k) := by
  unfold State.nextSeq; dsimp only
  split
  next h => rw [h.1, h.2, tget_tset_self]
  next h =>
    have hne : q * 16 + k ≠ p * 16 + m := fun e => h ⟨by omega, by omega⟩
    exact tget_tset_ne _ _ _ hne _

/-- Settles O43: each row sends the message that its conditions select, and counts it. -/
theorem ptpMessageRowsComplete : Obligations.PtpMessageRowsComplete := by
  unfold Obligations.PtpMessageRowsComplete
  refine ⟨?sync, ?noSync, ?followUp, ?delayReq, ?pdelayReq, ?delayResp, ?pdelayResp, fun s p => ?noneOwed,
    fun s p q m k hm hk => ⟨rfl, nextSeq_nextSeq s hm hk⟩, fun s => yields_eq rfl rfl⟩
  case sync => exact fun s p hc hr hl => yields_run (f := doSyncSend p) rfl (agree_doSyncSend hc hr hl)
  case noSync => exact fun s p h => yields_eq (f := doSyncSend p) rfl (doSyncSend_stays h)
  case followUp => exact fun s p d h => yields_run (f := doFollowUpSend p) rfl (agree_doFollowUpSend h)
  case delayReq => exact fun s p hc hn => yields_run (f := doDelayReqSend p) rfl (agree_doDelayReqSend hc hn)
  case pdelayReq => exact fun s p hp hs he hd hn => yields_run (f := doPdelayReqSend p) rfl (agree_doPdelayReqSend hp hs he hd hn)
  case delayResp => exact fun s p d h => yields_run (f := doDelayRespSend p) rfl (agree_doDelayRespSend h)
  case pdelayResp => exact fun s p d h => yields_run (f := doPdelayRespSend p) rfl (agree_doPdelayRespSend h)
  case noneOwed =>
    refine ⟨fun h => yields_eq (f := doFollowUpSend p) rfl ?_, fun h => yields_eq (f := doDelayRespSend p) rfl ?_,
      fun h => yields_eq (f := doPdelayRespSend p) rfl ?_⟩
    · unfold doFollowUpSend; rw [h]
    · unfold doDelayRespSend; rw [h]
    · unfold doPdelayRespSend; rw [h]

end Machine
end Sys2Proof
end

section
/-!
PROOFS. The symbols of a PAM4 lane (R155): the Gray code gives back its pair of bits, and the receiver undoes the precoder symbol
by symbol.
-/
namespace Sys2Proof
namespace Machine

/-! ### PAM4 levels (R155) -/

/-- A level gives back the pair of bits it was made from. -/
@[simp] theorem grayBits_grayLevel (a b : Bool) : grayBits (grayLevel a b) = [a, b] := by
  cases a <;> cases b <;> rfl

/-- The levels of whole pairs of bits give back the bits. -/
theorem grayBits_pamLevels : ∀ l : List Bool, l.length % 2 = 0 → ((pamLevels l).map grayBits).flatten = l
  | [], _ => rfl
  | [_], h => absurd h (by simp)
  | a :: b :: t, h => by
    have ht : t.length % 2 = 0 := by simp only [List.length_cons] at h; omega
    simp [pamLevels, grayBits_pamLevels t ht]

/-- The symbol sent for level `g` after symbol `p`, as R155 writes it. -/
theorem precodeSymbol_cast (p g : Nat) : (((g + 4 - p % 4) % 4 : Nat) : Int) = ((g : Int) - p) % 4 := by omega

/-- The receiver adds the symbol before and has the level back. -/
theorem precodeSymbol_undone (p : Nat) {g : Nat} (h : g < 4) : ((g + 4 - p % 4) % 4 + p) % 4 = g := by omega

/-- The receiver recovers every precoded sequence of levels, whatever symbol was sent before it. -/
theorem unprecode_precode (p : Nat) (l : List Nat) (h : ∀ g ∈ l, g < 4) : unprecode p (precode p l) = l := by
  induction l generalizing p with
  | nil => rfl
  | cons g t ih =>
    obtain ⟨hg, ht⟩ := List.forall_mem_cons.1 h
    simp only [precode, unprecode]
    rw [precodeSymbol_undone p hg, ih _ ht]

/-- Settles O57: the code pair by pair, the precoder by induction on the levels with the last symbol arbitrary. -/
theorem pamLevelsRoundTrip : Obligations.PamLevelsRoundTrip := by
  unfold Obligations.PamLevelsRoundTrip
  exact ⟨⟨rfl, rfl, rfl, rfl⟩, fun _ _ _ => rfl, fun p g _ => ⟨_, precodeSymbol_cast p g, rfl⟩, fun _ _ _ => rfl,
    unprecode_precode, grayBits_pamLevels⟩

end Machine
end Sys2Proof
end

section
/-!
PROOFS. The rows of a port (R173, R201-R209, R296): pauses of the partner, XOFF sent and released, holds, the verification of
preemption, and the port that comes up.
-/
namespace Sys2Proof
namespace Machine

/-! ### Pauses of the partner (R204, R206) -/

/-- A PAUSE at a port without PFC pauses every priority, and counts nothing. -/
theorem doPauseFrameReceive_pause {s : State} {p : Nat} (quanta : List (Nat × Nat)) (all : Nat)
    (h : ¬(p < 256 ∧ s.reg .PRT_MODE_PFC p = 1)) :
    doPauseFrameReceive p false quanta all s = (List.range 8).foldl (fun (u : State) k => u.pauseFor p k all) s := by
  have hu : ¬(p < 256 ∧ s.flag .PRT_MODE_PFC p = true) := by rwa [flag_eq_true]
  unfold doPauseFrameReceive
  simp only [hu, Bool.false_eq_true, false_and, if_false]

/-- A PAUSE at a port with PFC is counted and reported. -/
theorem agree_doPauseFrameReceive_ignored {s : State} {p : Nat} (quanta : List (Nat × Nat)) (all : Nat)
    (h : p < 256 ∧ s.reg .PRT_MODE_PFC p = 1) :
    Agree (doPauseFrameReceive p false quanta all s) ((List.range 8).foldl (fun (u : State) k => u.portCount p (11 + k) 1) s) := by
  have hu : p < 256 ∧ s.flag .PRT_MODE_PFC p = true := by rwa [flag_eq_true]
  unfold doPauseFrameReceive
  simp only [hu, Bool.false_eq_true, false_and, and_self, if_false, if_true]
  exact (agree_evTally _ _ _ _).trans (agree_pauseCounts _ _ _ _ (Agree.refl _))

/-- The count of one priority of a received PFC frame. -/
theorem agree_pfcCount (s : State) (p prio : Nat) :
    Agree ((s.portCount p (11 + prio) 1).tally 12 5 1 (prio + 1) 0 p 1) (s.portCount p (11 + prio) 1) :=
  agree_tally _ _ _ _ _ _ _ (by decide)

/-- A PFC frame of one priority that the port's mask admits pauses it. -/
theorem agree_doPauseFrameReceive_pfc {s : State} {p prio : Nat} (all q : Nat) (h : p < 256 ∧ s.reg .PRT_MODE_PFC p = 1)
    (hm : bit (s.reg .PRT_MODE_PFC_MASK p) prio = true) :
    Agree (doPauseFrameReceive p true [(prio, q)] all s) ((s.portCount p (11 + prio) 1).pauseFor p prio q) := by
  have hu : p < 256 ∧ s.flag .PRT_MODE_PFC p = true := by rwa [flag_eq_true]
  have hc := agree_pfcCount s p prio
  have hk : ((s.portCount p (11 + prio) 1).tally 12 5 1 (prio + 1) 0 p 1).reg .PRT_MODE_PFC_MASK p = s.reg .PRT_MODE_PFC_MASK p :=
    hc.reg (by decide) (by omega)
  unfold doPauseFrameReceive
  simp only [hu, and_self, if_true, List.foldl_cons, List.foldl_nil, hk, List.filter_cons, List.filter_nil, hm,
    Bool.not_true, Bool.false_eq_true, if_false, List.isEmpty_nil]
  exact hc.pauseFor p prio q (by omega)

/-- A PFC frame at a port without PFC is counted and reported. -/
theorem agree_doPauseFrameReceive_pfcIgnored {s : State} {p : Nat} (all prio q : Nat) (h : ¬(p < 256 ∧ s.reg .PRT_MODE_PFC p = 1)) :
    Agree (doPauseFrameReceive p true [(prio, q)] all s) (s.portCount p (11 + prio) 1) := by
  have hu : ¬(p < 256 ∧ s.flag .PRT_MODE_PFC p = true) := by rwa [flag_eq_true]
  unfold doPauseFrameReceive
  simp only [hu, and_false, if_true, if_false, List.foldl_cons, List.foldl_nil]
  exact (agree_evTally _ _ _ _).trans (agree_pfcCount s p prio)

/-- Quanta 0 release a paused priority, from a free instant on. -/
theorem pauseFor_release {s : State} {p prio : Nat} (h : s.paused p prio = true) :
    s.pauseFor p prio 0 = (let u := s.unpause p prio
      ({ u with prt := { u.prt with
        pauseTo := tins (pkey p prio) (u.grains + Config.freePauseHold u.freeCtr % 33 * 40960) u.prt.pauseTo } } : State).fresh) := by
  unfold State.pauseFor
  rw [if_pos rfl, if_pos h]

/-- A port's pauses are no part of its rate. -/
theorem portGbps_xoffRx (s : State) {p : Nat} (v : Nat) (hp : p < 8192) :
    (s.setReg .PRT_PFC_XOFF_RX p v).portGbps p = s.portGbps p := by
  unfold State.portGbps
  rw [State.reg_setReg_ne s (g := .PRT_MODE_RATE) (by decide) v hp hp,
    State.reg_setReg_ne s (g := .PRT_MPCFG_MP0) (by decide) v hp (by decide),
    State.reg_setReg_ne s (g := .PRT_MPCFG_MP1) (by decide) v hp (by decide)]

/-- New quanta for a paused priority move the end of its pause only. -/
theorem pauseFor_again {s : State} {p prio q : Nat} (hp : p < 258) (hq : q ≠ 0) (h : s.paused p prio = true) :
    s.pauseFor p prio q = ({ s.setReg .PRT_PFC_XOFF_RX p (s.reg .PRT_PFC_XOFF_RX p ||| 2 ^ prio) with prt := { s.prt with
      pauseEnd := tins (pkey p prio) (s.grains + quantaGrains (s.portGbps p) q) s.prt.pauseEnd } } : State).fresh := by
  unfold State.pauseFor
  dsimp only
  rw [if_neg hq, h, portGbps_xoffRx s _ (by omega)]
  rfl

/-- A pause whose end has come ends. -/
theorem doPauseExpiry_ends {s : State} {p prio : Nat} (h : s.paused p prio = true)
    (he : tget 0 s.prt.pauseEnd (pkey p prio) ≤ s.grains) : doPauseExpiry p prio s = s.unpause p prio :=
  if_pos ⟨h, he⟩

/-- A pause that is not there, or still runs, does not end. -/
theorem doPauseExpiry_stays {s : State} {p prio : Nat}
    (h : s.paused p prio = false ∨ s.grains < tget 0 s.prt.pauseEnd (pkey p prio)) : doPauseExpiry p prio s = s := by
  refine if_neg ?_
  rintro ⟨hp, he⟩
  rcases h with h | h
  · rw [h] at hp; exact absurd hp (by decide)
  · omega

/-! ### Holds and their refresh (R205, R208, R296) -/

/-- E036 of a hold of LIMIT ticks, once for each direction. -/
theorem agree_doHoldLimit {s : State} {p prio : Nat} {sending : Bool} (hl : s.reg .PRT_HOLD_LIMIT p ≠ 0)
    (hs : (if sending then tget 0 s.swc.holdSince (pkey p prio) else tget 0 s.prt.pausedSince (pkey p prio)) ≠ 0)
    (ht : s.reg .PRT_HOLD_LIMIT p ≤ s.clk.tickCount + 1 -
      (if sending then tget 0 s.swc.holdSince (pkey p prio) else tget 0 s.prt.pausedSince (pkey p prio)))
    (hn : bit (tget 0 s.prt.holdTold (pkey p prio)) (b2n !sending) = false) :
    Agree (doHoldLimit p prio sending s)
      { s with prt := { s.prt with holdTold := tupd 0 (pkey p prio) (· + (if sending then 1 else 2)) s.prt.holdTold } } := by
  unfold doHoldLimit State.holdLimit
  dsimp only
  rw [if_pos ⟨hl, hs, ht, by rw [hn]; rfl⟩, State.evLow_prt]
  exact (agree_evLow _ _ _ _).setPrt _

/-- The pools whose room a release looks at are four. -/
theorem holdPools_lt (l : List Nat) (c : Prop) [Decidable c] :
    ∀ q ∈ (if c then 2 :: l.map fun k => [0, 1, 1, 2, 3].getD k 3 else l.map fun k => [0, 1, 1, 2, 3].getD k 3), q < 4 := by
  have hk : ∀ k, [0, 1, 1, 2, 3].getD k 3 < 4
    | 0 | 1 | 2 | 3 | 4 | _ + 5 => by simp
  split <;> simpa using fun a _ => hk a

/-- Where nothing waits at a full queue, every pool of the priority has room and the hold is one of several, its release sends
quanta 0. -/
theorem agree_doHoldRelease {s : State} {p prio : Nat} (hp : p < 256) (hh : s.held p prio = true) (hf : s.swc.frames = [])
    (hw : s.swc.caravanWait = [])
    (hr : ∀ q, q < 4 → tget 0 s.oas.hdrm (p * 4 + q) = 0 ∧ s.inUse q + s.reg .SWC_ADMIT_XON_GAP ≤ s.reg .OAS_POOL_LIMIT_LIMIT q)
    (h0 : s.reg .SWC_HOLD_HELD p - 2 ^ prio ≠ 0) (h8 : s.reg .SWC_HOLD_HELD p < 256) :
    Agree (doHoldRelease p prio s)
      (({ s.setReg .SWC_HOLD_HELD p (s.reg .SWC_HOLD_HELD p - 2 ^ prio) with
        swc := { s.swc with holdSince := tdel (pkey p prio) s.swc.holdSince }
        prt := { s.prt with holdTold := tset 0 (pkey p prio) (tget 0 s.prt.holdTold (pkey p prio) / 2 * 2) s.prt.holdTold } } : State).sendXoff
          p prio 0) := by
  have hleft : (s.reg .SWC_HOLD_HELD p - 2 ^ prio) % 2 ^ Fld.width .SWC_HOLD_HELD ≠ 0 := by
    rw [Nat.mod_eq_of_lt (show _ < 2 ^ Fld.width .SWC_HOLD_HELD from lt_of_le_of_lt (Nat.sub_le _ _) h8)]; exact h0
  have hroom : ∀ q, q < 4 → (tget 0 s.oas.hdrm (p * 4 + q) == 0 &&
      decide (s.inUse q + s.reg .SWC_ADMIT_XON_GAP ≤ s.reg .OAS_POOL_LIMIT_LIMIT q)) = true :=
    fun q hq => by simpa using hr q hq
  unfold doHoldRelease
  dsimp only
  rw [if_pos ⟨hh, List.all_eq_true.2 fun q hq => hroom q (holdPools_lt _ _ q hq), by rw [hf, hw]; rfl, hp⟩, if_neg]
  · exact agree_evT _ _ _
  · show ((s.setReg .SWC_HOLD_HELD p _).reg .SWC_HOLD_HELD p) ≠ 0
    rw [State.reg_setReg]; exact hleft

/-- A priority that is not held has nothing to release. -/
theorem doHoldRelease_stays {s : State} {p prio : Nat} (h : s.held p prio = false) : doHoldRelease p prio s = s := by
  unfold doHoldRelease
  exact if_neg fun hc => absurd (h ▸ hc.1) (by decide)

/-! ### Verification of preemption (R201) -/

/-- A verify is sent while fewer than three were, VERIFY_MS after the last. -/
theorem doPreemptVerify_sends {s : State} {p : Nat} (hs : s.reg .PRT_PREEMPT_STATE p = 1) (ht : tget 0 s.prt.verifyTries p < 3)
    (hd : tget 0 s.prt.verifyTries p = 0 ∨ tget 0 s.prt.verifyAt p + 1000 * s.reg .PRT_PREEMPT_VERIFY_MS p ≤ s.clk.tickCount) :
    doPreemptVerify p 0 s = ({ s with prt := { s.prt with
      verifyTries := tins p (tget 0 s.prt.verifyTries p + 1) s.prt.verifyTries
      verifyAt := tins p s.clk.tickCount s.prt.verifyAt } } : State).emit (.verify p 0) :=
  if_pos ⟨hs, ht, by simpa using hd⟩

/-- The partner's verify is answered. -/
theorem doPreemptVerify_answers {s : State} {p : Nat} (hm : s.reg .PRT_MODE_PREEMPT p = 1) (hu : s.reg .PRT_MODE_UP p = 1) :
    doPreemptVerify p 1 s = s.emit (.verify p 1) :=
  if_pos ⟨(flag_eq_true _ _ _).2 hm, (flag_eq_true _ _ _).2 hu⟩

/-- A response ends the verification ACTIVE. -/
theorem agree_doPreemptVerify_active {s : State} {p : Nat} (hs : s.reg .PRT_PREEMPT_STATE p = 1) :
    Agree (doPreemptVerify p 2 s) (s.setReg .PRT_PREEMPT_STATE p 2) := by
  have he : doPreemptVerify p 2 s =
      (s.setReg .PRT_PREEMPT_STATE p 2).evLow 35 p [(1, 2), (4, tget 0 s.prt.verifyTries p)] := if_pos hs
  rw [he]; exact agree_evLow _ _ _ _

/-- Three tries without a response end it FAILED, VERIFY_MS after the last. -/
theorem agree_doPreemptVerify_failed {s : State} {p : Nat} (hs : s.reg .PRT_PREEMPT_STATE p = 1)
    (ht : 3 ≤ tget 0 s.prt.verifyTries p)
    (hd : tget 0 s.prt.verifyAt p + 1000 * s.reg .PRT_PREEMPT_VERIFY_MS p ≤ s.clk.tickCount) :
    Agree (doPreemptVerify p 3 s) (s.setReg .PRT_PREEMPT_STATE p 3) := by
  have he : doPreemptVerify p 3 s =
      (s.setReg .PRT_PREEMPT_STATE p 3).evLow 35 p [(1, 3), (4, tget 0 s.prt.verifyTries p)] :=
    if_pos ⟨hs, ht, by simp [hd]⟩
  rw [he]; exact agree_evLow _ _ _ _

/-! ### A port that comes up (R173) -/

/-- All lanes UP at the target rung and a beat each way: the port takes its record and comes up. -/
theorem agree_doPortUp {s : State} {p : Nat} (hp : p < 256) (ha : s.reg .PRT_MODE_ADMIN_UP p = 1) (hu : s.reg .PRT_MODE_UP p = 0)
    (hl : ∀ i ∈ portLanes p (s.reg .PRT_MODE_WIDTH p), s.reg .LN_STATUS_STATE i = 6 ∧ s.reg .LN_STATUS_RUNG i = s.portRung p)
    (h0 : s.seifBeaten p 0 = true) (h1 : s.seifBeaten p 1 = true) :
    Agree (doPortUp p s) (((s.portRecord p).setReg .PRT_MODE_UP p 1).preemptStart p) := by
  have hon : s.adminOn p = true := by unfold State.adminOn; rw [if_pos hp]; exact (flag_eq_true _ _ _).2 ha
  have hdown : s.flag .PRT_MODE_UP p = false := (flag_eq_false _ _ _).2 (by rw [hu]; decide)
  unfold doPortUp; dsimp only
  rw [if_pos hp, if_pos]
  · exact agree_evLow _ _ _ _
  · exact ⟨hon, by rw [hdown]; rfl, by simpa [State.laneState] using hl, .inr ⟨h0, h1⟩⟩

/-- A port that is up stays. -/
theorem doPortUp_stays {s : State} {p : Nat} (hu : s.reg .PRT_MODE_UP p = 1) : doPortUp p s = s := by
  unfold doPortUp
  refine if_neg ?_
  rw [(flag_eq_true _ _ _).2 hu]
  exact fun h => absurd h.2.1 (by decide)

/-- Settles O42: each row is the branch its conditions select. -/
theorem portRowsComplete : Obligations.PortRowsComplete := by
  unfold Obligations.PortRowsComplete
  refine ⟨?pause, ?pauseIgnored, ?pfc, ?pfcIgnored, fun s p prio h => pauseFor_release h, fun s p prio q hp hq h => pauseFor_again hp hq h,
    ?expiry, ?noExpiry, ?refresh, ?limit, fun s p hs => ⟨?sends, ?active, ?failed⟩, ?answers, ?up, ?isUp, ?release, ?noHold⟩
  case pause => exact fun s p all quanta h => yields_eq rfl (doPauseFrameReceive_pause quanta all h)
  case pauseIgnored => exact fun s p all quanta hp h => yields_run rfl (agree_doPauseFrameReceive_ignored quanta all ⟨hp, h⟩)
  case pfc => exact fun s p all prio q hp _ h hm => yields_run rfl (agree_doPauseFrameReceive_pfc all q ⟨hp, h⟩ hm)
  case pfcIgnored => exact fun s p all prio q h => yields_run rfl (agree_doPauseFrameReceive_pfcIgnored all prio q h)
  case expiry => exact fun s p prio h he => yields_eq rfl (doPauseExpiry_ends h he)
  case noExpiry => exact fun s p prio h => yields_eq rfl (doPauseExpiry_stays h)
  case refresh => exact fun s p prio h hn hd => yields_eq (f := doXoffRefresh p prio) rfl (if_pos ⟨h, hn, hd⟩)
  case limit => exact fun s p prio sending hl hs ht hn => yields_run rfl (agree_doHoldLimit hl hs ht hn)
  case sends => exact fun ht hd => yields_eq rfl (doPreemptVerify_sends hs ht hd)
  case active => exact yields_run rfl (agree_doPreemptVerify_active hs)
  case failed => exact fun ht hd => yields_run rfl (agree_doPreemptVerify_failed hs ht hd)
  case answers => exact fun s p hm hu => yields_eq rfl (doPreemptVerify_answers hm hu)
  case up => exact fun s p hp ha hu hl h0 h1 => yields_run rfl (agree_doPortUp hp ha hu hl h0 h1)
  case isUp => exact fun s p hu => yields_eq rfl (doPortUp_stays hu)
  case release => exact fun s p prio hp hh hf hw hr h0 h8 => yields_run rfl (agree_doHoldRelease hp hh hf hw hr h0 h8)
  case noHold => exact fun s p prio h => yields_eq rfl (doHoldRelease_stays h)

end Machine
end Sys2Proof
end

section
/-!
PROOFS. The rows of a lane's bring-up (R159-R174): the board table, signal and lock, the ladder, Clause 73, time-outs, back-off and
the verdict of an attempt.
-/
namespace Sys2Proof
namespace Machine

/-! ### The board table (R160, R161) -/

/-- RELOAD takes a table that passes its checks. -/
theorem agree_doReload_ok (s : State) {t : List Nat} (h : boardOk t = true) :
    Agree (doReload t s) (({ s with ln := { s.ln with board := some t } } : State).setRegs [(.LN_TABLE_STATUS_VALID, 0, 1),
      (.LN_TABLE_STATUS_DEFAULTS, 0, 0), (.LN_TABLE_STATUS_VERSION, 0, 1), (.LN_BOARD_ID_ID, 0, ofLE (slice t 28 4))]) := by
  unfold doReload State.loadBoard
  rw [if_pos h]; exact agree_ev _ _ _

/-- RELOAD falls back on the built-in entries otherwise. -/
theorem agree_doReload_bad (s : State) {t : List Nat} (h : boardOk t = false) :
    Agree (doReload t s) (({ s with ln := { s.ln with board := none } } : State).setRegs [(.LN_TABLE_STATUS_VALID, 0, 0),
      (.LN_TABLE_STATUS_DEFAULTS, 0, 1), (.LN_TABLE_STATUS_CRC_ERR, 0, 1), (.LN_TABLE_STATUS_VERSION, 0, 0),
      (.LN_BOARD_ID_ID, 0, 0)]) := by
  unfold doReload State.loadBoard
  rw [if_neg (by rw [h]; decide)]; exact agree_ev _ _ _

/-! ### A signal that appears (R169, R172, R174) -/

/-- What a lane does that sees a signal, by its state and method. -/
theorem doLaneSignalDetect_eq (s : State) {i : Nat} (hi : i < 260) :
    doLaneSignalDetect i s =
      (let shown := s.setReg .LN_STATUS_SIGNAL i 1
       if s.laneHeld i = true then shown
       else if s.laneState i = 2 then
         (if (s.lane i).method = 2 then shown.setLaneState i 4
          else if (s.lane i).method = 1 then (shown.setLaneState i 3).sendBasePage i else shown.setLaneState i 3)
       else if s.laneState i = 8 ∧ tget 0 s.ln.power i ≠ 4 then shown.laneRestart i
       else shown) := by
  unfold doLaneSignalDetect
  dsimp only
  rw [laneState_signal s i 1 hi, lane_setReg]
  refine if_congr Iff.rfl rfl ?_
  split
  next h => rw [if_pos h]
  next h =>
    rw [if_neg (show ¬ s.laneState i = 2 by omega)]
    split
    next hp => exact (if_neg fun e => e.2 hp).symm
    next hp => exact (if_pos ⟨h, hp⟩).symm
  next h2 h8 => rw [if_neg h2, if_neg fun e => h8 e.1]

/-! ### A lost signal or lock (R170, R174) -/

/-- What a lane shows once its signal (or, `lockOnly`, its lock alone) is lost. -/
def State.laneLost (s : State) (i : Nat) (lockOnly : Bool) : State :=
  (if lockOnly then s else s.setReg .LN_STATUS_SIGNAL i 0).setRegs [(.LN_STATUS_LOCK, i, 0), (.LN_STATUS_MERIT, i, 0)]

/-- A loss that is shown leaves the state of its lane. -/
theorem laneState_laneLost (s : State) {i : Nat} (lockOnly : Bool) (hi : i < 260) :
    (s.laneLost i lockOnly).laneState i = s.laneState i := by
  unfold State.laneLost
  rw [laneState_lock _ i hi]
  cases lockOnly
  · exact laneState_signal s i 0 hi
  · rfl

/-- A loss that is shown holds no lane and frees none. -/
theorem laneHeld_laneLost (s : State) (i : Nat) (lockOnly : Bool) : (s.laneLost i lockOnly).laneHeld i = s.laneHeld i := by
  cases lockOnly <;> rfl

/-- What a lane does that loses its signal or its lock, by its state. -/
theorem doLaneSignalLoss_eq (s : State) {i : Nat} (lockOnly : Bool) (hi : i < 260) :
    doLaneSignalLoss i lockOnly s =
      (let lost := s.laneLost i lockOnly
       if s.laneHeld i = true then lost
       else if s.laneState i = 4 ∨ (lockOnly = false ∧ (s.laneState i = 3 ∨ s.laneState i = 5)) then lost.laneFail i
       else if s.laneState i = 6 then lost.laneDrop i (if lockOnly then 2 else 1)
       else if s.laneState i = 10 ∧ isMywyn i = true then lost.laneRestart i
       else lost) := by
  rw [← laneState_laneLost s lockOnly hi, ← laneHeld_laneLost s i lockOnly]
  unfold doLaneSignalLoss
  refine if_congr Iff.rfl rfl ?_
  rw [← State.laneLost]
  split
  next h => cases lockOnly <;> simp [h]
  next h => simp [h]
  next h => cases lockOnly <;> simp [h]
  next h => simp [h]
  next h => simp [h]
  next h3 h4 h5 h6 h10 => rw [if_neg fun e => e.elim h4 fun e => e.2.elim h3 h5, if_neg h6, if_neg fun e => h10 e.1]

/-- A lane in adaptation, or in any bring-up state without its signal, fails. -/
theorem doLaneSignalLoss_fails {s : State} {i : Nat} {lockOnly : Bool} (hi : i < 260) (hh : s.laneHeld i = false)
    (h : s.laneState i = 4 ∨ (lockOnly = false ∧ (s.laneState i = 3 ∨ s.laneState i = 5))) :
    doLaneSignalLoss i lockOnly s = (s.laneLost i lockOnly).laneFail i := by
  rw [doLaneSignalLoss_eq s _ hi]; dsimp only
  rw [if_neg (by rw [hh]; decide), if_pos h]

/-- A lane that is UP drops. -/
theorem doLaneSignalLoss_drops {s : State} {i : Nat} (lockOnly : Bool) (hi : i < 260) (hh : s.laneHeld i = false)
    (h6 : s.laneState i = 6) : doLaneSignalLoss i lockOnly s = (s.laneLost i lockOnly).laneDrop i (if lockOnly then 2 else 1) := by
  rw [doLaneSignalLoss_eq s _ hi]; dsimp only
  rw [if_neg (by rw [hh]; decide), if_neg (by omega), if_pos h6]

/-- A raw Mywyn lane starts again. -/
theorem doLaneSignalLoss_restarts {s : State} {i : Nat} (lockOnly : Bool) (hi : i < 260) (hh : s.laneHeld i = false)
    (h10 : s.laneState i = 10) (hm : isMywyn i = true) : doLaneSignalLoss i lockOnly s = (s.laneLost i lockOnly).laneRestart i := by
  rw [doLaneSignalLoss_eq s _ hi]; dsimp only
  rw [if_neg (by rw [hh]; decide), if_neg (by omega), if_neg (by omega), if_pos ⟨h10, hm⟩]

/-- Every other lane only shows the loss. -/
theorem doLaneSignalLoss_shows {s : State} {i : Nat} {lockOnly : Bool} (hi : i < 260)
    (hf : ¬ (s.laneState i = 4 ∨ (lockOnly = false ∧ (s.laneState i = 3 ∨ s.laneState i = 5)))) (h6 : s.laneState i ≠ 6)
    (hr : ¬ (s.laneState i = 10 ∧ isMywyn i = true)) : doLaneSignalLoss i lockOnly s = s.laneLost i lockOnly := by
  rw [doLaneSignalLoss_eq s _ hi]; dsimp only
  rw [if_neg hf, if_neg h6, if_neg hr, ite_self]

/-! ### The ladder (R166-R168) -/

/-- A lane that is not good sends HELLO. -/
theorem doLadderBlockSend_hello {s : State} {i : Nat} (hm : (s.lane i).method = 0 ∨ (s.lane i).method = 3) (h2 : 2 ≤ s.laneState i)
    (h5 : s.laneState i ≤ 5) (hh : s.laneHeld i = false) (hg : s.laneGood i = false) (hd : (s.lane i).doneSent < 3) :
    doLadderBlockSend i s =
      (s.emit (.ladder i 0 (ladderBlock (s.reg .LN_STATUS_RUNG i * 4)
          ((s.lane i).top * 32 + b2n ((s.lane i).entryFlag 1) * 16 + (s.lane i).seq % 8) (s.reg .LN_STATUS_MERIT i))
        (s.txInverted i))).setLane i { s.lane i with seq := ((s.lane i).seq + 1) % 8, readySent := false, ready := 0 } := by
  have hd' : ¬ 3 ≤ (s.lane i).doneSent := by omega
  unfold doLadderBlockSend
  simp [hm, h2, h5, hh, hg, hd']

/-- Only a ladder lane in bring-up sends blocks. -/
theorem doLadderBlockSend_stays {s : State} {i : Nat}
    (h : (s.lane i).method = 1 ∨ (s.lane i).method = 2 ∨ s.laneState i < 2 ∨ 5 < s.laneState i ∨ s.laneHeld i = true) :
    doLadderBlockSend i s = s := by
  refine if_neg ?_
  rintro ⟨hm, h2, h5, hh⟩
  simp only [(Bool.not_eq_true' _).mp hh, Bool.false_eq_true, or_false] at h
  omega

/-- A bad block, or one outside the exchange, is dropped. -/
theorem doLadderBlockReceive_stays {s : State} {i : Nat} {b : LadderBlock}
    (h : s.takesBlock i b = false ∨ s.laneHeld i = true ∨ s.laneState i < 3 ∨ 5 < s.laneState i ∨ (s.lane i).method = 1 ∨
      (s.lane i).method = 2) : doLadderBlockReceive i b s = s :=
  if_pos (h.imp_left fun ht => by rw [ht]; rfl)

/-- The partner's HELLO at no lower rung, with a top that reaches the target, takes the lane to adaptation. -/
theorem doLadderBlockReceive_hello {s : State} {i : Nat} {b : LadderBlock} (ht : s.takesBlock i b = true)
    (hh : s.laneHeld i = false) (h3 : s.laneState i = 3) (h1 : (s.lane i).method ≠ 1) (h2 : (s.lane i).method ≠ 2)
    (hb : blockMsg b = 0) (hr : s.reg .LN_STATUS_RUNG i ≤ blockRung b)
    (hg : (s.lane i).target ≤ min (s.lane i).top (blockTop b)) (hd : (s.lane i).doneSent < 3) :
    doLadderBlockReceive i b s =
      ((((s.setLane i { s.lane i with heard := true, partnerTop := some (blockTop b), lowSeen := 0, ready := 0 }).setReg
        .LN_STATUS_PARTNER i 1).askPrecode i (blockAsksPrecode b)).setLaneState i 4) := by
  have hlow : ¬ blockRung b < s.reg .LN_STATUS_RUNG i := by omega
  have hd' : ¬ 3 ≤ (s.lane i).doneSent := by omega
  have hg' : ¬ min (s.lane i).top (blockTop b) < (s.lane i).target := by omega
  unfold doLadderBlockReceive
  dsimp only
  simp [ht, hh, h3, h1, h2, hb, hlow, hd', agreedTop, hg']

/-- A STEP ends at the next used rung. -/
theorem doLaneRungChange_next {s : State} {i r : Nat} (hh : s.laneHeld i = false) (h5 : s.laneState i = 5)
    (hn : s.nextRung i (s.reg .LN_STATUS_RUNG i) (agreedTop (s.lane i)) = some r) :
    doLaneRungChange i s =
      ((((s.setLane i { s.lane i with ready := 0, readySent := false, stepSent := false, lowSeen := 0 }).useEntry i r).setLaneState
        i 4).setRung i r) := by
  unfold doLaneRungChange
  dsimp only
  rw [if_pos ⟨h5, by rw [hh]; rfl⟩, hn]

/-- A lane that is not in STEP keeps its rung. -/
theorem doLaneRungChange_stays {s : State} {i : Nat} (h : s.laneState i ≠ 5 ∨ s.laneHeld i = true) : doLaneRungChange i s = s := by
  refine if_neg ?_
  rintro ⟨h5, hh⟩
  exact h.elim (fun h => h h5) fun h => by rw [h] at hh; exact absurd hh (by decide)

/-! ### Clause 73 (R169) -/

/-- A page of a Clause 73 lane is heard; once the negotiation has resolved the lane trains, and comes up when it has trained
and is good. -/
theorem doDmePageReceive_clause73 {s : State} {i : Nat} (resolved trained : Bool) (x : DmePage) (hm : (s.lane i).method = 1)
    (h2 : 2 ≤ s.laneState i) (h4 : s.laneState i ≤ 4) (hh : s.laneHeld i = false) :
    doDmePageReceive i resolved trained x s =
      (let heard := (s.setLane i { s.lane i with heard := true }).setReg .LN_STATUS_PARTNER i 2
       let u := x.taps.foldl (fun (u : State) q => u.moveTap i q) ((heard.startTraining i).askPrecode i x.precode)
       if resolved = false then (if s.laneState i = 4 then heard else heard.setLaneState i 3)
       else if trained = true ∧ u.laneGood i = true then u.laneUp i else u) := by
  have hl : ({ s.lane i with method := 1, heard := true } : Lane) = { s.lane i with heard := true } := by rw [← hm]
  unfold doDmePageReceive
  dsimp only
  rw [if_pos ⟨.inl hm, h2, h4, by rw [hh]; rfl⟩, if_neg (show ¬ (s.lane i).method = 3 by omega), hl]
  cases resolved <;> rfl

/-- Only a lane that negotiates or trains by Clause 73, or looks for its partner, takes a page. -/
theorem doDmePageReceive_stays {s : State} {i : Nat} (resolved trained : Bool) (x : DmePage)
    (h : (s.lane i).method = 0 ∨ (s.lane i).method = 2 ∨ s.laneState i < 2 ∨ 4 < s.laneState i ∨ s.laneHeld i = true) :
    doDmePageReceive i resolved trained x s = s := by
  refine if_neg ?_
  rintro ⟨hm, h2, h4, hh⟩
  simp only [(Bool.not_eq_true' _).mp hh, Bool.false_eq_true, or_false] at h
  omega

/-! ### Time-outs and back-off (R170, R172) -/

/-- A lane in bring-up whose machine runs. -/
theorem inBringUp {s : State} {i : Nat} (h2 : 2 ≤ s.laneState i) (h5 : s.laneState i ≤ 5) (hh : s.laneHeld i = false) :
    ¬ (s.laneState i < 2 ∨ 5 < s.laneState i ∨ s.laneHeld i = true) := by
  rw [hh]; simp; omega

/-- A PLL or CDR that cannot lock under a signal is a FAULT. -/
theorem agree_doRungTimeout_fault {s : State} {i : Nat} (hi : i < 260) (h2 : 2 ≤ s.laneState i) (h5 : s.laneState i ≤ 5)
    (hh : s.laneHeld i = false) (hs : s.reg .LN_STATUS_SIGNAL i = 1) :
    Agree (doRungTimeout i true s) ((s.setLaneState i 11).laneTrainOpen i stHWFAULT) := by
  have he : doRungTimeout i true s = s.laneFault i true 2 := by
    unfold doRungTimeout; dsimp only
    rw [if_neg (inBringUp h2 h5 hh),
      if_pos ⟨rfl, (flag_eq_true _ _ _).2 hs⟩]
  rw [he]
  exact (agree_evLow _ _ _ _).laneTrainOpen (by omega) _

/-- Without a fault a bring-up state fails when it has lasted RUNG_TIMEOUT. -/
theorem doRungTimeout_waits {s : State} {i : Nat} {hw : Bool} (h2 : 2 ≤ s.laneState i) (h5 : s.laneState i ≤ 5)
    (hh : s.laneHeld i = false) (hf : hw = false ∨ s.reg .LN_STATUS_SIGNAL i = 0) :
    doRungTimeout i hw s = if s.laneWaited i (s.reg .LN_LADDER_RUNG_TIMEOUT) = true then s.laneFail i else s := by
  have hn : ¬ (hw = true ∧ s.flag .LN_STATUS_SIGNAL i = true) := by
    rw [flag_eq_true]
    rintro ⟨hw1, hs1⟩
    rcases hf with h | h
    · rw [h] at hw1; exact absurd hw1 (by decide)
    · omega
  unfold doRungTimeout; dsimp only
  rw [if_neg (inBringUp h2 h5 hh), if_neg hn]

/-- Outside bring-up no state times out. -/
theorem doRungTimeout_stays {s : State} {i : Nat} (hw : Bool) (h : s.laneState i < 2 ∨ 5 < s.laneState i ∨ s.laneHeld i = true) :
    doRungTimeout i hw s = s :=
  if_pos h

/-- A back-off that has lasted starts the next attempt. -/
theorem doBackoffExpiry_starts {s : State} {i : Nat} (h7 : s.laneState i = 7) (hh : s.laneHeld i = false)
    (hw : s.laneWaited i (backoffMs s (s.reg .LN_STATUS_ATTEMPTS i)) = true) : doBackoffExpiry i s = s.laneAttempt i :=
  if_pos ⟨h7, by rw [hh]; rfl, hw⟩

/-- No other lane starts an attempt. -/
theorem doBackoffExpiry_stays {s : State} {i : Nat} (h : s.laneState i ≠ 7 ∨ s.laneHeld i = true ∨
    s.laneWaited i (backoffMs s (s.reg .LN_STATUS_ATTEMPTS i)) = false) : doBackoffExpiry i s = s := by
  refine if_neg ?_
  rintro ⟨h7, hh, hw⟩
  rcases h with h | h | h
  · exact h h7
  · rw [h] at hh; exact absurd hh (by decide)
  · rw [h] at hw; exact absurd hw (by decide)

/-! ### A failed attempt (R170, R171) -/

/-- The count of a failed attempt. -/
theorem agree_laneTally (s : State) (item i : Nat) : Agree (s.tally1 10 item i) s := agree_tally1 s item i (by decide)

/-- While attempts are left, a failed one backs off at the lowest rung. -/
theorem agree_laneFail_backoff {s : State} {i : Nat} (hi : i < 260) (h : s.reg .LN_STATUS_ATTEMPTS i < (s.lane i).maxAttempts) :
    Agree (s.laneFail i) ((s.setLaneState i 7).setRung i (lowRung (s.lane i))) := by
  have ht := agree_laneTally s 2 i
  unfold State.laneFail
  dsimp only
  rw [if_neg (by rw [ht.reg (by decide) (by omega)]; omega)]
  exact (ht.setLaneState i 7).setRung (by omega) _

/-- The end of a LANE_TRAIN is no register. -/
theorem laneTrainEndWith_reg (s : State) (i st verdict : Nat) (f : Fld) (k : Nat) :
    (s.laneTrainEndWith i st verdict).reg f k = s.reg f k := by
  unfold State.laneTrainEndWith State.endOp
  dsimp only
  split
  · rfl
  · split <;> rfl

/-- The state a lane enters is what it shows. -/
theorem setLaneState_state (s : State) (i : Nat) {st : Nat} (h : st < 16) : (s.setLaneState i st).reg .LN_STATUS_STATE i = st := by
  unfold State.setLaneState
  rw [State.reg_setReg]
  exact Nat.mod_eq_of_lt h

/-- The rung of a lane leaves its state. -/
theorem setRung_state (s : State) {i : Nat} (r : Nat) (hi : i < 8192) :
    (s.setRung i r).reg .LN_STATUS_STATE i = s.reg .LN_STATUS_STATE i := by
  unfold State.setRung
  dsimp only
  rw [State.reg_setReg_ne _ (by decide) _ hi hi, State.reg_setReg_ne _ (by decide) _ hi hi]

/-- The verdict: SHORT for a lane that has heard its partner, ABSENT for one that has not. -/
theorem laneVerdict_state (s : State) {i : Nat} (hi : i < 260) :
    (s.laneVerdict i).reg .LN_STATUS_STATE i = if (s.lane i).heard then 9 else 8 := by
  unfold State.laneVerdict
  dsimp only
  split
  · unfold State.laneTrainOpen
    rw [State.reg_of_regs (State.fresh_regs _), laneTrainEndWith_reg, State.reg_of_regs (State.evLow_regs _ _ _ _),
      setRung_state _ _ (by omega), setLaneState_state _ _ (by decide)]
  · unfold State.laneTrainEnd
    rw [laneTrainEndWith_reg, State.reg_of_regs (State.evLow_regs _ _ _ _), setLaneState_state _ _ (by decide)]

/-- The last permitted attempt ends in the verdict. -/
theorem laneFail_verdict {s : State} {i : Nat} (hi : i < 260) (h : (s.lane i).maxAttempts ≤ s.reg .LN_STATUS_ATTEMPTS i) :
    (s.laneFail i).reg .LN_STATUS_STATE i = if (s.lane i).heard then 9 else 8 := by
  have ht := agree_laneTally s 2 i
  have hl : (s.tally1 10 2 i).lane i = s.lane i := by unfold State.lane; rw [State.tally1_ln]
  unfold State.laneFail
  dsimp only
  rw [if_pos (by rw [ht.reg (by decide) (by omega)]; exact h), laneVerdict_state _ hi, hl]

/-- Settles O44: each row is the branch that the lane's state, its method and what it hears select. -/
theorem laneRowsComplete : Obligations.LaneRowsComplete := by
  unfold Obligations.LaneRowsComplete
  refine ⟨?reload, ?reloadBad, fun s i hi => ⟨?fixed, ?page, ?ladder, ?absent, ?shown⟩, fun s i hi => ⟨?lossHeld, fun hh => ?loss⟩,
    ?send, ?noSend, ?dropped, ?taken, ?step, ?noStep, ?dme, ?noDme, fun s i hw h2 h5 hh => ⟨?fault, ?timeout, ?waits⟩, ?noTimeout,
    ?backoff, ?noBackoff, ?fails, ?verdict⟩
  case reload => exact fun s t h => yields_run rfl (agree_doReload_ok s h)
  case reloadBad => exact fun s t h => yields_run rfl (agree_doReload_bad s h)
  case fixed =>
    refine fun hh h2 hm => yields_eq rfl ?_
    rw [doLaneSignalDetect_eq s hi]; simp [hh, h2, hm]
  case page =>
    refine fun hh h2 hm => yields_eq rfl ?_
    rw [doLaneSignalDetect_eq s hi]; simp [hh, h2, hm]
  case ladder =>
    refine fun hh h2 hm => yields_eq rfl ?_
    rw [doLaneSignalDetect_eq s hi]; rcases hm with hm | hm <;> simp [hh, h2, hm]
  case absent =>
    refine fun hh h8 hp => yields_eq rfl ?_
    rw [doLaneSignalDetect_eq s hi]; simp [hh, h8, hp]
  case shown =>
    refine fun h => yields_eq rfl ?_
    rw [doLaneSignalDetect_eq s hi]; rcases h with hh | ⟨h2, h8⟩ | ⟨h8, hp⟩
    · simp [hh]
    · simp [h2, h8]
    · simp [h8, hp]
  case lossHeld =>
    refine fun hh => ⟨yields_eq rfl ?_, yields_eq rfl ?_⟩ <;> rw [doLaneSignalLoss_eq s _ hi] <;> exact if_pos hh
  case loss =>
    refine ⟨fun h3 h5 => yields_eq rfl ?_, fun h6 => yields_eq rfl (doLaneSignalLoss_drops false hi hh h6),
      fun h4 => yields_eq rfl (doLaneSignalLoss_fails hi hh (.inl h4)), fun h6 => yields_eq rfl (doLaneSignalLoss_drops true hi hh h6),
      fun h hm => ⟨yields_eq rfl (doLaneSignalLoss_restarts false hi hh h hm), yields_eq rfl (doLaneSignalLoss_restarts true hi hh h hm)⟩,
      fun h hm => ⟨yields_eq rfl ?_, yields_eq rfl ?_⟩, fun h => ⟨yields_eq rfl ?_, yields_eq rfl ?_⟩, fun h => yields_eq rfl ?_⟩
    · exact doLaneSignalLoss_fails hi hh (by simp; omega)
    · exact doLaneSignalLoss_shows hi (by omega) (by omega) (by simp [hm])
    · exact doLaneSignalLoss_shows hi (by omega) (by omega) (by simp [hm])
    · exact doLaneSignalLoss_shows hi (by omega) (by omega) (by omega)
    · exact doLaneSignalLoss_shows hi (by omega) (by omega) (by omega)
    · exact doLaneSignalLoss_shows hi (by simp; omega) (by omega) (by omega)
  case send => exact fun s i hm h2 h5 hh hg hd => yields_eq rfl (doLadderBlockSend_hello hm h2 h5 hh hg hd)
  case noSend => exact fun s i h => yields_eq rfl (doLadderBlockSend_stays h)
  case dropped => exact fun s i b h => yields_eq rfl (doLadderBlockReceive_stays h)
  case taken =>
    exact fun s i b ht hh h3 h1 h2 hb hr hg hd => yields_eq rfl (doLadderBlockReceive_hello ht hh h3 h1 h2 hb hr hg hd)
  case step => exact fun s i r hh h5 hn => yields_eq rfl (doLaneRungChange_next hh h5 hn)
  case noStep => exact fun s i h => yields_eq rfl (doLaneRungChange_stays h)
  case dme =>
    intro s i resolved trained x hm h2 h4 hh
    have he := doDmePageReceive_clause73 resolved trained x hm h2 h4 hh
    refine ⟨fun hr hs => yields_eq rfl ((he.trans (if_pos hr)).trans (if_pos hs)),
      fun hr hs => yields_eq rfl ((he.trans (if_pos hr)).trans (if_neg hs)),
      fun hr ht hg => yields_eq rfl ((he.trans (if_neg (by rw [hr]; decide))).trans (if_pos ⟨ht, hg⟩)),
      fun hr h => yields_eq rfl ((he.trans (if_neg (by rw [hr]; decide))).trans (if_neg ?_))⟩
    rintro ⟨ht, hg⟩
    rcases h with h | h
    · rw [h] at ht; exact absurd ht (by decide)
    · rw [h] at hg; exact absurd hg (by decide)
  case noDme => exact fun s i resolved trained x h => yields_eq rfl (doDmePageReceive_stays resolved trained x h)
  case fault => exact fun hi hs => yields_run rfl (agree_doRungTimeout_fault hi h2 h5 hh hs)
  case timeout => exact fun hf hw => yields_eq rfl ((doRungTimeout_waits h2 h5 hh hf).trans (if_pos hw))
  case waits => exact fun hf hw => yields_eq rfl ((doRungTimeout_waits h2 h5 hh hf).trans (if_neg (by rw [hw]; decide)))
  case noTimeout => exact fun s i w h => yields_eq rfl (doRungTimeout_stays w h)
  case backoff => exact fun s i h7 hh hw => yields_eq rfl (doBackoffExpiry_starts h7 hh hw)
  case noBackoff => exact fun s i h => yields_eq rfl (doBackoffExpiry_stays h)
  case fails => exact fun s i hi h => agree_laneFail_backoff hi h
  case verdict => exact fun s i hi h => laneFail_verdict hi h

end Machine
end Sys2Proof
end

section
/-!
PROOFS. The rows of a frame on its way in (R195, R217-R229, R262, R286-R293, R355-R360): its head, its further cells and its end,
and the reads and rooms it waits for.
-/
namespace Sys2Proof
namespace Machine

/-! ### Heads and cells (R262, R286, R289) -/

/-- The switch core does the work of a CORE cycle once. -/
theorem coreWork_once {s : State} (h : s.swc.coreAt = s.coreCycle + 1) : s.coreWork = s := if_pos h

/-- A head at a port that is up is stamped and admitted. -/
theorem doFrameHead_admits {s : State} {x : HeadIn} (hp : x.port < 258) (hu : s.coreWork.reg .PRT_MODE_UP x.port = 1) :
    doFrameHead x s = (let r := s.coreWork.stampOf x.port 0 x.stamp
      r.1.admitHead { Frame.none_ with
        port := x.port, express := x.express, head := x.bytes.take 128, len := x.bytes.length, full := r.2
        steps := r.1.tme.steps, stage := 0, damage := x.damage }) := by
  have hf := (flag_eq_true s.coreWork .PRT_MODE_UP x.port).2 hu
  refine if_neg ?_
  simp [hf, hp]

/-- A head at a port that is down is not taken. -/
theorem doFrameHead_down {s : State} {x : HeadIn} (hu : s.coreWork.reg .PRT_MODE_UP x.port ≠ 1) :
    doFrameHead x s = s.coreWork := by
  have hf := (flag_eq_false s.coreWork .PRT_MODE_UP x.port).2 hu
  refine if_pos ?_
  simp [hf]

/-- Bytes of a frame that still waits to be classified are only counted. -/
theorem doFurtherCellRequest_unclassified {s : State} {id : Nat} (he : (s.coreWork.frame id).ended = false)
    (h0 : (s.coreWork.frame id).stage = 0) :
    doFurtherCellRequest id s = (s.coreWork.setFrame id { s.coreWork.frame id with len := (s.coreWork.frame id).len + 256 }).mpCheck id := by
  have hn : ¬((s.coreWork.frame id).stage = 5 ∨ (s.coreWork.frame id).ended = true) := by simp [he, h0]
  exact (if_neg hn).trans (if_pos h0)

/-- Further bytes of a classified frame ask for a cell. -/
theorem doFurtherCellRequest_asks {s : State} {id : Nat} (he : (s.coreWork.frame id).ended = false)
    (h0 : (s.coreWork.frame id).stage ≠ 0) (h5 : (s.coreWork.frame id).stage ≠ 5) :
    doFurtherCellRequest id s =
      ((s.coreWork.setFrame id { s.coreWork.frame id with
        len := (s.coreWork.frame id).len + 256, want := (s.coreWork.frame id).want + 1 }).askCell id).mpCheck id := by
  have hn : ¬((s.coreWork.frame id).stage = 5 ∨ (s.coreWork.frame id).ended = true) := by simp [he, h5]
  exact (if_neg hn).trans (if_neg h0)

/-- A frame that has left takes no more bytes. -/
theorem doFurtherCellRequest_gone {s : State} {id : Nat} (h5 : (s.coreWork.frame id).stage = 5) :
    doFurtherCellRequest id s = s.coreWork := if_pos (.inl h5)

/-- CELL_RETRY of a frame that waits is the cycle's work. -/
theorem doCellRetry_waits {s : State} {id : Nat} (h : (s.frame id).want ≠ 0 ∨ (s.frame id).slot = true) :
    doCellRetry id s = s.coreWork := by
  refine if_neg ?_
  rintro ⟨hw, hs⟩
  rcases h with h | h
  · exact h hw
  · rw [h] at hs; exact absurd hs (by decide)

/-- CELL_RETRY of a frame that waits for nothing does nothing. -/
theorem doCellRetry_idle {s : State} {id : Nat} (hw : (s.frame id).want = 0) (hs : (s.frame id).slot = false) :
    doCellRetry id s = s := if_pos ⟨hw, by rw [hs]; rfl⟩

/-! ### The end of a frame (R195) -/

/-- The end of a frame with no fragments, flow counters or audit, by what the checks of R195 find. -/
theorem doFrameEnd_judges {s : State} {id : Nat} {x : TailIn} (he : (s.frame id).ended = false)
    (hk : (s.swc.frames.any fun y => y.1 == id) = true) (h5 : (s.frame id).stage ≠ 5) (hf : x.frags = 0)
    (hc : (s.frame id).counted = none) (hu : (s.frame id).unit = 0) (hb : x.fragBad = false) :
    doFrameEnd id x s =
      (let b := ((s.frame id).head ++ x.bytes).take (s.reg .PRT_MAXLEN_MAXLEN (s.frame id).port)
       let f : Frame := { s.frame id with ended := true, len := b.length, rest := b.drop 128 }
       let t := s.countFrame (s.frame id).port false b.length
       match s.endCause (s.frame id).port ((s.frame id).head ++ x.bytes) x.uncorr with
       | 0 => (t.setFrame id f).frameWhole id
       | c + 1 => ((t.countBad (s.frame id).port c).setFrame id f).frameBad id 1) := by
  have hn : ¬((s.frame id).ended = true ∨ (!(s.swc.frames.any fun y => y.1 == id)) = true) := by simp [he, hk]
  unfold doFrameEnd
  dsimp only
  rw [if_neg hn, if_neg h5, if_pos hf, if_pos hu, hc, hb]
  cases s.endCause (s.frame id).port ((s.frame id).head ++ x.bytes) x.uncorr with
  | zero => simp
  | succ c => simp

/-- The end of a frame that has ended, or that the switch core does not hold, is ignored. -/
theorem doFrameEnd_ignored {s : State} {id : Nat} (x : TailIn)
    (h : (s.frame id).ended = true ∨ (s.swc.frames.any fun y => y.1 == id) = false) : doFrameEnd id x s = s :=
  if_pos (h.imp_right fun hk => by rw [hk]; rfl)

/-! ### Flow reads (R227, R228) -/

/-- A flow read that returns classifies the frames that wait for it. -/
theorem doFlowMissDone_good {s : State} {i : Nat} (h : s.cls.reads.contains i = true) :
    doFlowMissDone i false s =
      ((((s.swc.frames.filter fun x => x.2.stage == 1 && x.2.flow == some i).map Prod.fst).foldl (fun (u : State) id =>
        (u.setFrame id { u.frame id with stage := 3 }).classifyFrame id true [])
        { s with cls := { s.cls with reads := s.cls.reads.erase i } })).missRoom := by
  unfold doFlowMissDone
  rw [h]
  simp only [Bool.not_true, Bool.false_eq_true, if_false]

/-- A flow read with a bad line discards the frames that wait for it. -/
theorem doFlowMissDone_bad {s : State} {i : Nat} (h : s.cls.reads.contains i = true) :
    doFlowMissDone i true s =
      (let u := ({ s with cls := { s.cls with reads := s.cls.reads.erase i } } : State).entryDamage 3 i s.oldestGen
       (((u.swc.frames.filter fun x => x.2.stage == 1 && x.2.flow == some i).map Prod.fst).foldl (fun (u : State) id =>
         (u.guard 0xD 1).discardFrame id true) u).missRoom) := by
  have ho : ({ s with cls := { s.cls with reads := s.cls.reads.erase i } } : State).oldestGen = s.oldestGen := rfl
  unfold doFlowMissDone
  rw [h]
  simp only [Bool.not_true, Bool.false_eq_true, if_false, if_true, ho]

/-- A read that nothing has asked for returns to nobody. -/
theorem doFlowMissDone_unasked {s : State} {i : Nat} (bad : Bool) (h : s.cls.reads.contains i = false) :
    doFlowMissDone i bad s = s := if_pos (by rw [h]; rfl)

/-! ### Window reads and merge decisions (R355-R360) -/

/-- A window read that returns is that of every frame of its line; the first of them meets the damage. -/
theorem doWindowReadDone_returns {s : State} {id : Nat} (x : SpeFaults) (h2 : (s.coreWork.frame id).stage = 2)
    (hr : (s.coreWork.frame id).read = false) :
    doWindowReadDone id x s =
      (let u := s.coreWork
       let l := u.awaiting.filter fun y => !y.2.read && y.2.sameLine (u.frame id)
       let u := l.foldl (fun (u : State) y => u.setFrame y.1 { y.2 with read := true }) u
       let u := match firstReached l with | some y => u.setFrame y.1 { u.frame y.1 with faults := x } | none => u
       u.engineGo) := by
  have hn : ¬((s.coreWork.frame id).stage ≠ 2 ∨ (s.coreWork.frame id).read = true) := by simp [h2, hr]
  exact if_neg hn

/-- A read of a frame that waits for none does the cycle's work only. -/
theorem doWindowReadDone_unasked {s : State} {id : Nat} (x : SpeFaults)
    (h : (s.coreWork.frame id).stage ≠ 2 ∨ (s.coreWork.frame id).read = true) : doWindowReadDone id x s = s.coreWork := if_pos h

/-- A decision to forward goes on with the frame. -/
theorem decideFrame_forwards {s u : State} {id : Nat} {m : Merge}
    (hm : (s.probeArrival (s.frame id).pair (s.frame id).leg (s.frame id).seqNo (s.frame id).full).merge
      (s.frame id).pair (s.frame id).leg (s.frame id).seqNo (s.frame id).faults = (u, m)) (hf : m.forward = true) (hg : m ≠ .guard) :
    s.decideFrame id = ((u.tally 18 1 1 m.code 0 (s.frame id).pair 1).tally 18 2 (1 + (s.frame id).leg) 0 0 (s.frame id).pair 1).decided id := by
  unfold State.decideFrame
  dsimp only
  rw [hm]
  dsimp only
  rw [if_neg hg, if_pos hf]

/-- A decision not to forward discards the frame, which counts unless it is a duplicate or behind. -/
theorem decideFrame_discards {s u : State} {id : Nat} {m : Merge}
    (hm : (s.probeArrival (s.frame id).pair (s.frame id).leg (s.frame id).seqNo (s.frame id).full).merge
      (s.frame id).pair (s.frame id).leg (s.frame id).seqNo (s.frame id).faults = (u, m)) (hf : m.forward = false) (hg : m ≠ .guard) :
    s.decideFrame id =
      (u.tally 18 1 1 m.code 0 (s.frame id).pair 1).discardFrame id (!(m == .duplicate || m == .behind)) := by
  have hn : ¬m.forward = true := by rw [hf]; decide
  unfold State.decideFrame
  dsimp only
  rw [hm]
  dsimp only
  rw [if_neg hn, if_neg hg, if_neg hg]

/-- Settles O40: each row is the branch its conditions select. -/
theorem ingressRowsComplete : Obligations.IngressRowsComplete := by
  unfold Obligations.IngressRowsComplete
  refine ⟨?head, ?headDown, fun s h => coreWork_once h, fun s id he => ⟨?counted, ?asks, ?gone⟩, fun s id => ⟨?retry, ?noRetry⟩, ?ends,
    ?noEnd, fun s i h => ⟨?read, ?readBad⟩, ?noRead, ?window, fun s id => ⟨?forwards, ?discards⟩, ?noWindow, fun s p => ⟨?miss, ?merge⟩⟩
  case head => exact fun s x hp hu => yields_eq rfl (doFrameHead_admits hp hu)
  case headDown => exact fun s x hu => yields_eq rfl (doFrameHead_down hu)
  case counted => exact fun h0 => yields_eq rfl (doFurtherCellRequest_unclassified he h0)
  case asks => exact fun h0 h5 => yields_eq rfl (doFurtherCellRequest_asks he h0 h5)
  case gone => exact fun h5 => yields_eq rfl (doFurtherCellRequest_gone h5)
  case retry => exact fun h => yields_eq rfl (doCellRetry_waits h)
  case noRetry => exact fun hw hs => yields_eq rfl (doCellRetry_idle hw hs)
  case ends =>
    intro s id x he hk h5 hf hc hu
    refine ⟨fun h0 hb => yields_eq (f := doFrameEnd id x) rfl ?_, fun c h1 hb => yields_eq (f := doFrameEnd id x) rfl ?_⟩
    · rw [doFrameEnd_judges he hk h5 hf hc hu hb, h0]
    · rw [doFrameEnd_judges he hk h5 hf hc hu hb, h1]
  case noEnd => exact fun s id x h => yields_eq rfl (doFrameEnd_ignored x h)
  case read => exact yields_eq rfl (doFlowMissDone_good h)
  case readBad => exact yields_eq rfl (doFlowMissDone_bad h)
  case noRead => exact fun s i bad h => yields_eq rfl (doFlowMissDone_unasked bad h)
  case window => exact fun s id x h2 hr => yields_eq rfl (doWindowReadDone_returns x h2 hr)
  case forwards => exact fun hf hg => decideFrame_forwards rfl hf hg
  case discards => exact fun hf hg => decideFrame_discards rfl hf hg
  case noWindow => exact fun s id x h => yields_eq rfl (doWindowReadDone_unasked x h)
  case miss => exact yields_eq (f := doMissQueueRoom p) rfl rfl
  case merge => exact yields_eq (f := doMergeQueueRoom p) rfl rfl

end Machine
end Sys2Proof
end

section
/-!
PROOFS. The rows of a frame on its way out (R209, R286, R300-R305, R311, R327-R346): starts and ends, vents, the caravan
queues, the pacers, and the gate lists and their loads.
-/
namespace Sys2Proof
namespace Machine

/-! ### Starts (R286, R300, R303, R327, R336) -/

/-- The port's queues as a start finds them: heads that fit no gate run are dropped, and gated ones are marked (R336, R349). -/
def State.headsJudged (s : State) (p : Nat) : State :=
  (List.range 16).foldl (fun (u : State) q => (u.dropOversize p q (u.queue p q).length).markGated p q) s

/-- A port that is down lets its copies go. -/
theorem doCopyStart_down {s : State} {p : Nat} (x : StartIn) (h : s.reg .PRT_MODE_UP p ≠ 1) : doCopyStart p x s = s.portGone p :=
  if_pos (by rw [(flag_eq_false _ _ _).2 h]; rfl)

/-- A port that is up is not down. -/
theorem not_portDown {s : State} {p : Nat} (h : s.reg .PRT_MODE_UP p = 1) : ¬(!s.flag .PRT_MODE_UP p) = true := by
  rw [(flag_eq_true _ _ _).2 h]; decide

/-- A wire that holds nothing is free. -/
theorem not_wireBusy {s : State} {p m : Nat} (h : s.onWire p m = []) : ¬(!(s.onWire p m).isEmpty) = true := by
  rw [h]; decide

/-- The next express copy is presented, unless a preemptable frame that may not be cut yet still leaves. -/
theorem doCopyStart_express {s : State} {p : Nat} {c : Copy} (x : StartIn) (h : s.reg .PRT_MODE_UP p = 1)
    (hw : (s.headsJudged p).onWire p 0 = []) (hc : ((s.headsJudged p).nextCopy p 0).2 = some c) :
    doCopyStart p x s =
      if ((((s.headsJudged p).nextCopy p 0).1.cutFrame p true).onWire p 1).all (fun l => l.paused) then
        (((s.headsJudged p).nextCopy p 0).1.cutFrame p true).presentCopy c x
      else s.headsJudged p := by
  unfold doCopyStart
  dsimp only
  rw [if_neg (not_portDown h), ← State.headsJudged, if_neg (not_wireBusy hw), hc]
  dsimp only
  rw [← List.not_all_eq_any_not]
  cases ((((s.headsJudged p).nextCopy p 0).1.cutFrame p true).onWire p 1).all fun l => l.paused with
  | true => exact (if_neg (by decide)).trans (if_pos rfl).symm
  | false => exact (if_pos rfl).trans (if_neg (by decide)).symm

/-- Without an express copy, the next preemptable one is presented. -/
theorem doCopyStart_preemptable {s : State} {p : Nat} {c : Copy} (x : StartIn) (h : s.reg .PRT_MODE_UP p = 1)
    (hw : (s.headsJudged p).onWire p 0 = []) (hn : ((s.headsJudged p).nextCopy p 0).2 = none)
    (h1 : ((s.headsJudged p).nextCopy p 0).1.onWire p 1 = []) (hc : (((s.headsJudged p).nextCopy p 0).1.nextCopy p 1).2 = some c) :
    doCopyStart p x s = (((s.headsJudged p).nextCopy p 0).1.nextCopy p 1).1.presentCopy c x := by
  unfold doCopyStart
  dsimp only
  rw [if_neg (not_portDown h), ← State.headsJudged, if_neg (not_wireBusy hw), hn]
  dsimp only
  rw [h1]
  dsimp only
  rw [hc]

/-! ### Ends and vents (R196, R209, R303-R305) -/

/-- Upsets of cells' metadata touch no register. -/
theorem metaUpsets_regs (l : List Nat) (s : State) : (l.foldl State.metaUpset s).regs = s.regs := by
  induction l generalizing s with
  | nil => rfl
  | cons c t ih => exact ih _

/-- A copy on the wire of a port that is up leaves whole, stomped where its frame is bad or still arrives. -/
theorem doCopyEnd_leaves {s : State} {p m : Nat} {q : Leaving} {t : List Leaving} (upset : List Nat) (hw : s.onWire p m = q :: t)
    (h : s.reg .PRT_MODE_UP p = 1) :
    doCopyEnd p m upset s =
      (let f := s.frame q.copy.frame
       let l := if f.ended = false ∧ q.stomp = 0 then { q with stomp := 6 } else q
       let w := upset.foldl State.metaUpset (s.setWire p m t)
       let body := (l.bytes ++ f.rest).take (w.lenOf f - 4)
       let out := body ++ if l.stomp = 0 then le 4 (crc32 body) else (le 4 (crc32 body)).map fun v => 255 - v
       let u := (w.emit (.frame p (l.stomp != 0) out.length out)).countFrame p true out.length
       let v := (u.tally 17 1 1 0 0 (qkey p l.copy.queue) 1).tally 17 1 2 0 0 (qkey p l.copy.queue) out.length
       (if l.stomp = 0 then v else v.stomped p l.stomp).releaseCopies [q.copy]) := by
  have hd : ¬(!(upset.foldl State.metaUpset (s.setWire p m t)).flag .PRT_MODE_UP p) = true :=
    not_portDown ((State.reg_of_regs (metaUpsets_regs _ _) _ _).trans h)
  have hl : (if (!(s.frame q.copy.frame).ended) = true ∧ q.stomp = 0 then { q with stomp := 6 } else q) =
      if (s.frame q.copy.frame).ended = false ∧ q.stomp = 0 then { q with stomp := 6 } else q := by simp
  have hq : (if (s.frame q.copy.frame).ended = false ∧ q.stomp = 0 then { q with stomp := 6 } else q).copy = q.copy := by
    split <;> rfl
  unfold doCopyEnd
  dsimp only
  rw [hw]
  dsimp only
  rw [hl]
  generalize (if (s.frame q.copy.frame).ended = false ∧ q.stomp = 0 then { q with stomp := 6 } else q) = l at hq ⊢
  rw [if_neg hd, hq]

/-- Nothing ends on an empty wire. -/
theorem doCopyEnd_idle {s : State} {p m : Nat} (upset : List Nat) (hw : s.onWire p m = []) : doCopyEnd p m upset s = s := by
  unfold doCopyEnd; rw [hw]

/-- A vent takes the ended frames of its classes that are queued for the port, and counts them. -/
theorem doVentStart_vents {s : State} {p prio : Nat} (hp : s.paused p prio = true) (h0 : tget 0 s.prt.pausedSince (pkey p prio) ≠ 0)
    (ht : tget 0 s.prt.pausedSince (pkey p prio) + s.reg .PRT_VENT_TICKS p ≤ s.clk.tickCount + 1)
    (hc : (s.ventClasses p prio).filter (fun c => (s.ventOf p c).isNone) ≠ []) :
    doVentStart p prio s =
      (let cl := (s.ventClasses p prio).filter fun c => (s.ventOf p c).isNone
       let r := s.takeCopies fun c => c.port == p && cl.contains (s.frame c.frame).cls && (s.frame c.frame).ended
       let n := r.2.length
       let of (c : Nat) : Nat := (r.2.filter fun x => (s.frame x.frame).cls == c).length
       let u : State := { r.1 with prt := { r.1.prt with vent := cl.foldl (fun t c => tset 0 (pkey p prio * 8 + c) (1 + of c) t) r.1.prt.vent } }
       let v := r.2.foldl (fun (u : State) c => match (u.frame c.frame).counted with | some i => u.flowDiscard i | none => u)
         ((u.portCount p 35 n).tally 12 7 1 0 0 p n)
       (cl.foldl (fun (v : State) c => v.evLow 37 p [(1, c), (4, of c)]) v).releaseCopies r.2) := by
  refine if_neg ?_
  rw [hp]
  rintro (h | h | h | h)
  · exact absurd h (by decide)
  · exact h0 h
  · omega
  · exact hc (List.isEmpty_iff.1 h)

/-- A priority that is not paused is not vented. -/
theorem doVentStart_unpaused {s : State} {p prio : Nat} (h : s.paused p prio = false) : doVentStart p prio s = s :=
  if_pos (.inl (by rw [h]; rfl))

/-! ### Pacers (R341, R343) -/

/-- A pacer releases its oldest frame when it is due; the count of releases is an account. -/
theorem agree_doPacerRelease {s : State} {k j : Nat} {c : Copy} {rest : List Copy} {e : Line} (hh : (s.pacer k).held = c :: rest)
    (hp : s.paceOf c = .by j e) (hd : (s.paceDue k c e).1 ≤ s.grains) (hs : s.stopped c.port (s.classPrio (s.frame c.frame).cls) = false)
    (hl : (s.pacer k).last ≠ s.coreCycle + 1) :
    Agree (doPacerRelease k s)
      ((s.setPacer k { s.pacer k with held := rest, tat := max (s.paceDue k c e).2 s.grains + paceT e, last := s.coreCycle + 1 }).pushQueue
        { c with released := s.grains + 1 }) := by
  have hn : ¬(s.grains < (s.paceDue k c e).1 ∨ s.stopped c.port (s.classPrio (s.frame c.frame).cls) = true ∨
      (s.pacer k).last = s.coreCycle + 1) := by
    rw [hs]
    rintro (h | h | h)
    · omega
    · exact absurd h (by decide)
    · exact hl h
  unfold doPacerRelease
  dsimp only
  rw [hh]
  dsimp only
  rw [hp]
  dsimp only
  rw [if_neg hn]
  exact agree_tally _ _ _ _ _ _ _ (by decide)

/-- A pacer that holds nothing releases nothing. -/
theorem doPacerRelease_empty {s : State} {k : Nat} (h : (s.pacer k).held = []) : doPacerRelease k s = s := by
  unfold doPacerRelease
  dsimp only
  rw [h]

/-! ### Gate lists (R333, R337) -/

/-- Without a list the gates a port shows are those of no list. -/
theorem doGateChange_none {s : State} {p : Nat} (ha : (s.gate p).active = none) (hf : (s.gate p).fallEnds = false) :
    doGateChange p s = s.showGate p := by
  unfold doGateChange
  dsimp only
  rw [ha, hf]
  rfl

/-- Within a cycle the port runs the entry of now. -/
theorem doGateChange_sameCycle {s : State} {p : Nat} {l : List Line} (ha : (s.gate p).active = some l)
    (hf : (s.gate p).fallEnds = false) (hc : (gateAt l s.taiNs).1 = (s.gate p).cycle) :
    doGateChange p s = ((s.setGate p { s.gate p with entry := (gateAt l s.taiNs).2 }).showGate p).gateCut p := by
  unfold doGateChange
  dsimp only
  rw [ha]
  dsimp only
  simp [hc, hf]

/-- A list swap that is due takes the new list. -/
theorem doGateListSwap_due {s : State} {p : Nat} {l : List Line} (hs : (s.gate p).swap = some l)
    (hd : (if gateEn (l.headD []) ∧ gateValid (l.headD []) then gateCycle (l.headD []) (gateNextCycle (l.headD []) (s.gate p).swapFrom)
      else (s.gate p).swapFrom) ≤ (s.taiNs : Int)) :
    doGateListSwap p s =
      (let u := (s.setGate p { s.gate p with
         list := l, swap := none, cycle := gateCycleAt (l.headD []) s.taiNs, entry := 0, cutTold := false, fallEnds := false }).setRegs
         [(.EGR_GATE_SWAP_TICK, p, s.clk.tick), (.EGR_GATE_FALLBACK, p, b2n (s.gateDamaged p))]
       let v := if s.flag .EGR_GATE_FALLBACK p = s.gateDamaged p then u else u.evLow 116 p [(4, 0), (1, b2n (s.gateDamaged p))]
       ((v.evLow 114 p [(4, gateLen (l.headD [])), (8, (s.gate p).swapTick)]).showGate p).gateCut p) := by
  unfold doGateListSwap
  dsimp only
  rw [hs]
  dsimp only
  exact if_neg (not_lt.2 hd)

/-- A port with no swap to come keeps its list. -/
theorem doGateListSwap_none {s : State} {p : Nat} (h : (s.gate p).swap = none) : doGateListSwap p s = s := by
  unfold doGateListSwap
  dsimp only
  rw [h]

/-! ### Loads of a table (R346) -/

/-- A load is staged for the next boundary where none is pending. -/
theorem doTload_stages {s : State} (table hold : Bool) (count first : Nat) (entries : List Line)
    (h : s.reg .EGR_TLOAD_STATUS_PENDING 0 ≠ 1) :
    doTload table hold count first entries s =
      (let u := s.setRegs [(.EGR_TLOAD_TABLE, 0, b2n table), (.EGR_TLOAD_HOLD, 0, b2n hold), (.EGR_TLOAD_COUNT, 0, count),
         (.EGR_TLOAD_FIRST, 0, first)]
       ({ u with egr := { u.egr with
         tload := some ⟨if table then tPace else tGate, hold, count % 2048, first % 2 ^ 18, entries⟩ } } : State).setRegs
         [(.EGR_TLOAD_STATUS_PENDING, 0, 1), (.EGR_TLOAD_STATUS_RESULT, 0, 0)]) :=
  if_neg (by rw [(flag_eq_false _ _ _).2 h]; decide)

/-- A load while one is pending fails. -/
theorem agree_doTload_pending {s : State} (table hold : Bool) (count first : Nat) (entries : List Line)
    (h : s.reg .EGR_TLOAD_STATUS_PENDING 0 = 1) :
    Agree (doTload table hold count first entries s) (s.setReg .EGR_TLOAD_STATUS_RESULT 0 6) := by
  have he : doTload table hold count first entries s =
      (s.setReg .EGR_TLOAD_STATUS_RESULT 0 6).ev 120 [(1, 6), (1, b2n table), (4, first)] := if_pos ((flag_eq_true _ _ _).2 h)
  rw [he]
  exact agree_ev _ _ _

/-- Settles O41: each row is the branch its conditions select. -/
theorem egressRowsComplete : Obligations.EgressRowsComplete := by
  unfold Obligations.EgressRowsComplete
  refine ⟨?down, ?start, ?ends, ?noEnd, ?vent, ?noVent, ?room, ?release, ?noRelease, ?noList, ?entry, ?swap, ?noSwap, ?load, ?pending⟩
  case down => exact fun s p x h => yields_eq (f := doCopyStart p x) rfl (doCopyStart_down x h)
  case start =>
    intro s u p x c h hu hw
    rw [hu, ← State.headsJudged] at hw ⊢
    refine ⟨fun hc hp => yields_eq (f := doCopyStart p x) rfl ((doCopyStart_express x h hw hc).trans (if_pos hp)),
      fun hc hp => yields_eq (f := doCopyStart p x) rfl ((doCopyStart_express x h hw hc).trans (if_neg ?_)),
      fun hn h1 hc => yields_eq (f := doCopyStart p x) rfl (doCopyStart_preemptable x h hw hn h1 hc)⟩
    rw [hp]; decide
  case ends => exact fun s p m upset q t hw h => yields_eq (f := doCopyEnd p m upset) rfl (doCopyEnd_leaves upset hw h)
  case noEnd => exact fun s p m upset hw => yields_eq (f := doCopyEnd p m upset) rfl (doCopyEnd_idle upset hw)
  case vent => exact fun s p prio hp h0 ht hc => yields_eq (f := doVentStart p prio) rfl (doVentStart_vents hp h0 ht hc)
  case noVent => exact fun s p prio h => yields_eq (f := doVentStart p prio) rfl (doVentStart_unpaused h)
  case room => exact fun s sl => yields_eq (f := doCaravanQueueRoom sl) rfl rfl
  case release => exact fun s k j c rest e hh hp hd hs hl => yields_run (f := doPacerRelease k) rfl (agree_doPacerRelease hh hp hd hs hl)
  case noRelease => exact fun s k h => yields_eq (f := doPacerRelease k) rfl (doPacerRelease_empty h)
  case noList => exact fun s p ha hf => yields_eq (f := doGateChange p) rfl (doGateChange_none ha hf)
  case entry => exact fun s p l ha hf hc => yields_eq (f := doGateChange p) rfl (doGateChange_sameCycle ha hf hc)
  case swap => exact fun s p l _ hs hd => yields_eq (f := doGateListSwap p) rfl (doGateListSwap_due hs hd)
  case noSwap => exact fun s p h => yields_eq (f := doGateListSwap p) rfl (doGateListSwap_none h)
  case load =>
    exact fun s table hold count first entries h => yields_eq (f := doTload table hold count first entries) rfl
      (doTload_stages table hold count first entries h)
  case pending =>
    exact fun s table hold count first entries h => yields_run (f := doTload table hold count first entries) rfl
      (agree_doTload_pending table hold count first entries h)

end Machine
end Sys2Proof
end

section
/-!
PROOFS. PORT_SET and the lanes of its port (R138, R188-R191): a port that is no multiple of its width is refused.
-/
namespace Sys2Proof
namespace Machine

/-- The lanes of a line port of width `w` are `p` to `p + w - 1` (R189). -/
theorem mem_portLanes {p : Nat} (w i : Nat) (hp : p < 256) : i ∈ portLanes p w ↔ p ≤ i ∧ i < p + w := by
  unfold portLanes
  rw [if_pos hp, List.mem_map]
  constructor
  · rintro ⟨k, hk, rfl⟩
    have := List.mem_range.1 hk
    omega
  · rintro ⟨h1, h2⟩
    exact ⟨i - p, List.mem_range.2 (by omega), by omega⟩

/-- A change of the mode of a port that is up is FROZEN (R138). -/
theorem portSetOwn_frozen {s : State} {x : PortSet}
    (h : (s.portJudged x.port).admin = true ∧ (x.width ≠ (s.portJudged x.port).width ∨ x.rate ≠ (s.portJudged x.port).rate ∨
      x.fec ≠ (s.portJudged x.port).fec)) : s.portSetOwn x = some stFROZEN := if_pos h

/-- A port that is no multiple of its width is a BAD_FIELD (R189). -/
theorem portSetOwn_misaligned {s : State} {x : PortSet}
    (hn : ¬((s.portJudged x.port).admin = true ∧ (x.width ≠ (s.portJudged x.port).width ∨ x.rate ≠ (s.portJudged x.port).rate ∨
      x.fec ≠ (s.portJudged x.port).fec))) (hm : x.port % x.width ≠ 0) : s.portSetOwn x = some stBADFIELD :=
  (if_neg hn).trans (if_pos (.inr (.inl hm)))

/-- A port of the table's modes that is down, aligned and not absorbed, with no port up on its lanes, is set (R189-R191). -/
theorem portSetOwn_passes {s : State} {x : PortSet} (hm : x.port % x.width = 0) (hb : (s.portJudged x.port).absorbed = false)
    (hr : (modeRung x.rate x.width x.fec).isSome = true) (ha : (s.portJudged x.port).admin = false)
    (hl : ∀ q ∈ portLanes x.port x.width, (s.portJudged q).admin = false) : s.portSetOwn x = none := by
  unfold State.portSetOwn
  dsimp only
  rw [if_neg, if_neg, if_neg]
  · rw [List.any_eq_true]
    rintro ⟨q, hq, hu⟩
    rw [hl q (List.mem_of_mem_filter hq)] at hu
    exact absurd hu (by decide)
  · rintro (h | h | h)
    · rw [hb] at h; exact absurd h (by decide)
    · exact h hm
    · rw [Option.isNone_iff_eq_none] at h
      rw [h] at hr
      exact absurd hr (by decide)
  · rintro ⟨h, -⟩
    rw [ha] at h; exact absurd h (by decide)

/-- PORT_SET's fields are in range. -/
theorem specPortSet_fields (s : State) (h : Hdr) {port width rate fec flags mask : Nat} (hp : port ≤ 255)
    (hw : width = 1 ∨ width = 2 ∨ width = 4 ∨ width = 8) (hr : rate ≤ 7) (hf : fec ≤ 2) (hg : flags ≤ 7) (hm : mask ≤ 255) :
    ((specPortSet h port width rate fec flags mask).chk s).badField = false := by
  have hw' : (width == 1 || width == 2 || width == 4 || width == 8) = true := by
    rcases hw with rfl | rfl | rfl | rfl <;> rfl
  dsimp only [specPortSet]
  simp [hw', hp, hr, hf, hg, hm]

/-- Outside playa mode a PORT_SET with its fields in range is judged by its own checks alone. -/
theorem laterChecks_portSet {s : State} {h : Hdr} {port width rate fec flags mask : Nat} (hd : h.rsvd = false) (hh : h.hold = false)
    (hy : s.reg .SYS_STATUS_PLAYA ≠ 1) (hb : ((specPortSet h port width rate fec flags mask).chk s).badField = false) :
    s.laterChecks h 0x20 ((specPortSet h port width rate fec flags mask).chk s) =
      s.portSetOwn ⟨0, port, width, rate, fec, bit flags 0, bit flags 1, bit flags 2, mask⟩ := by
  have hs : (s.standby && standbyRefused 0x20) = false := Bool.and_false _
  unfold State.laterChecks
  rw [hd, hh, hb, hs, (flag_eq_false _ _ _).2 hy]
  dsimp only [specPortSet]
  cases s.portSetOwn ⟨0, port, width, rate, fec, bit flags 0, bit flags 1, bit flags 2, mask⟩ with
  | none => simp
  | some st => rfl

/-- Settles O50: R189's check is one of PORT_SET's own, which alone judge one that is otherwise in order. -/
theorem misalignedPortSetIsBadField : Obligations.MisalignedPortSetIsBadField := by
  unfold Obligations.MisalignedPortSetIsBadField
  refine ⟨fun p w i hp => mem_portLanes w i hp, ?_⟩
  intro s h port width rate fec flags mask sp h1 h2 h3 h4 h5 h6 hi hv hd hh hy hp hw hr hf hg hm
  have later : (s.fetched h sp).acceptance h sp.opc (s.fetched h sp).wrapNs (sp.chk (s.fetched h sp)) =
      (s.fetched h sp).portSetOwn ⟨0, port, width, rate, fec, bit flags 0, bit flags 1, bit flags 2, mask⟩ :=
    (acceptance_later _ hi hv).trans (laterChecks_portSet hd hh hy (specPortSet_fields _ h hp hw hr hf hg hm))
  refine ⟨fun hup => ?frozen, fun ha hn => ?misaligned, fun ha hb hc hn hl => ?passes⟩
  case frozen =>
    exact yields_refused rfl h1 h2 h3 h4 h5 h6 (later.trans (portSetOwn_frozen hup)) (by decide) (by decide) (by decide)
  case misaligned =>
    exact yields_refused rfl h1 h2 h3 h4 h5 h6 (later.trans (portSetOwn_misaligned hn ha)) (by decide) (by decide) (by decide)
  case passes => exact ⟨h1, h2, h3, h4, h5, h6, later.trans (portSetOwn_passes ha hb hc hn hl)⟩

end Machine
end Sys2Proof
end

section
/-!
PROOFS. The rows of the placement engine (R233, R237, R239, R242): the interval, the read that fills a way, the move that is given up
and the directory record that is read again, each with the rows in which nothing happens.
-/
namespace Sys2Proof
namespace Machine

/-! ### The interval (R233) -/

/-- Disabled or not due, the engine does nothing. -/
theorem doPlaceInterval_stays {s : State} (h : s.reg .CLS_PLACE_EN ≠ 1 ∨ s.clk.tickCount < s.cls.intervalNext) :
    doPlaceInterval s = s :=
  if_pos (h.imp_left fun he => by rw [(flag_eq_false _ _ _).2 he]; rfl)

/-- An interval that is due: its moves are chosen, its counts are taken and begun anew, and the first moves are made. -/
theorem doPlaceInterval_moves {s : State} (he : s.reg .CLS_PLACE_EN = 1) (hd : s.cls.intervalNext ≤ s.clk.tickCount) :
    doPlaceInterval s =
      (({ s with
        cls := { s.cls with
          intervalNext := s.clk.tickCount + max 1 (s.reg .CLS_PLACE_INTERVAL), todo := s.cacheMoves ++ s.bankMoves ++ s.otherMoves
          auditLast := s.auditCounts, bankLoad := [], place := s.cls.place.map fun x => (x.1, { x.2 with frames := 0, audited := 0 }) }
        spe := { s.spe with groupLast := s.spe.groupLoad, groupLoad := [] } } : State).fresh.placeMoves) := by
  refine if_neg ?_
  rw [(flag_eq_true _ _ _).2 he]
  rintro (h | h)
  · exact absurd h (by decide)
  · omega

/-! ### The read of a filling flow (R239) -/

/-- A flow that is not filling, or whose line is there already, is left alone. -/
theorem doFillReadDone_stays {s : State} {flow : Nat} (ok : Bool)
    (h : (s.placement flow).state ≠ 1 ∨ (s.placement flow).ready = true) : doFillReadDone flow ok s = s := if_pos h

/-- A filling flow whose line is read: good, it waits for the switch with its way; bad, it stays in the Cistern. -/
theorem doFillReadDone_fills {s : State} {flow : Nat} (ok : Bool) (hs : (s.placement flow).state = 1)
    (hr : (s.placement flow).ready = false) :
    doFillReadDone flow ok s =
      if ok then
        (s.setPlacement flow { (s.placement flow).put (fun x => { x with cacheOut := false }) with ready := true }).awaitSwitch none
      else s.setPlacement flow { s.placement flow with state := 0 } := by
  refine if_neg ?_
  rw [hs, hr]
  decide

/-! ### A fill or a move that is given up (R239) -/

/-- What is put into the pending generation is planned from then on, also where it is what is in force. -/
@[simp] theorem Placement.plan_put (p : Placement) (f : Spot → Spot) : (p.put f).plan = f p.plan := by
  unfold Placement.put
  dsimp only
  split
  case isTrue h => exact h.symm
  case isFalse => rfl

/-- What is planned for a move given up is what was put, for the state and the mark of the copy are no part of a plan. -/
@[simp] theorem Placement.plan_abandoned (p : Placement) :
    p.abandoned.plan = { p.plan with cacheOut := p.spot.cacheOut, slot := p.spot.slot } :=
  p.plan_put fun x => { x with cacheOut := p.spot.cacheOut, slot := p.spot.slot }

/-- A fill that has lasted 8 ticks is given up. -/
theorem agree_doPlaceTimeout_fill {s : State} {flow : Nat} (h8 : (s.placement flow).since + 8 ≤ s.clk.tickCount + 1)
    (hs : (s.placement flow).state = 1) :
    Agree (doPlaceTimeout flow s) (s.setPlacement flow (s.placement flow).abandoned) := by
  unfold doPlaceTimeout
  dsimp only
  rw [if_neg (by omega), hs]
  exact agree_placeNote3 _ _

/-- A move that has lasted 8 ticks is given up, and the slot it copied to is free again. -/
theorem agree_doPlaceTimeout_move {s : State} {flow : Nat} (h8 : (s.placement flow).since + 8 ≤ s.clk.tickCount + 1)
    (hs : (s.placement flow).state = 4) :
    Agree (doPlaceTimeout flow s)
      ((s.dropSlot (s.placement flow).newSlot).setPlacement flow (s.placement flow).abandoned) := by
  unfold doPlaceTimeout
  dsimp only
  rw [if_neg (by omega), hs]
  exact agree_placeNote3 _ _

/-! ### The directory record (R242) -/

/-- Of a flow whose record is not being read again nothing happens. -/
theorem doDirectoryRereadDone_stays {s : State} {flow : Nat} (ok : Bool) (h : (s.placement flow).reread = false) :
    doDirectoryRereadDone flow ok s = s := if_pos (by rw [h]; rfl)

/-- The record is good. -/
theorem doDirectoryRereadDone_good {s : State} {flow : Nat} (h : (s.placement flow).reread = true) :
    doDirectoryRereadDone flow true s = s.setPlacement flow { s.placement flow with reread := false } :=
  if_neg (by rw [h]; decide)

/-- The mirror line is damaged too: the flow has FAILED, and its slot is lost. -/
theorem agree_doDirectoryRereadDone_failed {s : State} {flow : Nat} (h : (s.placement flow).reread = true) :
    Agree (doDirectoryRereadDone flow false s)
      ((s.dropSlot (s.placement flow).spot.slot).setPlacement flow { s.placement flow with
        reread := false, state := 5, spot := { (s.placement flow).spot with cacheOut := true }, next := none }) := by
  unfold doDirectoryRereadDone
  dsimp only
  rw [if_neg (by rw [h]; decide), if_neg (by decide)]
  exact agree_failedEvent _ _ _

/-- Settles O39: each row is the branch its conditions select, and a move given up plans the slot and the way in force. -/
theorem placementRowsComplete : Obligations.PlacementRowsComplete := by
  unfold Obligations.PlacementRowsComplete
  refine ⟨?due, ?notDue, ?fills, ?noFill, ?givenUp, ?abandoned, ?reread, ?noReread⟩
  case due => exact fun s he hd => yields_eq (f := doPlaceInterval) rfl (doPlaceInterval_moves he hd)
  case notDue => exact fun s h => yields_eq (f := doPlaceInterval) rfl (doPlaceInterval_stays h)
  case fills =>
    exact fun s flow hs hr => ⟨yields_eq (f := doFillReadDone flow true) rfl (doFillReadDone_fills true hs hr),
      yields_eq (f := doFillReadDone flow false) rfl (doFillReadDone_fills false hs hr)⟩
  case noFill => exact fun s flow ok h => yields_eq (f := doFillReadDone flow ok) rfl (doFillReadDone_stays ok h)
  case givenUp =>
    exact fun s flow h8 => ⟨fun hs => yields_run (f := doPlaceTimeout flow) rfl (agree_doPlaceTimeout_fill h8 hs),
      fun hs => yields_run (f := doPlaceTimeout flow) rfl (agree_doPlaceTimeout_move h8 hs)⟩
  case abandoned =>
    intro p
    refine ⟨rfl, rfl, ?_, ?_, rfl⟩
    · rw [p.plan_abandoned]
    · rw [p.plan_abandoned]
  case reread =>
    exact fun s flow h => ⟨yields_eq (f := doDirectoryRereadDone flow true) rfl (doDirectoryRereadDone_good h),
      yields_run (f := doDirectoryRereadDone flow false) rfl (agree_doDirectoryRereadDone_failed h)⟩
  case noReread =>
    exact fun s flow ok h => yields_eq (f := doDirectoryRereadDone flow ok) rfl (doDirectoryRereadDone_stays ok h)

end Machine
end Sys2Proof
end

section
/-!
PROOFS. The rows of the Oasis (R257, R268, R270, R271, R277-R281): the query of a cell, the marks of the refill buffer and the size of
the timing pool, a line of the free ring, and the sweeps of the dust devil.
-/
namespace Sys2Proof
namespace Machine

/-! ### The query of a cell (R257) -/

/-- The query's CELL field holds every cell number. -/
theorem reg_cellQuery (s : State) {c : Nat} (h : c < 2 ^ 20) : (s.setReg .OAS_CELL_QUERY_CELL 0 c).reg .OAS_CELL_QUERY_CELL 0 = c :=
  (State.reg_setReg s _ 0 c).trans (Nat.mod_eq_of_lt h)

/-- The query shows the metadata word of its cell as it stands. -/
theorem doCellQuery_eq (s : State) {c : Nat} (h : c < 2 ^ 20) :
    doCellQuery c s =
      (let w := (s.cell c).metaWord (ptrHas c s.oas.marks)
       (s.setReg .OAS_CELL_QUERY_CELL 0 c).setRegs [(.OAS_CELL_RESULT_DONE, 0, 1), (.OAS_CELL_RESULT_STATE, 0, bits w 17 17),
        (.OAS_CELL_RESULT_HR, 0, bits w 14 14), (.OAS_CELL_RESULT_POOL, 0, bits w 16 15),
        (.OAS_CELL_RESULT_MARK, 0, bits w 5 5), (.OAS_CELL_RESULT_PAR_ERR, 0, b2n (!metaSound w)),
        (.OAS_CELL_RESULT_REF, 0, bits w 27 18), (.OAS_CELL_LINK_PORT, 0, bits w 13 6), (.OAS_CELL_LINK_NEXT, 0, bits w 47 28)]) := by
  unfold doCellQuery
  dsimp only
  rw [reg_cellQuery s h]
  rfl

/-! ### OAS_REFILL and OAS_TIMING (R270, R271) -/

/-- Marks of the refill buffer of which HIGH exceeds LOW are taken. -/
theorem doRefillWrite_takes (s : State) {high low : Nat} (hh : high < 4096) (hl : low < high) :
    doRefillWrite high low s = State.refillWork 4096 (s.setRegs [(.OAS_REFILL_HIGH, 0, high), (.OAS_REFILL_LOW, 0, low)]) := by
  unfold doRefillWrite
  dsimp only
  rw [Nat.mod_eq_of_lt hh, Nat.mod_eq_of_lt (hl.trans hh)]
  exact if_neg (by omega)

/-- Other marks are discarded whole, which is an event. -/
theorem agree_doRefillWrite_discarded (s : State) {high low : Nat} (h : high % 4096 ≤ low % 4096) : Agree (doRefillWrite high low s) s := by
  have he : doRefillWrite high low s = s.ev 92 [(4, 4)] := if_pos h
  rw [he]
  exact agree_ev _ _ _

/-- A new size of the timing pool in range refills every list of an idle Oasis. -/
theorem doTimingCellsWrite_takes {s : State} {cells : Nat} (hl : 256 ≤ cells) (hu : cells ≤ 65536)
    (hn : cells ≠ s.reg .OAS_TIMING_CELLS) (hi : s.oasIdle = true) :
    doTimingCellsWrite cells s = (s.setReg .OAS_TIMING_CELLS 0 cells).oasFill cells := by
  have hv : cells % 2 ^ 20 = cells := Nat.mod_eq_of_lt (by omega)
  unfold doTimingCellsWrite
  dsimp only
  rw [hv, if_neg hn, if_neg]
  rintro (h | h | h)
  · rw [hi] at h; exact absurd h (by decide)
  · omega
  · omega

/-- A size out of range, and any size while the Oasis is not idle, leaves the pool as it is. -/
theorem agree_doTimingCellsWrite_discarded {s : State} {cells : Nat}
    (h : cells < 256 ∨ (65536 < cells ∧ cells < 2 ^ 20) ∨ s.oasIdle = false) : Agree (doTimingCellsWrite cells s) s := by
  have hbad : (!s.oasIdle) = true ∨ cells % 2 ^ 20 < 256 ∨ 65536 < cells % 2 ^ 20 := by
    rcases h with h | ⟨hl, hu⟩ | h
    · exact .inr (.inl (by omega))
    · exact .inr (.inr (by omega))
    · exact .inl (by rw [h]; rfl)
  unfold doTimingCellsWrite
  dsimp only
  rw [if_pos hbad]
  split
  · exact Agree.refl s
  · exact agree_ev _ _ _

/-! ### Lines of the free ring (R268, R278) -/

/-- A sound line joins the refill buffer, and its cells are marked. -/
theorem doFreeRingReadDone_joins {s : State} {r : Ptrs} {rest : List Ptrs} (line : Nat) (h : s.oas.reads = r :: rest) :
    doFreeRingReadDone false line s =
      (let u := r.foldl (fun (u : State) x => (List.range x.2).foldl (fun (u : State) k => u.markCell (x.1 + k)) u) s
       State.refillWork 64 { u with oas := { u.oas with reads := rest, refill := ptrAppend u.oas.refill r } }) := by
  unfold doFreeRingReadDone
  rw [h]
  rfl

/-- With no read outstanding nothing returns. -/
theorem doFreeRingReadDone_none {s : State} (bad : Bool) (line : Nat) (h : s.oas.reads = []) : doFreeRingReadDone bad line s = s := by
  unfold doFreeRingReadDone
  rw [h]

/-! ### Sweeps (R278-R281) -/

/-- The sweep is in MARK or SWEEP when its state is not 0. -/
theorem sweeping_iff (s : State) : s.sweeping = true ↔ s.reg .OAS_DUST_STATUS_STATE ≠ 0 := by unfold State.sweeping; simp

/-- At a boundary a sweep that is due is not let pass. -/
theorem not_sweepIdle {s : State} (hc : s.clk.cycle = 0) (hd : s.oas.due = true) : ¬(s.clk.cycle ≠ 0 ∨ (!s.oas.due) = true) := by
  rw [hd]
  rintro (h | h)
  · exact h hc
  · exact absurd h (by decide)

/-- A sweep that is due starts where none runs. -/
theorem doSweepDue_starts {s : State} (hc : s.clk.cycle = 0) (hd : s.oas.due = true) (h0 : s.reg .OAS_DUST_STATUS_STATE = 0) :
    doSweepDue s = s.sweepStart false := by
  unfold doSweepDue
  rw [if_neg (not_sweepIdle hc hd), if_neg fun h => (sweeping_iff s).1 h h0]

/-- A sweep that is due while one runs is passed over, which is an event. -/
theorem agree_doSweepDue_skips {s : State} (hc : s.clk.cycle = 0) (hd : s.oas.due = true) (h : s.reg .OAS_DUST_STATUS_STATE ≠ 0) :
    Agree (doSweepDue s) { s with oas := { s.oas with due := false } } := by
  unfold doSweepDue
  rw [if_neg (not_sweepIdle hc hd), if_pos ((sweeping_iff s).2 h)]
  exact agree_ev _ _ _

/-- Between boundaries, and with no sweep due, nothing starts. -/
theorem doSweepDue_stays {s : State} (h : s.clk.cycle ≠ 0 ∨ s.oas.due = false) : doSweepDue s = s :=
  if_pos (h.imp_right fun hd => by rw [hd]; rfl)

/-- The performance counts of a sweep's end are accounts. -/
theorem agree_sweepCounts (s : State) (leaked lost : Nat) (reclaim : Bool) :
    Agree
      (let u := ((s.tally 15 7 1 0 0 0 1).tally 15 8 1 0 0 0 leaked).tally 15 8 3 0 0 0 lost
       if reclaim then u.tally 15 8 2 0 0 0 leaked else u) s := by
  have counted : ∀ (v : State) (item q n : Nat), Agree (v.tally 15 item q 0 0 0 n) v := fun v item q n =>
    agree_tally v item q 0 0 0 n (by decide)
  have always := (counted _ 8 3 lost).trans ((counted _ 8 1 leaked).trans (counted s 7 1 1))
  dsimp only
  split
  · exact (counted _ 8 2 leaked).trans always
  · exact always

/-- When SWEEP ends, what it counts and tells beyond its results is in the accounts. -/
theorem agree_doSweepEnd {s : State} (h : s.reg .OAS_DUST_STATUS_STATE = 2) :
    Agree (doSweepEnd s)
      (let un := gaps 0 (s.oas.marks.foldl (fun l r => insRange r l) [])
       let leaked := (s.oas.cells.filter fun x => x.2.state && ptrHas x.1 un).map Prod.fst
       let lost := (un.flatMap fun r => (List.range r.2).map (r.1 + ·)).filter fun c => !(s.cell c).state
       let u := if s.flag .OAS_DUST_RECLAIM || s.oas.reclaim then
           leaked.foldl (fun (u : State) c => (u.freeCell 0 c (u.cell c).port).setCell c Cell.fresh) s else s
       ((lost.foldl (fun (u : State) c => u.placePtr 0 c) u).setRegs [(.OAS_DUST_LEAKED_CELLS, 0, leaked.length),
         (.OAS_DUST_LOST_CELLS, 0, lost.length), (.OAS_DUST_STATUS_STATE, 0, 0)]).wrapReg .OAS_DUST_STATUS_SWEEPS 0 1) := by
  unfold doSweepEnd
  rw [if_neg fun hn => hn h]
  exact (agree_evIf _ _ _ _).trans ((agree_evIf _ _ _ _).trans (agree_sweepCounts _ _ _ _))

/-- A MARK that has lasted PERIOD ticks is abandoned, which is an event too. -/
theorem agree_doSweepTimeout {s : State} (h : s.reg .OAS_DUST_STATUS_STATE = 1)
    (hp : s.reg .OAS_DUST_PERIOD ≤ s.clk.tickCount - s.oas.began) :
    Agree (doSweepTimeout s) (s.setReg .OAS_DUST_STATUS_STATE 0 0) := by
  have he : doSweepTimeout s = (s.sweepEvent 2).setReg .OAS_DUST_STATUS_STATE 0 0 := if_pos ⟨h, hp⟩
  rw [he]
  exact (agree_ev _ _ _).setReg _ _ _

/-- Settles O29: each row is the branch its conditions select. -/
theorem oasisRowsComplete : Obligations.OasisRowsComplete := by
  unfold Obligations.OasisRowsComplete
  refine ⟨?query, ?refill, ?noRefill, ?timing, ?noTiming, ?line, ?noLine, ?due, ?skip, ?notDue, ?marked, ?ended, ?timeout⟩
  case query => exact fun s c h => yields_eq (f := doCellQuery c) rfl (doCellQuery_eq s h)
  case refill => exact fun s high low hh hl => yields_eq (f := doRefillWrite high low) rfl (doRefillWrite_takes s hh hl)
  case noRefill =>
    exact fun s high low h => yields_run (f := doRefillWrite high low) rfl (agree_doRefillWrite_discarded s h)
  case timing =>
    exact fun s cells hl hu hn hi => yields_eq (f := doTimingCellsWrite cells) rfl (doTimingCellsWrite_takes hl hu hn hi)
  case noTiming => exact fun s cells h => yields_run (f := doTimingCellsWrite cells) rfl (agree_doTimingCellsWrite_discarded h)
  case line => exact fun s line r rest h => yields_eq (f := doFreeRingReadDone false line) rfl (doFreeRingReadDone_joins line h)
  case noLine => exact fun s line bad h => yields_eq (f := doFreeRingReadDone bad line) rfl (doFreeRingReadDone_none bad line h)
  case due => exact fun s hc hd h0 => yields_eq (f := doSweepDue) rfl (doSweepDue_starts hc hd h0)
  case skip => exact fun s hc hd h => yields_run (f := doSweepDue) rfl (agree_doSweepDue_skips hc hd h)
  case notDue => exact fun s h => yields_eq (f := doSweepDue) rfl (doSweepDue_stays h)
  case marked => exact fun s h => yields_eq (f := doSweepMarkDone) rfl (if_pos h)
  case ended => exact fun s h => yields_run (f := doSweepEnd) rfl (agree_doSweepEnd h)
  case timeout => exact fun s h hp => yields_run (f := doSweepTimeout) rfl (agree_doSweepTimeout h hp)

end Machine
end Sys2Proof
end

section
/-!
PROOFS. The states of a start (R270, R424, R525, R585, R591-R595, R604, R608): what a start that fails leaves, the row of each state and of
each wait, and the bindings that firmware makes before READY.
-/
namespace Sys2Proof
namespace Machine

/-! ### A start fails (R591, R593, R595) -/

/-- The start as it shows that it has failed, before the count is raised. -/
def State.failShown (s : State) (fail : Nat) : State :=
  (((s.setReg .SYS_STATUS_START 0 4).setReg .SYS_STATUS_READY 0 0).setReg .SYS_START_REASON_FAIL 0 fail).stateBegins

/-- Showing a failure leaves the count. -/
theorem count_failShown (s : State) (fail : Nat) :
    (s.failShown fail).reg .SYS_START_REASON_COUNT = s.reg .SYS_START_REASON_COUNT := by
  have hregs : (s.failShown fail).regs =
      (((s.setReg .SYS_STATUS_START 0 4).setReg .SYS_STATUS_READY 0 0).setReg .SYS_START_REASON_FAIL 0 fail).regs := rfl
  rw [State.reg_of_regs hregs]
  simp (disch := decide) only [State.reg_setReg_ne]

/-- A count that is set reads as it was set. -/
theorem reg_setReg_count (s : State) {n : Nat} (h : n < 16) :
    (s.setReg .SYS_START_REASON_COUNT 0 n).reg .SYS_START_REASON_COUNT = n :=
  (State.reg_setReg s _ 0 n).trans (Nat.mod_eq_of_lt h)

/-- The count is set in the island and, with BOOT, in the copy of the start record whose turn it is (R589, R595). -/
theorem setCount_eq (s : State) {n : Nat} (h : n < 16) :
    s.setCount n =
      (let u := s.setReg .SYS_START_REASON_COUNT 0 n
       ({ u with sys := { u.sys with recCopy := 1 - u.sys.recCopy } } : State).emit
         (.flash 0 (0x2000 + 0x1000 * s.sys.recCopy) (le 2 n ++ le 2 s.cairn.boot))) := by
  unfold State.setCount State.writeRecord
  rw [reg_setReg_count s h]
  rfl

/-- A failure raises the count; at 3 the part goes to playa mode. -/
theorem failStart_eq (s : State) (fail : Nat) :
    s.failStart fail =
      (let u := (s.failShown fail).setCount (min 15 (s.reg .SYS_START_REASON_COUNT + 1))
       if 3 ≤ u.reg .SYS_START_REASON_COUNT then u.enterPlaya else u.cairnStart.showPins) := by
  rw [← count_failShown s fail]
  rfl

/-- A failure that is not the third is counted, in the island and in the flash, and the start stays FAILED. -/
theorem failStart_counts (s : State) (fail : Nat) (h : s.reg .SYS_START_REASON_COUNT < 2) :
    s.failStart fail =
      (let u := (((s.setReg .SYS_STATUS_START 0 4).setReg .SYS_STATUS_READY 0 0).setReg .SYS_START_REASON_FAIL 0 fail).stateBegins.setReg
         .SYS_START_REASON_COUNT 0 (s.reg .SYS_START_REASON_COUNT + 1)
       ((({ u with sys := { u.sys with recCopy := 1 - u.sys.recCopy } } : State).emit
         (.flash 0 (0x2000 + 0x1000 * s.sys.recCopy) (le 2 (s.reg .SYS_START_REASON_COUNT + 1) ++ le 2 s.cairn.boot))).cairnStart).showPins) := by
  have hmin : min 15 (s.reg .SYS_START_REASON_COUNT + 1) = s.reg .SYS_START_REASON_COUNT + 1 := by omega
  have hshown : ((s.failShown fail).setCount (s.reg .SYS_START_REASON_COUNT + 1)).reg .SYS_START_REASON_COUNT =
      s.reg .SYS_START_REASON_COUNT + 1 := reg_setReg_count (s.failShown fail) (by omega)
  rw [failStart_eq, hmin]
  dsimp only
  rw [if_neg (by rw [hshown]; omega), setCount_eq _ (by omega)]
  rfl

/-! ### ROM, VERIFY and INIT (R270, R424, R591-R594) -/

/-- A row of state `n` of a start acts in it while internal reset is not held. -/
theorem not_outside {s : State} {n : Nat} (hs : s.reg .SYS_STATUS_START = n) (hh : s.sys.held = false) :
    ¬(s.startState ≠ n ∨ s.sys.held = true) := by
  rw [hh]
  exact fun h => h.elim (fun h => h hs) (by decide)

/-- Reset that is not held, as the rows of the waits ask for it. -/
theorem not_held_eq_true {s : State} (hh : s.sys.held = false) : (!s.sys.held) = true := by rw [hh]; rfl

/-- A state that has lasted its span. -/
theorem stateLasted_iff (s : State) (n : Nat) : s.stateLasted n = true ↔ s.sys.stateAt + n ≤ s.clk.tickCount := decide_eq_true_iff

/-- A start is under way in ROM, VERIFY and INIT. -/
theorem starting_of_le {s : State} (hs : s.reg .SYS_STATUS_START ≤ 2) (hh : s.sys.held = false) : s.starting = true := by
  unfold State.starting State.startState
  rw [hh, decide_eq_true hs]
  rfl

/-- ROM has read the flash: SELECT and the versions are shown, and VERIFY begins. -/
theorem doRomDone_reads {s : State} (sel : Nat) (a b : Option Nat) (hs : s.reg .SYS_STATUS_START = 0) (hh : s.sys.held = false) :
    doRomDone sel a b s =
      (let u := (((s.setReg .SYS_STATUS_START 0 1).setReg .SYS_BOOT_SELECT 0 sel).setReg .SYS_FW_VER_A_VERSION 0 (a.getD 0)).setReg
         .SYS_FW_VER_B_VERSION 0 (b.getD 0)
       { u with sys := { u.sys with xo := true, slotA := a, slotB := b } }) :=
  if_neg (not_outside hs hh)

/-- The slot of R594 is booted if it verifies, else the other, else the start fails. -/
theorem doVerifyDone_boots {s : State} (okA okB : Bool) (hs : s.reg .SYS_STATUS_START = 1) (hh : s.sys.held = false) :
    doVerifyDone okA okB s =
      (let sel := s.reg .SYS_BOOT_SELECT
       let first := if s.reg .SYS_START_REASON_COUNT = 2 then 1 - sel else sel
       let passes (k : Nat) : Bool := (s.slotVersion k).isSome && (if k = 0 then okA else okB)
       if passes first then s.bootSlot first
       else if passes (1 - first) then (s.bootSlot (1 - first)).setReg .SYS_START_REASON_FALLBACK 0 (b2n (first == sel))
       else (s.setReg .SYS_START_REASON_SLOT 0 3).failStart 1) :=
  if_neg (not_outside hs hh)

/-- Training that succeeds is shown, and the Oasis is filled. -/
theorem doHbmTrainingDone_fills {s : State} (hs : s.reg .SYS_STATUS_START = 2) (hh : s.sys.held = false) :
    doHbmTrainingDone true s = (s.setReg .CIS_STATUS_TRAINED 0 1).oasFill (s.reg .OAS_TIMING_CELLS) := by
  have hcells : (s.setReg .CIS_STATUS_TRAINED 0 1).reg .OAS_TIMING_CELLS = s.reg .OAS_TIMING_CELLS :=
    State.reg_setReg_ne s (by decide) _ (by decide) (by decide)
  unfold doHbmTrainingDone
  rw [if_neg (not_outside hs hh), if_neg (by decide)]
  dsimp only
  rw [hcells]

/-- Training that fails fails the start. -/
theorem doHbmTrainingDone_fails {s : State} (hs : s.reg .SYS_STATUS_START = 2) (hh : s.sys.held = false) :
    doHbmTrainingDone false s = s.failStart 3 := by
  unfold doHbmTrainingDone
  rw [if_neg (not_outside hs hh), if_pos (by decide)]

/-- A watchdog of a core during a start fails it. -/
theorem doWatchdogExpiry_starting {s : State} {c : Nat} (hc : c < 4) (hs : s.reg .SYS_STATUS_START ≤ 2) (hh : s.sys.held = false) :
    doWatchdogExpiry c s = s.failStart 5 := by
  unfold doWatchdogExpiry
  rw [if_neg (by omega), if_pos (starting_of_le hs hh)]

/-- A failed start is tried again when it has been FAILED for its span. -/
theorem doStartRetry_begins {s : State} (hs : s.reg .SYS_STATUS_START = 4) (hh : s.sys.held = false)
    (hl : s.sys.stateAt + 1000000 ≤ s.clk.tickCount) (hc : s.reg .SYS_START_REASON_COUNT < 3) : doStartRetry s = s.beginStart 8 :=
  if_pos ⟨hs, not_held_eq_true hh, (stateLasted_iff s _).2 hl, hc⟩

/-! ### The bindings of channels 0 to 11 (R525) -/

/-- The fields of a channel's binding. -/
def bindFields : List Fld := [.MBX_CH_BIND_VALID, .MBX_CH_BIND_SENDER, .MBX_CH_BIND_RECEIVER, .MBX_CH_BIND_REMOTE]

/-- What a write of a binding can do: nothing, a refusal that is an event, or the binding of a channel that exists. -/
theorem doChannelBind_cases (who n : Nat) (valid : Bool) (a b r : Nat) (s : State) :
    doChannelBind who n valid a b r s = s ∨ (∃ c, doChannelBind who n valid a b r s = s.bindBad who n c) ∨
      (n < 32 ∧ doChannelBind who n valid a b r s = s.setRegs [(.MBX_CH_BIND_VALID, n, b2n valid), (.MBX_CH_BIND_SENDER, n, a % 32),
        (.MBX_CH_BIND_RECEIVER, n, b % 32), (.MBX_CH_BIND_REMOTE, n, r % 32)]) := by
  unfold doChannelBind
  dsimp only
  by_cases hn : 32 ≤ n
  · exact .inl (if_pos hn)
  rw [if_neg hn]
  split
  · exact .inr (.inl ⟨4, rfl⟩)
  split
  · exact .inr (.inl ⟨5, rfl⟩)
  split
  · exact .inr (.inl ⟨6, rfl⟩)
  split
  · exact .inr (.inl ⟨1, rfl⟩)
  split
  · exact .inr (.inl ⟨_, rfl⟩)
  · exact .inr (.inr ⟨by omega, rfl⟩)

/-- A binding between two identities that have paths, of a channel that is not full, while the bindings are not locked. -/
theorem doChannelBind_binds {s : State} {n a b : Nat} (r : Nat) (hn : n < 32) (hl : s.reg .MBX_CTRL_LOCKED = 0)
    (hf : s.reg .MBX_CH_STATUS_FULL n = 0) (ha : a < 32) (hb : b < 32) (hp : (chanPath a && chanPath b) = true) (hab : a ≠ b) :
    doChannelBind 16 n true a b r s = s.setRegs [(.MBX_CH_BIND_VALID, n, 1), (.MBX_CH_BIND_SENDER, n, a),
      (.MBX_CH_BIND_RECEIVER, n, b), (.MBX_CH_BIND_REMOTE, n, r % 32)] := by
  have hlocked : ¬s.flag .MBX_CTRL_LOCKED = true := by rw [flag_eq_true, hl]; decide
  have hfull : ¬s.full n = true := by unfold State.full; rw [flag_eq_true, hf]; decide
  unfold doChannelBind
  dsimp only
  rw [Nat.mod_eq_of_lt ha, Nat.mod_eq_of_lt hb, if_neg (by omega), if_neg hlocked, if_neg (by decide), if_neg hfull,
    if_neg (by rw [hp]; decide), if_neg fun h => hab h.2]
  rfl

/-- Firmware's binding of channel `n`, where it is not bound so already. -/
def State.bindFirst (s : State) (n : Nat) : State :=
  let b := startBindings.getD n (0, 0, 0)
  if s.bound n ∧ s.sender n = b.1 ∧ s.receiver n = b.2.1 ∧ s.reg .MBX_CH_BIND_REMOTE n = b.2.2 then s
  else doChannelBind 16 n true b.1 b.2.1 b.2.2 s

/-- Firmware binds the channels in order. -/
theorem bindStart_eq_foldl (s : State) : s.bindStart = (List.range 12).foldl State.bindFirst s := rfl

/-- Channel `n` is bound as R525 says. -/
def State.BoundFirst (s : State) (n : Nat) : Prop :=
  let b := startBindings.getD n (0, 0, 0)
  s.reg .MBX_CH_BIND_VALID n = 1 ∧ s.reg .MBX_CH_BIND_SENDER n = b.1 ∧ s.reg .MBX_CH_BIND_RECEIVER n = b.2.1 ∧
    s.reg .MBX_CH_BIND_REMOTE n = b.2.2

/-- The bindings may be written: they are not locked, and no channel to be bound is full. -/
def State.BindsOpen (s : State) : Prop := s.reg .MBX_CTRL_LOCKED = 0 ∧ ∀ k, k < 12 → s.reg .MBX_CH_STATUS_FULL k = 0

/-- Writes of other fields, or of other indices, leave a register. -/
theorem setRegs_reg_of_other (l : List (Fld × Nat × Nat)) (s : State) (f : Fld) {k : Nat} (hk : k < 8192)
    (h : ∀ x ∈ l, x.2.1 < 8192 ∧ (f ≠ x.1 ∨ k ≠ x.2.1)) : (s.setRegs l).reg f k = s.reg f k := by
  unfold State.setRegs
  induction l generalizing s with
  | nil => rfl
  | cons x l ih =>
    obtain ⟨hx, hne⟩ := h x (List.mem_cons_self ..)
    rw [List.foldl_cons, ih _ fun y hy => h y (List.mem_cons_of_mem _ hy)]
    by_cases hf : f = x.1
    · subst hf; exact State.reg_setReg_index s _ _ (hne.resolve_left fun h => h rfl)
    · exact State.reg_setReg_ne s hf _ hx hk

/-- A binding touches no register but those of its channel's binding. -/
theorem reg_bindFirst (s : State) (n : Nat) (f : Fld) {k : Nat} (hk : k < 8192) (h : f ∉ bindFields ∨ k ≠ n) :
    (s.bindFirst n).reg f k = s.reg f k := by
  unfold State.bindFirst
  dsimp only
  split
  · rfl
  · rcases doChannelBind_cases 16 n true (startBindings.getD n (0, 0, 0)).1 (startBindings.getD n (0, 0, 0)).2.1
      (startBindings.getD n (0, 0, 0)).2.2 s with he | ⟨c, he⟩ | ⟨hn, he⟩
    · rw [he]
    · rw [he]; exact State.reg_of_regs (State.ev_regs _ _ _) f k
    · rw [he]
      refine setRegs_reg_of_other _ s f hk fun x hx => ?_
      have hx' : x.1 ∈ bindFields ∧ x.2.1 = n := by
        simp only [List.mem_cons, List.not_mem_nil, or_false] at hx
        rcases hx with rfl | rfl | rfl | rfl <;> exact ⟨by simp [bindFields], rfl⟩
      obtain ⟨hfld, hidx⟩ := hx'
      exact ⟨by omega, h.imp (fun hf he => hf (he ▸ hfld)) fun hkn => by omega⟩

/-- A binding touches registers only. -/
theorem sys_bindFirst (s : State) (n : Nat) : (s.bindFirst n).sys = s.sys := by
  unfold State.bindFirst
  dsimp only
  split
  · rfl
  · rcases doChannelBind_cases 16 n true (startBindings.getD n (0, 0, 0)).1 (startBindings.getD n (0, 0, 0)).2.1
      (startBindings.getD n (0, 0, 0)).2.2 s with he | ⟨c, he⟩ | ⟨-, he⟩ <;> rw [he]
    · exact State.ev_sys _ _ _
    · exact State.setRegs_sys _ _

/-- The table of R525 binds identities that have paths, and no identity to itself. -/
theorem startBindings_valid : ∀ n, n < 12 → (startBindings.getD n (0, 0, 0)).1 < 32 ∧ (startBindings.getD n (0, 0, 0)).2.1 < 32 ∧
    (startBindings.getD n (0, 0, 0)).2.2 < 32 ∧
    (chanPath (startBindings.getD n (0, 0, 0)).1 && chanPath (startBindings.getD n (0, 0, 0)).2.1) = true ∧
    (startBindings.getD n (0, 0, 0)).1 ≠ (startBindings.getD n (0, 0, 0)).2.1 := by decide

/-- The four fields of a binding read what has been written. -/
theorem reg_setRegs_binding (s : State) {n a b r : Nat} (hn : n < 8192) (ha : a < 32) (hb : b < 32) (hr : r < 32) :
    let t := s.setRegs [(.MBX_CH_BIND_VALID, n, 1), (.MBX_CH_BIND_SENDER, n, a), (.MBX_CH_BIND_RECEIVER, n, b), (.MBX_CH_BIND_REMOTE, n, r)]
    t.reg .MBX_CH_BIND_VALID n = 1 ∧ t.reg .MBX_CH_BIND_SENDER n = a ∧ t.reg .MBX_CH_BIND_RECEIVER n = b ∧ t.reg .MBX_CH_BIND_REMOTE n = r := by
  have skip : ∀ (u : State) {f g : Fld} (v : Nat), g ≠ f → (u.setReg f n v).reg g n = u.reg g n := fun u f g v h =>
    State.reg_setReg_ne u h v hn hn
  have five : ∀ {v : Nat}, v < 32 → v % 2 ^ 5 = v := fun h => Nat.mod_eq_of_lt h
  simp only [State.setRegs, List.foldl]
  refine ⟨?_, ?_, ?_, ?_⟩
  · rw [skip _ _ (by decide), skip _ _ (by decide), skip _ _ (by decide), State.reg_setReg]; rfl
  · rw [skip _ _ (by decide), skip _ _ (by decide), State.reg_setReg]; exact five ha
  · rw [skip _ _ (by decide), State.reg_setReg]; exact five hb
  · rw [State.reg_setReg]; exact five hr

/-- Firmware's binding of a channel binds it as R525 says. -/
theorem boundFirst_bindFirst {s : State} {n : Nat} (hn : n < 12) (ho : s.BindsOpen) : (s.bindFirst n).BoundFirst n := by
  obtain ⟨hlocked, hfull⟩ := ho
  obtain ⟨ha, hb, hr, hp, hab⟩ := startBindings_valid n hn
  unfold State.bindFirst
  dsimp only
  split
  case isTrue h =>
    obtain ⟨hv, hsend, hrecv, hrem⟩ := h
    exact ⟨(flag_eq_true _ _ _).1 hv, hsend, hrecv, hrem⟩
  case isFalse =>
    rw [doChannelBind_binds _ (by omega) hlocked (hfull n hn) ha hb hp hab, Nat.mod_eq_of_lt hr]
    exact reg_setRegs_binding s (by omega) ha hb hr

/-- A binding leaves the bindings open. -/
theorem bindsOpen_bindFirst {s : State} (n : Nat) (h : s.BindsOpen) : (s.bindFirst n).BindsOpen := by
  obtain ⟨hlocked, hfull⟩ := h
  exact ⟨(reg_bindFirst s n _ (by decide) (.inl (by decide))).trans hlocked,
    fun k hk => (reg_bindFirst s n _ (by omega) (.inl (by decide))).trans (hfull k hk)⟩

/-- A binding leaves the other channels bound as they are. -/
theorem boundFirst_bindFirst_ne {s : State} {n m : Nat} (hn : n < 12) (hm : n ≠ m) (h : s.BoundFirst n) : (s.bindFirst m).BoundFirst n := by
  obtain ⟨hv, hsend, hrecv, hrem⟩ := h
  have hk : ∀ f, (s.bindFirst m).reg f n = s.reg f n := fun f => reg_bindFirst s m f (by omega) (.inr hm)
  exact ⟨(hk _).trans hv, (hk _).trans hsend, (hk _).trans hrecv, (hk _).trans hrem⟩

/-- Binding a list of channels binds each of them, and leaves bound what was. -/
theorem boundFirst_foldl {n : Nat} (hn : n < 12) (l : List Nat) (s : State) (ho : s.BindsOpen) (h : n ∈ l ∨ s.BoundFirst n) :
    (l.foldl State.bindFirst s).BoundFirst n := by
  induction l generalizing s with
  | nil => exact h.resolve_left List.not_mem_nil
  | cons m l ih =>
    refine ih _ (bindsOpen_bindFirst m ho) ?_
    by_cases hm : n = m
    · subst hm; exact .inr (boundFirst_bindFirst hn ho)
    · exact h.imp (fun h => (List.mem_cons.1 h).resolve_left hm) (boundFirst_bindFirst_ne hn hm)

/-- The bindings of a start touch no register but those of bindings. -/
theorem reg_bindStart (s : State) {f : Fld} (hf : f ∉ bindFields) : s.bindStart.reg f = s.reg f := by
  rw [bindStart_eq_foldl]
  exact foldl_keep (fun s : State => s.reg f) State.bindFirst (fun s n => reg_bindFirst s n f (by decide) (.inl hf)) (List.range 12) s

/-- The bindings of a start touch registers only. -/
theorem sys_bindStart (s : State) : s.bindStart.sys = s.sys := by
  rw [bindStart_eq_foldl]
  exact foldl_keep State.sys State.bindFirst sys_bindFirst (List.range 12) s

/-! ### READY (R591, R594, R604, R608) -/

/-- The aligners of the list are marked as trimmed at the temperature of their sensor. -/
def State.trimmed (s : State) (l : List Nat) : State := l.foldl (fun (s : State) n => s.calMark 3 n (s.temp 8)) s

/-- A mark touches no register. -/
theorem regs_trimmed (s : State) (l : List Nat) : (s.trimmed l).regs = s.regs :=
  foldl_keep State.regs (fun (s : State) n => s.calMark 3 n (s.temp 8)) (fun _ _ => rfl) l s

/-- A mark leaves it that the start is a cold one, or after a warm reset. -/
theorem warm_trimmed (s : State) (l : List Nat) : (s.trimmed l).sys.warm = s.sys.warm :=
  foldl_keep (fun s : State => s.sys.warm) (fun (s : State) n => s.calMark 3 n (s.temp 8)) (fun _ _ => rfl) l s

/-- Without Cairn a start writes no record. -/
theorem cairnStart_off {s : State} (h : s.reg .OBS_CAIRN_CTRL_EN = 0) : s.cairnStart = s :=
  if_pos (by rw [(flag_eq_false s .OBS_CAIRN_CTRL_EN 0).2 (by rw [h]; decide)]; rfl)

/-- After a cold start there is no warm reset to be forgotten. -/
theorem sys_cold {y : Sys} (h : y.warm = false) (a b : Nat) :
    { y with warm := false, watchAt := a, readyAt := b } = { y with watchAt := a, readyAt := b } := by
  rw [h]

/-- The part as it shows that it is in service. -/
def State.serviceShown (s : State) : State := (s.bindStart.setReg .SYS_STATUS_START 0 3).setReg .SYS_STATUS_READY 0 1

/-- Showing service leaves the other registers. -/
theorem reg_serviceShown (s : State) {f : Fld} (hf : f ∉ bindFields) (hs : f ≠ .SYS_STATUS_START) (hr : f ≠ .SYS_STATUS_READY) :
    s.serviceShown.reg f = s.reg f := by
  unfold State.serviceShown
  rw [State.reg_setReg_ne _ hr _ (by decide) (by decide), State.reg_setReg_ne _ hs _ (by decide) (by decide), reg_bindStart s hf]

/-- Showing service touches registers only. -/
theorem sys_serviceShown (s : State) : s.serviceShown.sys = s.sys := by
  unfold State.serviceShown
  rw [State.setReg_sys, State.setReg_sys, sys_bindStart]

/-- The slot that SELECT names has booted from cold without Cairn: nothing is moved and nothing told. -/
theorem doFirmwareReady_serves {s : State} (hs : s.reg .SYS_STATUS_START = 2) (hh : s.sys.held = false)
    (hsel : s.reg .SYS_START_REASON_SLOT = s.reg .SYS_BOOT_SELECT) (hfb : s.reg .SYS_START_REASON_FALLBACK = 0)
    (hw : s.sys.warm = false) (hen : s.reg .OBS_CAIRN_CTRL_EN = 0) :
    doFirmwareReady s =
      (let u := s.serviceShown.trimmed (List.range 16)
       ({ u with sys := { u.sys with watchAt := 0, readyAt := u.clk.tickCount + 1 } } : State).showPins) := by
  have hmoved : (s.bindStart.reg .SYS_START_REASON_SLOT != s.bindStart.reg .SYS_BOOT_SELECT) = false := by
    rw [reg_bindStart s (by decide), reg_bindStart s (by decide), hsel]; exact bne_self_eq_false _
  have htold : s.serviceShown.flag .SYS_START_REASON_FALLBACK = false := by
    rw [flag_eq_false, reg_serviceShown s (by decide) (by decide) (by decide), hfb]; decide
  have hwarm : (s.serviceShown.trimmed (List.range 16)).sys.warm = false := by
    rw [warm_trimmed, sys_serviceShown, hw]
  have hoff : (s.serviceShown.trimmed (List.range 16)).reg .OBS_CAIRN_CTRL_EN = 0 := by
    rw [State.reg_of_regs (regs_trimmed _ _), reg_serviceShown s (by decide) (by decide) (by decide), hen]
  have hshown : s.bindStart.setRegs [(.SYS_STATUS_START, 0, 3), (.SYS_STATUS_READY, 0, 1)] = s.serviceShown := rfl
  unfold doFirmwareReady
  rw [if_neg (not_outside hs hh)]
  dsimp only
  rw [hmoved, if_neg Bool.false_ne_true, hshown, htold, Bool.or_false, if_neg Bool.false_ne_true, ← State.trimmed]
  generalize s.serviceShown.trimmed (List.range 16) = u at hwarm hoff ⊢
  rw [hwarm, if_neg Bool.false_ne_true, sys_cold hwarm]
  exact congrArg State.showPins (cairnStart_off hoff)

/-- The waits and failures of a start that fail it, each with its reason (R591-R593). -/
theorem yields_failStart {i : Instr} {s : State} {fail : Nat} (hh : s.sys.held = false)
    (h : (s.sys.stateAt + 10000 ≤ s.clk.tickCount ∧ i = .xoDetectTimeout ∧ s.reg .SYS_STATUS_START = 0 ∧ fail = 4) ∨
      (s.sys.stateAt + 5000 ≤ s.clk.tickCount ∧ i = .dpll0XoLockTimeout ∧ s.reg .SYS_STATUS_START = 2 ∧ s.sys.warm = false ∧ fail = 4) ∨
      (s.sys.startAt + 2000000 ≤ s.clk.tickCount ∧ i = .notReadyTimeout ∧ s.reg .SYS_STATUS_START ≤ 2 ∧ fail = 2) ∨
      (i = .hbmTrainingDone false ∧ s.reg .SYS_STATUS_START = 2 ∧ fail = 3) ∨
      ((∃ c, c < 4 ∧ i = .watchdogExpiry c) ∧ s.reg .SYS_STATUS_START ≤ 2 ∧ fail = 5)) :
    Yields i s (s.failStart fail) := by
  rcases h with ⟨ht, rfl, hs, rfl⟩ | ⟨ht, rfl, hs, hw, rfl⟩ | ⟨ht, rfl, hs, rfl⟩ | ⟨rfl, hs, rfl⟩ | ⟨⟨c, hc, rfl⟩, hs, rfl⟩
  · exact yields_eq (f := doXoDetectTimeout) rfl (if_pos ⟨hs, not_held_eq_true hh, (stateLasted_iff s _).2 ht⟩)
  · exact yields_eq (f := doDpll0XoLockTimeout) rfl
      (if_pos ⟨hs, not_held_eq_true hh, by rw [hw]; rfl, (stateLasted_iff s _).2 ht⟩)
  · exact yields_eq (f := doNotReadyTimeout) rfl (if_pos ⟨starting_of_le hs hh, ht⟩)
  · exact yields_eq (f := doHbmTrainingDone false) rfl (doHbmTrainingDone_fails hs hh)
  · have he := doWatchdogExpiry_starting hc hs hh
    exact yields_reset (f := doWatchdogExpiry c) rfl (by rw [he]; exact failStart_clk s 5) (by rw [he]; exact Agree.refl _)

/-- Settles O23: each row is the branch its state selects, and the bindings are made channel by channel. -/
theorem startRowsComplete : Obligations.StartRowsComplete := by
  unfold Obligations.StartRowsComplete
  refine ⟨?rom, ?fails, ?counted, ?verify, ?trained, ?ready, ?bound, ?retry, ?cleared⟩
  case rom => exact fun s sel a b hs hh => yields_eq (f := doRomDone sel a b) rfl (doRomDone_reads sel a b hs hh)
  case fails => exact fun i s fail hh h => yields_failStart hh h
  case counted => exact fun s fail h => failStart_counts s fail h
  case verify => exact fun s okA okB hs hh => yields_eq (f := doVerifyDone okA okB) rfl (doVerifyDone_boots okA okB hs hh)
  case trained => exact fun s hs hh => yields_eq (f := doHbmTrainingDone true) rfl (doHbmTrainingDone_fills hs hh)
  case ready =>
    exact fun s hs hh hsel hfb hw hen => yields_eq (f := doFirmwareReady) rfl (doFirmwareReady_serves hs hh hsel hfb hw hen)
  case bound =>
    intro s n hn hl hf
    rw [bindStart_eq_foldl]
    exact boundFirst_foldl hn (List.range 12) s ⟨hl, hf⟩ (.inl (List.mem_range.2 hn))
  case retry => exact fun s hs hh hl hc => yields_eq (f := doStartRetry) rfl (doStartRetry_begins hs hh hl hc)
  case cleared =>
    exact fun s hs hl => yields_eq (f := doFailedCountReset) rfl ((if_pos ⟨hs, hl⟩).trans (setCount_eq s (by decide)))

end Machine
end Sys2Proof
end

section
/-!
PROOFS. The rows of seamless protection (R361, R366-R368): the query and the reset of a pair record, the skew probe, the sweep that
ages the records, and the end of a flow's audit.
-/
namespace Sys2Proof
namespace Machine

/-! ### Pair records and the skew probe (R368) -/

/-- The query reads the pair that was just written into PAIR, which holds every pair. -/
theorem doSpeQuery_eq (s : State) {w : Nat} (h : w < 2 ^ 20) :
    doSpeQuery w s = (s.setReg .SPE_QUERY_PAIR 0 w).setRegs
      [(.SPE_QUERY_DONE, 0, 1), (.SPE_RESULT_RECORD, 0, (s.pairRec w).word)] := by
  have hw : (s.setReg .SPE_QUERY_PAIR 0 w).reg .SPE_QUERY_PAIR = w := (State.reg_setReg s _ 0 w).trans (Nat.mod_eq_of_lt h)
  unfold doSpeQuery
  dsimp only
  rw [hw]
  rfl

/-- The reset lines up the pair that was just written into PAIR, which holds every pair. -/
theorem doSpeReset_eq (s : State) {w : Nat} (h : w < 2 ^ 20) :
    doSpeReset w s = (let u := s.setReg .SPE_RESET_PAIR 0 w
      { u with spe := { u.spe with resets := u.spe.resets ++ [w] } }) := by
  have hw : (s.setReg .SPE_RESET_PAIR 0 w).reg .SPE_RESET_PAIR = w := (State.reg_setReg s _ 0 w).trans (Nat.mod_eq_of_lt h)
  unfold doSpeReset
  dsimp only
  rw [hw]

/-- A rising EN starts the measurement afresh: no stamp is held, and the skew registers are 0. -/
theorem doSkewProbe_rises {s : State} (w : Nat) (h : s.reg .SPE_PROBE_EN ≠ 1) :
    doSkewProbe true w s = ({ s.setRegs [(.SPE_PROBE_EN, 0, 1), (.SPE_PROBE_PAIR, 0, w)] with
      spe := { s.spe with probe := [] } } : State).setRegs
        [(.SPE_SKEW_MIN_NS, 0, 0), (.SPE_SKEW_MAX_NS, 0, 0), (.SPE_SKEW_SUM_NS, 0, 0), (.SPE_SKEW_COUNT_COUNT, 0, 0)] := by
  have hoff : s.flag .SPE_PROBE_EN = false := (flag_eq_false s _ 0).2 h
  unfold doSkewProbe
  rw [hoff]
  rfl

/-- An EN that does not rise keeps the measurement. -/
theorem doSkewProbe_keeps {s : State} {en : Bool} (w : Nat) (h : en = false ∨ s.reg .SPE_PROBE_EN = 1) :
    doSkewProbe en w s = s.setRegs [(.SPE_PROBE_EN, 0, b2n en), (.SPE_PROBE_PAIR, 0, w)] := by
  have hstill : (en && !s.flag .SPE_PROBE_EN) = false := by
    rcases h with rfl | h
    · rfl
    · rw [(flag_eq_true s _ 0).2 h]; exact Bool.and_false en
  unfold doSkewProbe
  dsimp only
  rw [hstill, if_neg Bool.false_ne_true]

/-! ### The end of an audit (R366, R367) -/

/-- The audit of unit `u` is over, and the unit takes up what waits for it. -/
def State.auditOver (s : State) (u : Nat) : State :=
  ({ s with spe := { s.spe with audit := tdel u s.spe.audit } } : State).nextOnUnit u

/-- The value of the region at egress, computed by the unit once it has counted its job. -/
def State.egressValue (s : State) (u : Nat) (a : AuditRun) (d : List Nat) : Nat :=
  ((s.auditOver u).jobCounted u 4 (a.bytes + d.length)).chkValue u d

/-- The unit, its job counted, shows the value of the region at egress. -/
def State.egressShown (s : State) (u : Nat) (a : AuditRun) (d : List Nat) : State :=
  ((s.auditOver u).jobCounted u 4 (a.bytes + d.length)).setReg .CHK_UNIT_LAST_VALUE u (s.egressValue u a d)

/-- Counting the job changes only accounts. -/
theorem agree_egressShown (s : State) (u : Nat) (a : AuditRun) (d : List Nat) :
    Agree (s.egressShown u a d) ((s.auditOver u).setReg .CHK_UNIT_LAST_VALUE u (s.egressValue u a d)) :=
  (agree_jobCounted _ _ _ _).setReg _ _ _

/-- A unit without an audit is left alone. -/
theorem doAuditComplete_none {s : State} {u : Nat} (egress : Option (List Nat)) (h : tget none s.spe.audit u = none) :
    doAuditComplete u egress s = s := by
  unfold doAuditComplete
  rw [h]

section
variable {s : State} {u : Nat} {a : AuditRun} (h : tget none s.spe.audit u = some a)
include h

/-- An audit that has seen both sides: the value at egress is shown, counted with its outcome, and reported when it differs. -/
theorem doAuditComplete_judged (d : List Nat) (hr : a.ready = true) (hs : a.sent = true) :
    doAuditComplete u (some d) s =
      if s.egressValue u a d = a.ingress then (s.egressShown u a d).tally 18 8 1 1 0 0 1
      else (((s.egressShown u a d).setReg .SPE_AUDIT_LAST_FLOW 0 a.flow).ev 134
        [(4, a.flow), (2, u), (4, a.ingress), (4, s.egressValue u a d), (4, a.alive)]).tally 18 8 1 2 0 0 1 := by
  unfold doAuditComplete
  rw [h]
  dsimp only
  rw [hr, hs]
  rfl

/-- An egress value equal to the ingress value is left in the unit. -/
theorem agree_doAuditComplete_equal {d : List Nat} (hr : a.ready = true) (hs : a.sent = true)
    (hv : s.egressValue u a d = a.ingress) :
    Agree (doAuditComplete u (some d) s) ((s.auditOver u).setReg .CHK_UNIT_LAST_VALUE u a.ingress) := by
  rw [doAuditComplete_judged h d hr hs, if_pos hv, ← hv]
  exact (agree_tally _ _ _ _ _ _ _ (by decide)).trans (agree_egressShown s u a d)

/-- An egress value that differs is left in the unit, and the flow is named. -/
theorem agree_doAuditComplete_differs {d : List Nat} (hr : a.ready = true) (hs : a.sent = true)
    (hv : s.egressValue u a d ≠ a.ingress) :
    Agree (doAuditComplete u (some d) s)
      (((s.auditOver u).setReg .CHK_UNIT_LAST_VALUE u (s.egressValue u a d)).setReg .SPE_AUDIT_LAST_FLOW 0 a.flow) := by
  rw [doAuditComplete_judged h d hr hs, if_neg hv]
  exact ((agree_tally _ _ _ _ _ _ _ (by decide)).trans (agree_ev _ _ _)).trans ((agree_egressShown s u a d).setReg _ _ _)

/-- An audit that has not reached both sides is only counted. -/
theorem agree_doAuditComplete_incomplete {egress : Option (List Nat)} (hi : egress = none ∨ a.ready = false ∨ a.sent = false) :
    Agree (doAuditComplete u egress s) (s.auditOver u) := by
  have hcounted := (agree_tally ((s.auditOver u).jobCounted u 4 (a.bytes + (egress.getD []).length)) 8 1 3 0 0 1
    (show 18 < 1000 by decide)).trans (agree_jobCounted _ _ _ _)
  unfold doAuditComplete
  rw [h]
  dsimp only
  split
  · next d hboth =>
    obtain ⟨hr, hs⟩ := (Bool.and_eq_true _ _).mp hboth
    simp [hr, hs] at hi
  · exact hcounted

end

/-- Settles O45: each row is the branch its conditions select. -/
theorem seamlessRowsComplete : Obligations.SeamlessRowsComplete := by
  unfold Obligations.SeamlessRowsComplete
  refine ⟨?record, ?probe, ?early, ?sweep, ?noAudit, ?audit⟩
  case record =>
    exact fun s w h => ⟨yields_eq (f := doSpeQuery w) rfl (doSpeQuery_eq s h), yields_eq (f := doSpeReset w) rfl (doSpeReset_eq s h)⟩
  case probe =>
    exact fun s w => ⟨fun h => yields_eq (f := doSkewProbe true w) rfl (doSkewProbe_rises w h),
      fun h => yields_eq (f := doSkewProbe true w) rfl (doSkewProbe_keeps w (.inr h)),
      yields_eq (f := doSkewProbe false w) rfl (doSkewProbe_keeps w (.inl rfl))⟩
  case early => exact fun s h => yields_eq (f := doSpeSweep) rfl (if_pos h)
  case sweep => exact fun s h => yields_eq (f := doSpeSweep) rfl (if_neg (Nat.not_lt.2 h))
  case noAudit =>
    exact fun s u d h => ⟨yields_eq (f := doAuditComplete u (some d)) rfl (doAuditComplete_none _ h),
      yields_eq (f := doAuditComplete u none) rfl (doAuditComplete_none _ h)⟩
  case audit =>
    intro s u a d _ h
    have hrun {egress x} := yields_run (i := .auditComplete u egress) (s := s) (x := x) (f := doAuditComplete u egress) rfl
    exact ⟨fun hr hs hv => hrun (agree_doAuditComplete_equal h hr hs hv),
      fun hr hs hv => hrun (agree_doAuditComplete_differs h hr hs hv),
      fun hi => hrun (agree_doAuditComplete_incomplete h (.inr hi)), hrun (agree_doAuditComplete_incomplete h (.inl rfl))⟩

end Machine
end Sys2Proof
end

section
/-!
PROOFS. A cold reset (R373, R583, R585, R591, R603, R607): the three causes that hold internal reset and the one that begins a
start, each over a state that holds the island of the one before it.
-/
namespace Sys2Proof
namespace Machine

/-! ### What the clearing of a cold reset leaves beside the registers (R585) -/

/-- The state without the queue, the transcript, the count of free values, the registers, the system block and the check units. -/
def State.coldPart (t : State) : State :=
  { t with pending := [], out := [], freeCtr := 0, regs := [], sys := Sys.start, chk := Chk.start }

/-- That part of `t` is as at reset, but for the Cairn block, which is that of `s`. -/
def ColdFrame (t s : State) : Prop := t.coldPart = { State.reset with cairn := s.cairn }

/-- The clearing leaves the frame: the records that waited go back to the check units. -/
theorem coldClear_frame (s : State) : ColdFrame s.coldClear s := congrArg State.coldPart (coldClear_only s).1

/-- The clearing leaves what holds internal reset. -/
theorem coldClear_sys_held (s : State) : s.coldClear.sys.held = s.sys.held := by rw [(coldClear_only s).1]

/-- The begin of a start while its count is below 3 leaves the frame. -/
theorem ColdFrame.beginStart {t s : State} (h : ColdFrame t s) (cause : Nat) (hn : t.reg .SYS_START_REASON_COUNT < 3) :
    ColdFrame (t.beginStart cause) s :=
  (beginStart_keep State.coldPart (fun _ _ _ _ _ => rfl) t cause hn).trans h

/-! ### The registers after a cold reset (R585) -/

/-- The fields that show the check units' queues. -/
def unitStatus : List Fld := [.CHK_UNIT_STATUS_BUSY, .CHK_UNIT_STATUS_CTX, .CHK_UNIT_STATUS_USER, .CHK_UNIT_STATUS_QUEUED]

/-- A field that is cleared is none of the island's, does not show the start, and does not show the check units' queues. -/
theorem resetKeeps_eq_false {f : Fld} (h : resetKeeps f = false) :
    aonField f = false ∧ f ≠ .SYS_STATUS_START ∧ f ∉ unitStatus := by
  unfold resetKeeps at h
  obtain ⟨haon, hf⟩ := Bool.or_eq_false_iff.1 h
  have hf := of_decide_eq_false hf
  rw [List.mem_cons, not_or] at hf
  exact ⟨haon, hf⟩

/-- A field that is cleared is not the cause. -/
theorem ne_cause_of_aonField {f : Fld} (h : aonField f = false) : f ≠ .SYS_START_REASON_CAUSE := by
  rintro rfl; exact absurd h (by decide)

/-- A register that is cleared reads its reset value. -/
theorem coldClear_reg_reset (s : State) {f : Fld} {k : Nat} (hk : k < 8192) (haon : aonField f = false) (hq : f ∉ unitStatus) :
    s.coldClear.reg f k = f.reset k :=
  (coldClear_reg s f k hk hq).trans (if_neg fun hm => by rw [aonField_of_mem hm] at haon; exact absurd haon (by decide))

/-- The failed-start count is the island's. -/
theorem coldClear_count (s : State) : s.coldClear.reg .SYS_START_REASON_COUNT = s.reg .SYS_START_REASON_COUNT :=
  (coldClear_reg s _ 0 (by decide) (by decide)).trans (if_pos (by decide))

/-- Writing 0 to a register that reads 0 changes what no register reads. -/
theorem reg_setReg_zero {s : State} {f : Fld} {i : Nat} (h : s.reg f i = 0) (hi : i < 8192) (g : Fld) {k : Nat} (hk : k < 8192) :
    (s.setReg f i 0).reg g k = s.reg g k := by
  by_cases hg : g = f
  · subst hg
    by_cases hki : k = i
    · subst hki; rw [State.reg_setReg, h, Nat.zero_mod]
    · exact State.reg_setReg_index s g 0 hki
  · exact State.reg_setReg_ne s hg 0 hi hk

/-- The begin of a start after a clearing leaves the cleared registers: READY and PLAYA already read 0. -/
theorem coldClear_beginStart_reg (s : State) (cause : Nat) (hn : s.coldClear.reg .SYS_START_REASON_COUNT < 3) {f : Fld} {k : Nat}
    (hk : k < 8192) (haon : aonField f = false) (hs : f ≠ .SYS_STATUS_START) :
    (s.coldClear.beginStart cause).reg f k = s.coldClear.reg f k := by
  have hready : s.coldClear.reg .SYS_STATUS_READY = 0 := coldClear_reg_reset s (by decide) (by decide) (by decide)
  have hplaya : (s.coldClear.setReg .SYS_STATUS_READY 0 0).reg .SYS_STATUS_PLAYA = 0 :=
    (reg_setReg_zero hready (by decide) _ (by decide)).trans (coldClear_reg_reset s (by decide) (by decide) (by decide))
  have hsw : f ≠ .SYS_START_REASON_SWITCHED := by rintro rfl; exact absurd haon (by decide)
  have hfb : f ≠ .SYS_START_REASON_FALLBACK := by rintro rfl; exact absurd haon (by decide)
  have hshown (u : State) : u.startBegins.showPins.reg f k = u.reg f k := rfl
  rw [beginStart_eq _ cause hn, hshown]
  simp only [State.setRegs, List.foldl]
  rw [State.reg_setReg_ne _ (ne_cause_of_aonField haon) _ (by decide) hk, State.reg_setReg_ne _ hs _ (by decide) hk,
    State.reg_setReg_ne _ hfb _ (by decide) hk, State.reg_setReg_ne _ hsw _ (by decide) hk,
    reg_setReg_zero hplaya (by decide) _ hk, reg_setReg_zero hready (by decide) _ hk]

/-! ### The cold reset -/

/-- What a cold reset of `s` with a cause leaves (R585, R592), and whether it holds internal reset. -/
structure ColdStart (t s : State) (cause : Nat) (hold : Bool) : Prop where
  frame : ColdFrame t s
  count : t.reg .SYS_START_REASON_COUNT = s.reg .SYS_START_REASON_COUNT
  causeShown : t.reg .SYS_START_REASON_CAUSE = cause
  startShown : t.reg .SYS_STATUS_START = 0
  held : t.sys.held = hold
  cleared : ∀ f k, resetKeeps f = false → k < 8192 → t.reg f k = f.reset k

/-- What is left depends on the island before and on nothing else. -/
theorem ColdStart.of_island {t u s : State} {cause : Nat} {hold : Bool} (h : ColdStart t u cause hold)
    (hregs : u.regs = s.regs) (hcairn : u.cairn = s.cairn) : ColdStart t s cause hold :=
  { h with
    frame := h.frame.trans (by rw [hcairn])
    count := h.count.trans (State.reg_of_regs hregs _ _) }

/-- A cold reset that holds internal reset shows its cause. -/
theorem coldReset_holds (s : State) {cause : Nat} (hc : cause < 256) : ColdStart (s.coldReset cause true) s cause true := by
  have hreg (f : Fld) (k : Nat) :
      (s.coldReset cause true).reg f k = (s.coldClear.setReg .SYS_START_REASON_CAUSE 0 cause).reg f k := rfl
  have hother {f : Fld} {k : Nat} (hf : f ≠ .SYS_START_REASON_CAUSE) (hk : k < 8192) :
      (s.coldReset cause true).reg f k = s.coldClear.reg f k :=
    (hreg f k).trans (State.reg_setReg_ne _ hf _ (by decide) hk)
  exact
    { frame := coldClear_frame s
      count := (hother (by decide) (by decide)).trans (coldClear_count s)
      causeShown := (hreg _ _).trans ((State.reg_setReg _ _ _ _).trans (Nat.mod_eq_of_lt hc))
      startShown := (hother (by decide) (by decide)).trans (coldClear_reg_reset s (by decide) (by decide) (by decide))
      held := rfl
      cleared := fun f k hf hk => by
        obtain ⟨haon, _, hq⟩ := resetKeeps_eq_false hf
        exact (hother (ne_cause_of_aonField haon) hk).trans (coldClear_reg_reset s hk haon hq) }

/-- A cold reset that does not hold internal reset begins a start in ROM. -/
theorem coldReset_begins (s : State) {cause : Nat} (hc : cause < 256) (hh : s.sys.held = false)
    (hn : s.reg .SYS_START_REASON_COUNT < 3) : ColdStart (s.coldReset cause false) s cause false := by
  have hcount : s.coldClear.reg .SYS_START_REASON_COUNT < 3 := (coldClear_count s).trans_lt hn
  have hstart := beginStart_start s.coldClear cause hc hcount
  have hreset : s.coldReset cause false = s.coldClear.beginStart cause := rfl
  rw [hreset]
  exact
    { frame := (coldClear_frame s).beginStart cause hcount
      count := (beginStart_reg _ cause hcount _ 0 (by decide) (by decide)).trans (coldClear_count s)
      causeShown := hstart.2.1
      startShown := hstart.1
      held := (beginStart_keep (fun t => t.sys.held) (fun _ _ _ _ _ => rfl) _ cause hcount).trans ((coldClear_sys_held s).trans hh)
      cleared := fun f k hf hk => by
        obtain ⟨haon, hs, hq⟩ := resetKeeps_eq_false hf
        exact (coldClear_beginStart_reg s cause hcount hk haon hs).trans (coldClear_reg_reset s hk haon hq) }

/-- The clock that a reset row answers with, when its work starts time anew. -/
theorem runReset_start {f : State → State} {s : State} (h : (f s).clk = Clock.start) :
    runReset f s = .next { f s with pending := s.pending } := by
  have hclk : (if (f s).clk = s.clk then s.clk else Clock.start) = (f s).clk := by
    split
    · next he => exact he.symm
    · exact h.symm
  unfold runReset
  dsimp only
  rw [hclk]

/-- The four causes of a cold reset. -/
theorem exec_coldReset {i : Instr} {s : State} {cause : Nat}
    (h : (i = .railFault ∧ cause = 1) ∨ (i = .resetPin ∧ cause = 2) ∨
      ((∃ n, n < 16 ∧ 1000 < tget 0 s.sys.hot n) ∧ i = .thermalTrip ∧ cause = 6) ∨
      (∃ who, i = .sysResetCold who ∧ (who = 0 ∨ who = 16 ∨ who = 21) ∧ s.sys.held = false ∧
        s.reg .SYS_START_REASON_COUNT < 3 ∧ cause = 3)) :
    ∃ f, exec i s = runReset f s ∧ ColdStart (f s) s cause (decide (cause ≠ 3)) := by
  rcases h with ⟨rfl, rfl⟩ | ⟨rfl, rfl⟩ | ⟨⟨n, hn, hot⟩, rfl, rfl⟩ | ⟨who, rfl, hw, hh, hn, rfl⟩
  · exact ⟨doRailFault, rfl, (coldReset_holds _ (by decide)).of_island rfl rfl⟩
  · exact ⟨doResetPin, rfl, (coldReset_holds _ (by decide)).of_island rfl rfl⟩
  · have htrip : s.tooHot = true := List.any_eq_true.2 ⟨n, List.mem_range.2 hn, decide_eq_true hot⟩
    refine ⟨doThermalTrip, rfl, ?_⟩
    unfold doThermalTrip
    rw [if_pos htrip]
    exact (coldReset_holds _ (by decide)).of_island rfl rfl
  · have hmay : startWriter who = true := by rcases hw with rfl | rfl | rfl <;> decide
    refine ⟨doSysResetCold who, rfl, ?_⟩
    unfold doSysResetCold
    rw [hmay, hh, if_neg (by decide), if_neg (by decide)]
    exact coldReset_begins s (by decide) hh hn

/-- Settles O20: each cause clears everything but the island, and then holds internal reset or begins a start. -/
theorem coldResetClears : Obligations.ColdResetClears := by
  unfold Obligations.ColdResetClears
  intro i s cause hi
  obtain ⟨f, he, h⟩ := exec_coldReset hi
  have hf := h.frame
  have hclk : (f s).clk = Clock.start := congrArg State.clk hf
  have hcairn : (f s).cairn = s.cairn := by have h := congrArg State.cairn hf; exact h
  have hblocks : (f s).coldPart.blocksStart := by
    rw [hf]; exact ⟨rfl, rfl, rfl, rfl, rfl, rfl, rfl, rfl, rfl, rfl, rfl, rfl, rfl, rfl⟩
  exact ⟨_, he.trans (runReset_start hclk), rfl, hclk, hblocks, congrArg State.pend hf, congrArg State.hst hf, congrArg State.tme hf,
    congrArg State.ref hf, congrArg State.outp hf, congrArg State.evAcc hf, hcairn, h.count, h.causeShown, h.startShown, h.held,
    h.cleared⟩

end Machine
end Sys2Proof
end

section
/-!
PROOFS. What the time engine does by itself (R378, R384, R398, R399, R402): the end of a slew, the watch of the servo, the ageing
of the two-step table, and the edges that the TIO pins show and take in.
-/
namespace Sys2Proof
namespace Machine

/-! ### The slew and the servo's watch (R378, R384) -/

/-- With no remainder left, SLEWING clears. -/
theorem agree_doSlewDone {s : State} (hl : s.tme.slewLeft = 0) (hs : s.reg .TME_STATUS_SLEWING = 1) :
    Agree (doSlewDone s) (s.setReg .TME_STATUS_SLEWING 0 0) := by
  unfold doSlewDone
  rw [if_pos ⟨hl, (flag_eq_true s _ 0).2 hs⟩]
  exact agree_ev _ _ _

/-- A value that the owner has not written for TIMEOUT ticks loses VALID. -/
theorem agree_doServoTimeout {s : State} (hv : s.reg .TME_SERVO_CTRL_VALID = 1) (ht : s.reg .TME_SERVO_CTRL_TIMEOUT ≠ 0)
    (hd : s.reg .TME_SERVO_CTRL_TIMEOUT ≤ s.clk.tickCount - s.tme.servoAt) :
    Agree (doServoTimeout s) (s.setReg .TME_SERVO_CTRL_VALID 0 0) := by
  unfold doServoTimeout
  dsimp only
  rw [if_pos ⟨(flag_eq_true s _ 0).2 hv, ht, hd⟩]
  exact agree_ev _ _ _

/-- A younger value keeps it. -/
theorem doServoTimeout_young {s : State} (h : s.clk.tickCount - s.tme.servoAt < s.reg .TME_SERVO_CTRL_TIMEOUT) :
    doServoTimeout s = s :=
  if_neg fun ⟨_, _, hd⟩ => Nat.not_le.2 h hd

/-! ### Edges of a pulse train (R399) -/

/-- The time that a pin shows, in grains: TAI moved by the delay of its ball. -/
def State.pinNow (s : State) (n : Nat) : Int := s.grains + sgn 16 (s.reg .TME_TIO_DLY_PS n) * 65536 / 1000

/-- Pins hold no register. -/
theorem reg_setTio (s : State) (n : Nat) (x : Tio) (f : Fld) (i : Nat) : (s.setTio n x).reg f i = s.reg f i := rfl

section
variable {s : State} {n : Nat} (hc : s.reg .OUT_TIO_CFG_SHARED n ≠ 1)
include hc

/-- The claim gates no pin that is not shared. -/
theorem not_gated (x : Tio) :
    ¬((s.setTio n x).flag .OUT_TIO_CFG_SHARED n = true ∧ (!(s.setTio n x).flag .OUT_TIO_STATUS_GATE n) = true) :=
  fun ⟨h, _⟩ => hc ((flag_eq_true (s.setTio n x) _ n).1 h)

/-- The falling edge that is due takes the pin low. -/
theorem agree_doTioPulseEdge_falls (hu : (s.tio n).highUntil ≠ 0) (hd : ((s.tio n).highUntil : Int) ≤ s.pinNow n + 32768) :
    Agree (doTioPulseEdge n s) ((s.setTio n { s.tio n with highUntil := 0 }).emit (.pin 2 n 0)) := by
  unfold doTioPulseEdge
  dsimp only
  rw [if_pos hu, if_pos (by exact hd), if_neg (not_gated hc _)]
  exact agree_tally _ _ _ _ _ _ _ (by decide)

/-- The rising edge within its lead takes the pin high, and the falling edge comes WIDTH later. -/
theorem agree_doTioPulseEdge_rises {x : TioSet} (hu : (s.tio n).highUntil = 0) (ht : (s.tio n).train = some x)
    (hd : (tioEdge x (s.tio n).after : Int) ≤ s.pinNow n + 262144) :
    Agree (doTioPulseEdge n s)
      ((s.setTio n { s.tio n with
        after := tioEdge x (s.tio n).after + 1, highUntil := tioEdge x (s.tio n).after + x.width * 65536 }).emit (.pin 2 n 1)) := by
  have hlead : (tioEdge x (s.tio n).after : Int) ≤ s.pinNow n + 131072 + 2 * 65536 := by omega
  unfold doTioPulseEdge
  dsimp only
  rw [if_neg (not_not_intro hu), ht]
  dsimp only
  rw [if_pos (by exact hlead), if_neg (not_gated hc _)]
  exact agree_tally _ _ _ _ _ _ _ (by decide)

end

/-! ### Input edges (R402) -/

/-- The mode of pin `n` stamps an edge of this direction: 2 rising edges, 3 falling edges, 4 both. -/
def State.stampsEdge (s : State) (n : Nat) (rising : Bool) : Bool :=
  (s.reg .TME_TIO_MODE_MODE n == 2 && rising) || (s.reg .TME_TIO_MODE_MODE n == 3 && !rising) || s.reg .TME_TIO_MODE_MODE n == 4

/-- The stamp of an edge at grain `g`: the time of the ball, in grains. -/
def State.edgeStamp (s : State) (n g : Nat) : Nat := ((g : Int) + sgn 16 (s.reg .TME_TIO_DLY_PS n) * 65536 / 1000).toNat

/-- An edge that the mode does not stamp is nothing to the pin. -/
theorem doTioInputEdge_unstamped {s : State} {n : Nat} {rising : Bool} (g : Nat) (h : s.stampsEdge n rising = false) :
    doTioInputEdge n rising g s = s := by
  unfold State.stampsEdge at h
  unfold doTioInputEdge
  dsimp only
  rw [h]
  rfl

/-- An edge that the mode stamps, 100 ns or more after the last one, is kept and shown to C1 while the FIFO has room. -/
theorem agree_doTioInputEdge_stamped {s : State} {n g : Nat} {rising : Bool} (h : s.stampsEdge n rising = true)
    (hl : (s.tio n).last = 0 ∨ (s.tio n).last + 100 * 65536 ≤ s.edgeStamp n g + 1) :
    Agree (doTioInputEdge n rising g s)
      (if 16 ≤ (s.tio n).fifo.length then s
       else (s.setTio n { s.tio n with
         fifo := (s.tio n).fifo ++ [(rising, s.edgeStamp n g)], last := s.edgeStamp n g + 1 }).tioToC1) := by
  have hspan : ¬((s.tio n).last ≠ 0 ∧ s.edgeStamp n g + 1 < (s.tio n).last + 100 * 65536) :=
    fun ⟨h0, hs⟩ => hl.elim h0 (Nat.not_le.2 hs)
  unfold State.stampsEdge at h
  unfold doTioInputEdge
  dsimp only
  rw [h, if_neg (by decide), if_neg (by exact hspan)]
  refine Agree.ite (fun _ => ?full) fun _ => ?room
  case full => exact (agree_tally _ _ _ _ _ _ _ (by decide)).trans (agree_evT _ _ _)
  case room => exact agree_tally _ _ _ _ _ _ _ (by decide)

/-- The modes that stamp an edge. -/
theorem stampsEdge_of {s : State} {n : Nat} {rising : Bool}
    (h : s.reg .TME_TIO_MODE_MODE n = 4 ∨ (s.reg .TME_TIO_MODE_MODE n = 2 ∧ rising = true) ∨
      (s.reg .TME_TIO_MODE_MODE n = 3 ∧ rising = false)) : s.stampsEdge n rising = true := by
  unfold State.stampsEdge
  rcases h with h | ⟨h, rfl⟩ | ⟨h, rfl⟩ <;> rw [h] <;> simp

/-- The modes that do not. -/
theorem not_stampsEdge_of {s : State} {n : Nat} {rising : Bool}
    (h : s.reg .TME_TIO_MODE_MODE n < 2 ∨ (s.reg .TME_TIO_MODE_MODE n = 2 ∧ rising = false) ∨
      (s.reg .TME_TIO_MODE_MODE n = 3 ∧ rising = true)) : s.stampsEdge n rising = false := by
  unfold State.stampsEdge
  rcases h with h | ⟨h, rfl⟩ | ⟨h, rfl⟩
  · have hm (m : Nat) (hm : 2 ≤ m) : (s.reg .TME_TIO_MODE_MODE n == m) = false := beq_false_of_ne (by omega)
    rw [hm 2 (by decide), hm 3 (by decide), hm 4 (by decide)]
    rfl
  · rw [h]; rfl
  · rw [h]; rfl

/-- Settles O28: each row is the branch its conditions select. -/
theorem timeEngineEventsComplete : Obligations.TimeEngineEventsComplete := by
  unfold Obligations.TimeEngineEventsComplete
  refine ⟨?slewDone, ?slewing, ?timeout, ?young, ?age, ?falls, ?rises, ?stamped, ?unstamped⟩
  case slewDone => exact fun s hl hs => yields_run (f := doSlewDone) rfl (agree_doSlewDone hl hs)
  case slewing => exact fun s hl => yields_eq (f := doSlewDone) rfl (if_neg fun h => hl h.1)
  case timeout => exact fun s hv ht hd => yields_run (f := doServoTimeout) rfl (agree_doServoTimeout hv ht hd)
  case young => exact fun s h => yields_eq (f := doServoTimeout) rfl (doServoTimeout_young h)
  case age => exact fun s => yields_eq (f := doTwostepEntryAge) rfl rfl
  case falls => exact fun s n hu hd hc => yields_run (f := doTioPulseEdge n) rfl (agree_doTioPulseEdge_falls hc hu hd)
  case rises => exact fun s n x hu ht hd hc => yields_run (f := doTioPulseEdge n) rfl (agree_doTioPulseEdge_rises hc hu ht hd)
  case stamped =>
    exact fun s n g rising hm hl =>
      yields_run (f := doTioInputEdge n rising g) rfl (agree_doTioInputEdge_stamped (stampsEdge_of hm) hl)
  case unstamped =>
    exact fun s n g rising hm => yields_eq (f := doTioInputEdge n rising g) rfl (doTioInputEdge_unstamped g (not_stampsEdge_of hm))

end Machine
end Sys2Proof
end

section
/-!
PROOFS. Seif and the interval meter (R407-R412, R418-R428): a beat, the end of a window and the loss of a direction; and what the
rows of the interval meter do in a set, between sets and in a calibration.
-/
namespace Sys2Proof
namespace Machine

/-! ### The tracker reads no account -/

theorem Agree.seifState {t x : State} (h : Agree t x) {p : Nat} (hp : p < 8192) (d : Nat) : t.seifState p d = x.seifState p d := by
  unfold State.seifState
  rw [h.reg rfl hp, h.reg rfl hp]

theorem Agree.seifDir {t x : State} (h : Agree t x) (p d : Nat) : t.seifDir p d = x.seifDir p d := by
  unfold State.seifDir
  rw [h.seif]

theorem Agree.setSeifDir {t x : State} (h : Agree t x) (p d : Nat) (y : SeifDir) : Agree (t.setSeifDir p d y) (x.setSeifDir p d y) := by
  unfold State.setSeifDir
  rw [h.seif]
  exact h.setSeif _

theorem Agree.seifValid {t x : State} (h : Agree t x) {p : Nat} (hp : p < 8192) : Agree (t.seifValid p) (x.seifValid p) := by
  have hgood (d : Nat) : t.seifGood p d = x.seifGood p d := by
    unfold State.seifGood
    rw [h.seifState hp, h.seifDir]
  unfold State.seifValid
  rw [hgood, hgood]
  exact h.setReg _ _ _

/-! ### Beats (R407, R410) -/

/-- The sample of a beat in 2^-8 ps, within half a TIME cycle of the one before it. -/
def SeifDir.sampleAfter (x : SeifDir) (k : Nat) : Int :=
  let y : Int := (125 * (k % 4096) : Nat)
  match x.samples with | [] => y | z :: _ => z + phaseDiff y z

/-- What a sample does in ACQUIRE: it is the phase, it joins the window's samples, and the direction gives stamps. -/
def State.seifSampled (s : State) (p d k : Nat) : State :=
  let x := s.seifDir p d
  ((s.setSeifDir p d { x with
    missed := 0, samples := (x.sampleAfter k :: x.samples).take s.windowBeats, beats := x.beats + 1, beat := true
    at_ := s.grains }).setReg (phaseReg d) p (125 * (k % 4096))).seifValid p

theorem Agree.seifSampled {t x : State} (h : Agree t x) {p : Nat} (hp : p < 8192) (d k : Nat) :
    Agree (t.seifSampled p d k) (x.seifSampled p d k) := by
  unfold State.seifSampled State.windowBeats State.grains
  rw [h.seifDir, h.reg rfl (by decide), h.clk]
  exact ((h.setSeifDir _ _ _).setReg _ _ _).seifValid hp

/-- In ACQUIRE a beat with a sample takes it; the count of the beat is an account. -/
theorem agree_doSeifBeat_acquire {s : State} {p d : Nat} (k : Nat) (hp : p < 8192) (h : s.seifState p d = 1) :
    Agree (doSeifBeat p d (some k) s) (s.seifSampled p d k) := by
  have hcount : Agree (s.tally1 6 1 p) s := agree_tally1 s 1 p (by decide)
  have hstate : (s.tally1 6 1 p).seifState p d = 1 := (hcount.seifState hp d).trans h
  have htakes : doSeifBeat p d (some k) s = (s.tally1 6 1 p).seifSampled p d k := by
    unfold doSeifBeat
    dsimp only
    generalize s.tally1 6 1 p = u at hstate ⊢
    rw [if_neg (by rw [hstate]; decide), hstate]
    rfl
  rw [htakes]
  exact hcount.seifSampled hp d k

/-- Outside REMEASURE a beat without an image-clock edge is counted, and the window begins anew. -/
theorem agree_doSeifBeat_missed {s : State} {p d : Nat} (hp : p < 8192) (h : s.seifState p d ≠ 4) :
    Agree (doSeifBeat p d none s) (s.setSeifDir p d { s.seifDir p d with
      missed := (s.seifDir p d).missed + 1, samples := [], beats := (s.seifDir p d).beats + 1 }) := by
  have hcount : Agree (s.tally1 6 1 p) s := agree_tally1 s 1 p (by decide)
  unfold doSeifBeat
  dsimp only
  rw [hcount.seifState hp, if_neg fun hr => h hr.1, hcount.seifDir]
  exact hcount.setSeifDir _ _ _

/-! ### Windows and the loss of a direction (R408, R412) -/

/-- The cause that SEIF_LOST names: a window of the tick beyond 200 ppm, or no image-clock edge for 4 beats. -/
def State.lossMet (s : State) (p d : Nat) (freq : Bool) : Bool :=
  if freq then s.seif.due.any fun x => x.1 == 2 * p + d && beyond200 x.2.2.freq else decide (4 ≤ (s.seifDir p d).missed)

/-- A window of the direction beyond 200 ppm is the cause named by `freq`. -/
theorem lossMet_freq {s : State} {p d : Nat} (h : ∃ x ∈ s.seif.due, x.1 = 2 * p + d ∧ 200000 * 256 < x.2.2.freq.natAbs) :
    s.lossMet p d true = true := by
  obtain ⟨x, hx, hk, hf⟩ := h
  exact List.any_eq_true.2 ⟨x, hx, Bool.and_eq_true_iff.2 ⟨beq_iff_eq.2 hk, decide_eq_true hf⟩⟩

section
variable {s : State} {p d : Nat} (hp : p < 256) (hd : d < 2) (h1 : 1 ≤ s.seifState p d) (h4 : s.seifState p d ≤ 4)
include hp hd h1 h4

/-- A whole window is fitted and waits for the boundary with the instant of its end. -/
theorem doSeifWindowEnd_whole (back : Nat) (h : s.windowBeats ≤ (s.seifDir p d).samples.length) :
    doSeifWindowEnd p d back s =
      (let x := s.seifDir p d
       let o := s.seifDir p (1 - d)
       let u := s.setSeifDir p d { x with samples := [], last := x.samples }
       ({ u with seif := { u.seif with due := u.seif.due ++
         [(2 * p + d, s.grains - back, seifFit x.samples (o.samples ++ o.last) (Config.freeSlope s.freeCtr))] } } : State).fresh) := by
  unfold doSeifWindowEnd
  exact if_neg (by omega)

/-- A direction whose cause is met enters LOST and gives no stamps. -/
theorem agree_doSeifLost_met {freq : Bool} (h : s.lossMet p d freq = true) :
    Agree (doSeifLost p d freq s) ((s.setSeifState p d 5).seifValid p) := by
  have hlost : doSeifLost p d freq s = s.seifLost p d freq := by
    unfold State.lossMet at h
    unfold doSeifLost
    dsimp only
    rw [h, if_neg (by simp only [Bool.not_true, Bool.false_eq_true, or_false]; omega)]
  rw [hlost]
  exact agree_ev _ _ _

end

/-- Fewer samples than a window has are no window. -/
theorem doSeifWindowEnd_short {s : State} {p d : Nat} (back : Nat) (h : (s.seifDir p d).samples.length < s.windowBeats) :
    doSeifWindowEnd p d back s = s :=
  if_pos (.inr (.inr (.inr (.inr h))))

/-- Without the cause that the row names the direction stays. -/
theorem doSeifLost_unmet {s : State} {p d : Nat} {freq : Bool} (h : s.lossMet p d freq = false) : doSeifLost p d freq s = s := by
  unfold State.lossMet at h
  unfold doSeifLost
  dsimp only
  rw [h]
  exact if_pos (.inr (.inr (.inr (.inr rfl))))

/-! ### GO, STOP and the start of a calibration (R421, R424, R428) -/

theorem itmBusy_iff (s : State) : s.itmBusy = true ↔ s.reg .SEIF_ITM_STATUS_BUSY = 1 := flag_eq_true s _ 0
theorem itmCal_iff (s : State) : s.itmCal = true ↔ s.reg .SEIF_ITM_STATUS_CAL_BUSY = 1 := flag_eq_true s _ 0

theorem not_itmBusy {s : State} (h : s.reg .SEIF_ITM_STATUS_BUSY = 0) : ¬s.itmBusy = true := by
  rw [itmBusy_iff, h]; decide
theorem not_itmCal {s : State} (h : s.reg .SEIF_ITM_STATUS_CAL_BUSY = 0) : ¬s.itmCal = true := by
  rw [itmCal_iff, h]; decide

/-- CONT is neither BUSY nor CAL_BUSY. -/
theorem itmBusy_setCont (s : State) (v : Nat) : (s.setReg .SEIF_ITM_CTRL_CONT 0 v).itmBusy = s.itmBusy := by
  unfold State.itmBusy State.flag
  rw [State.reg_setReg_ne s (by decide) v (by decide) (by decide)]
theorem itmCal_setCont (s : State) (v : Nat) : (s.setReg .SEIF_ITM_CTRL_CONT 0 v).itmCal = s.itmCal := by
  unfold State.itmCal State.flag
  rw [State.reg_setReg_ne s (by decide) v (by decide) (by decide)]

/-- GO takes CONT; it waits for a calibration, and else starts a set unless one runs. -/
theorem doItmGo_eq (s : State) (cont : Bool) :
    doItmGo cont s =
      (let u := s.setReg .SEIF_ITM_CTRL_CONT 0 (b2n cont)
       if s.itmCal then u.setItm { s.seif.itm with goDue := true } else if s.itmBusy then u else u.itmStart) := by
  unfold doItmGo
  dsimp only
  rw [itmCal_setCont, itmBusy_setCont, State.setReg_seif]

/-- STOP takes CONT, and ends the running set STOPPED. -/
theorem doItmStop_eq (s : State) (cont : Bool) :
    doItmStop cont s =
      (let u := s.setReg .SEIF_ITM_CTRL_CONT 0 (b2n cont)
       if s.itmBusy then u.itmEnd 3 else u) := by
  unfold doItmStop
  dsimp only
  rw [itmBusy_setCont]

/-! ### Edges (R420-R422) -/

/-- Without a set, or from another source, an edge is no start. -/
theorem doItmStartEdge_other {s : State} (c tap : Nat) {src : Nat} (h : s.reg .SEIF_ITM_STATUS_BUSY = 0 ∨ src ≠ s.itmStartSrc) :
    doItmStartEdge c tap src s = s :=
  if_pos (h.imp (fun h0 => by rw [Bool.eq_false_of_not_eq_true (not_itmBusy h0)]; rfl) id)

/-- Without a set, or from another source, an edge is no stop. -/
theorem doItmStopEdge_other {s : State} (c tap : Nat) {src : Nat} (h : s.reg .SEIF_ITM_STATUS_BUSY = 0 ∨ src ≠ s.itmStopSrc) :
    doItmStopEdge c tap src s = s :=
  if_pos (h.imp (fun h0 => by rw [Bool.eq_false_of_not_eq_true (not_itmBusy h0)]; rfl) id)

section
variable {s : State} (c tap : Nat) (hb : s.itmBusy = true)
include hb

/-- During a set an edge of the source is taken. -/
theorem edgeTaken (src : Nat) : ¬((!s.itmBusy) = true ∨ src ≠ src) := by
  rw [hb]; simp

/-- A start edge within WIN of the held stop completes a reversed interval. -/
theorem doItmStartEdge_reversed {e : Nat × Nat × Int} (hs : s.seif.itm.stop = some e)
    (hw : s.itmTime c tap - e.2.2 ≤ nsPs8 (s.reg .SEIF_ITM_WIN_NS)) :
    doItmStartEdge c tap s.itmStartSrc s = s.itmInterval (c, tap, s.itmTime c tap) e true := by
  unfold doItmStartEdge
  dsimp only
  rw [if_neg (edgeTaken hb _), hs]
  exact if_pos hw

/-- A start edge with neither a stop held nor a start pending becomes the pending start. -/
theorem doItmStartEdge_pends (hs : s.seif.itm.stop = none) (hn : s.seif.itm.start = none) :
    doItmStartEdge c tap s.itmStartSrc s = s.itmPend (c, tap, s.itmTime c tap) := by
  unfold doItmStartEdge
  dsimp only
  rw [if_neg (edgeTaken hb _), hs, hn]
  exact if_pos hb

/-- A stop edge within TIMEOUT of the pending start completes an interval. -/
theorem doItmStopEdge_completes {e : Nat × Nat × Int} (hs : s.seif.itm.start = some e)
    (ht : s.itmTime c tap - e.2.2 ≤ nsPs8 (s.reg .SEIF_ITM_TIMEOUT_NS)) :
    doItmStopEdge c tap s.itmStopSrc s = s.itmInterval e (c, tap, s.itmTime c tap) false := by
  unfold doItmStopEdge
  dsimp only
  rw [if_neg (edgeTaken hb _), hs]
  exact if_pos ht

/-- A stop edge with neither a stop held nor a start pending is held. -/
theorem doItmStopEdge_holds (hs : s.seif.itm.stop = none) (hn : s.seif.itm.start = none) :
    doItmStopEdge c tap s.itmStopSrc s = s.itmHold (c, tap, s.itmTime c tap) := by
  unfold doItmStopEdge
  dsimp only
  rw [if_neg (edgeTaken hb _), hn, hs]
  rfl

/-! ### WIN and TIMEOUT by the XO (R421) -/

/-- A held stop older than WIN is dropped and counted. -/
theorem agree_doItmWinExpiry_due (hs : s.seif.itm.stop ≠ none)
    (hd : s.seif.itm.stopAt + nsXo (s.reg .SEIF_ITM_WIN_NS) < s.xoNow) :
    Agree (doItmWinExpiry s) (s.setItm { s.seif.itm with stop := none, ignored := s.seif.itm.ignored + 1 }) := by
  unfold doItmWinExpiry
  rw [if_pos ⟨hb, Option.isSome_iff_ne_none.2 hs, hd⟩]
  exact agree_tally _ _ _ _ _ _ _ (by decide)

/-- A pending start older than TIMEOUT is counted, and the fourth in a row ends the set FAILED. -/
theorem agree_doItmTimeout_due (hs : s.seif.itm.start ≠ none)
    (hd : s.seif.itm.startAt + nsXo (s.reg .SEIF_ITM_TIMEOUT_NS) < s.xoNow) :
    Agree (doItmTimeout s)
      (let u := s.setItm { s.seif.itm with
         start := none, timeouts := s.seif.itm.timeouts + 1, consec := s.seif.itm.consec + 1 }
       if 3 ≤ s.seif.itm.consec then u.itmEnd 2 else u) := by
  have hcounts (u : State) (l : List (Nat × Nat × Mg)) : Agree ((u.evT 167 l).tally 6 6 1 3 0 0 1) u :=
    (agree_tally _ _ _ _ _ _ _ (by decide)).trans (agree_evT _ _ _)
  have hfourth : 4 ≤ s.seif.itm.consec + 1 ↔ 3 ≤ s.seif.itm.consec := by omega
  unfold doItmTimeout State.itmTimeout
  rw [if_pos ⟨hb, Option.isSome_iff_ne_none.2 hs, hd⟩]
  dsimp only
  simp only [hfourth]
  exact Agree.ite (fun _ => agree_itmEnd (hcounts _ _) 2) fun _ => hcounts _ _

end

/-- A held stop of at most WIN stays. -/
theorem doItmWinExpiry_early {s : State} (h : s.xoNow ≤ s.seif.itm.stopAt + nsXo (s.reg .SEIF_ITM_WIN_NS)) : doItmWinExpiry s = s :=
  if_neg fun ⟨_, _, hd⟩ => Nat.not_lt.2 h hd

/-- A pending start of at most TIMEOUT stays. -/
theorem doItmTimeout_early {s : State} (h : s.xoNow ≤ s.seif.itm.startAt + nsXo (s.reg .SEIF_ITM_TIMEOUT_NS)) : doItmTimeout s = s :=
  if_neg fun ⟨_, _, hd⟩ => Nat.not_lt.2 h hd

/-! ### The end of a calibration (R419, R424) -/

/-- A calibration that ends with nothing waiting keeps the hits of the taps, and shows its residual and temperature. -/
theorem agree_doItmCalDone {s : State} (y : ItmCal) (temp : Int) (hc : s.itmCal = true) (hd : s.seif.itm.calDue = none)
    (hg : s.seif.itm.goDue = false) :
    Agree (doItmCalDone y temp s)
      (((({ s with seif := { s.seif with taps := y.hits } } : State).setRegs [(.SEIF_ITM_STATUS_CAL_BUSY, 0, 0),
        (.SEIF_ITM_CAL_RESID, 0, itmResidual y.refs), (.SEIF_ITM_CAL_TEMP, 0, unsgn 15 temp)]).calMark 2 0
        temp).setItm { s.seif.itm with goDue := false, calDue := none }) := by
  have hcounts (u : State) (l : List (Nat × Nat)) : Agree ((u.ev 168 l).tally1 6 8 0) u :=
    (agree_tally1 _ _ _ (by decide)).trans (agree_ev _ _ _)
  unfold doItmCalDone
  dsimp only
  rw [hc, if_neg (by decide), hd, hg]
  exact agree_setItm (hcounts _ _) _

/-! ### Intervals (R418, R423) -/

/-- The interval between a start and a stop before its correction: each end less the path of its source. -/
def State.itmRaw (s : State) (a b : Nat × Nat × Int) : Int :=
  (b.2.2 - Config.itmPath (s.reg .SEIF_ITM_SRC_STOP_SRC)) - (a.2.2 - Config.itmPath (s.reg .SEIF_ITM_SRC_START))

/-- The meter after an interval of value `v` whose ends lie in different taps. -/
def itmJoined (x : Itm) (v : Int) (reversed : Bool) : Itm :=
  { x with
    start := none, stop := none, n := x.n + 1, sum := x.sum + v, sq := x.sq + (v * v).toNat
    min := if x.n = 0 then v else min x.min v
    max := if x.n = 0 then v else max x.max v
    reversed := x.reversed + b2n reversed, consec := 0 }

/-- An interval that is not the set's last joins it and is shown as LAST. -/
theorem agree_itmInterval_joins {s : State} {a b : Nat × Nat × Int} (reversed : Bool) (hab : a.1 ≠ b.1 ∨ a.2.1 ≠ b.2.1)
    (hn : s.seif.itm.n + 1 < s.reg .SEIF_ITM_N_N) :
    Agree (s.itmInterval a b reversed)
      ((s.setItm (itmJoined s.seif.itm (s.itmResult (s.itmRaw a b)) reversed)).setReg .SEIF_ITM_LAST_LAST 0
        (unsgn 64 (s.itmResult (s.itmRaw a b)))) := by
  have hunder : (a.1 == b.1 && a.2.1 == b.2.1) = false := by
    rw [Bool.and_eq_false_iff, beq_eq_false_iff_ne, beq_eq_false_iff_ne]; exact hab
  have hcounts (u : State) : Agree (if reversed then u.tally 6 6 1 2 0 0 1 else u) u := by
    split
    · exact agree_tally _ _ _ _ _ _ _ (by decide)
    · exact Agree.refl u
  have hlast (x : Itm) (v : Nat) : ((s.setItm x).setReg .SEIF_ITM_LAST_LAST 0 v).reg .SEIF_ITM_N_N = s.reg .SEIF_ITM_N_N :=
    State.reg_setReg_ne _ (by decide) v (by decide) (by decide)
  unfold State.itmInterval
  dsimp only
  simp only [hunder, Bool.false_eq_true, if_false]
  rw [(hcounts _).reg rfl (by decide), hlast, if_neg (Nat.not_le.2 hn)]
  exact hcounts _

/-- Settles O31: each row is the branch its conditions select. -/
theorem seifRowsComplete : Obligations.SeifRowsComplete := by
  unfold Obligations.SeifRowsComplete
  refine ⟨?sample, ?missed, ?window, ?go, ?goWaits, ?stop, ?noStop, ?cal, ?calWaits, ?edges, ?others, ?calDone, ?interval⟩
  case sample =>
    exact fun s p d k hp _ h => yields_run (f := doSeifBeat p d (some k)) rfl (agree_doSeifBeat_acquire k (hp.trans (by decide)) h)
  case missed =>
    exact fun s p d hp _ h => yields_run (f := doSeifBeat p d none) rfl (agree_doSeifBeat_missed (hp.trans (by decide)) h)
  case window =>
    intro s p d back hp hd h1 h4
    exact ⟨fun h => yields_eq (f := doSeifWindowEnd p d back) rfl (doSeifWindowEnd_whole hp hd h1 h4 back h),
      fun h => yields_eq (f := doSeifWindowEnd p d back) rfl (doSeifWindowEnd_short back h),
      fun h => yields_run (f := doSeifLost p d false) rfl (agree_doSeifLost_met hp hd h1 h4 (decide_eq_true h)),
      fun h => yields_eq (f := doSeifLost p d false) rfl (doSeifLost_unmet (decide_eq_false (Nat.not_le.2 h))),
      fun h => yields_run (f := doSeifLost p d true) rfl (agree_doSeifLost_met hp hd h1 h4 (lossMet_freq h))⟩
  case go =>
    intro s cont hc hb
    refine yields_eq (f := doItmGo cont) rfl ((doItmGo_eq s cont).trans ?_)
    dsimp only
    rw [if_neg (not_itmCal hc), if_neg (not_itmBusy hb)]
    rfl
  case goWaits =>
    exact fun s cont hc => yields_eq (f := doItmGo cont) rfl ((doItmGo_eq s cont).trans (if_pos ((itmCal_iff s).2 hc)))
  case stop =>
    exact fun s cont hb => yields_eq (f := doItmStop cont) rfl ((doItmStop_eq s cont).trans (if_pos ((itmBusy_iff s).2 hb)))
  case noStop =>
    exact fun s cont hb => yields_eq (f := doItmStop cont) rfl ((doItmStop_eq s cont).trans (if_neg (not_itmBusy hb)))
  case cal =>
    exact fun s hc hb => yields_eq (f := doItmCalGo) rfl (if_neg fun h => h.elim (not_itmBusy hb) (not_itmCal hc))
  case calWaits =>
    exact fun s h => yields_eq (f := doItmCalGo) rfl (if_pos (h.symm.imp (itmBusy_iff s).2 (itmCal_iff s).2))
  case edges =>
    intro s c tap hbusy
    have hb := (itmBusy_iff s).2 hbusy
    exact ⟨fun e hs hw => yields_eq (f := doItmStartEdge c tap s.itmStartSrc) rfl (doItmStartEdge_reversed c tap hb hs hw),
      fun hs hn => yields_eq (f := doItmStartEdge c tap s.itmStartSrc) rfl (doItmStartEdge_pends c tap hb hs hn),
      fun e hs ht => yields_eq (f := doItmStopEdge c tap s.itmStopSrc) rfl (doItmStopEdge_completes c tap hb hs ht),
      fun hs hn => yields_eq (f := doItmStopEdge c tap s.itmStopSrc) rfl (doItmStopEdge_holds c tap hb hs hn),
      fun hs hd => yields_run (f := doItmWinExpiry) rfl (agree_doItmWinExpiry_due hb hs hd),
      fun h => yields_eq (f := doItmWinExpiry) rfl (doItmWinExpiry_early h),
      fun h => yields_eq (f := doItmTimeout) rfl (doItmTimeout_early h),
      fun hs hd => yields_run (f := doItmTimeout) rfl (agree_doItmTimeout_due hb hs hd)⟩
  case others =>
    exact fun s c tap src => ⟨fun h => yields_eq (f := doItmStartEdge c tap src) rfl (doItmStartEdge_other c tap h),
      fun h => yields_eq (f := doItmStopEdge c tap src) rfl (doItmStopEdge_other c tap h)⟩
  case calDone =>
    exact fun s hits refs temp hc hd hg =>
      yields_run (f := doItmCalDone ⟨hits, refs⟩ temp) rfl (agree_doItmCalDone ⟨hits, refs⟩ temp ((itmCal_iff s).2 hc) hd hg)
  case interval =>
    intro s a b reversed hab hn
    dsimp only
    rw [(agree_itmInterval_joins reversed hab hn).seif]
    exact ⟨rfl, rfl, rfl, rfl⟩

end Machine
end Sys2Proof
end

section
/-!
PROOFS. The selection of a DPLL's reference (R436, R437): which slots compete, and which of them selection takes.
-/
namespace Sys2Proof
namespace Machine

/-! ### The slots that compete -/

/-- The eligible slots of a DPLL, in ascending order. -/
def State.eligibles (s : State) (d : Nat) : List Nat := (List.range 13).filter fun n => s.eligible d n

/-- The eligible slots that may take the place of the one selected: better, and with REVERT 1 (R437). -/
def State.reverters (s : State) (d : Nat) : List Nat :=
  (s.eligibles d).filter fun n => s.better d n (s.selected d) && s.flag .REF_C_CTRL_REVERT (ckey d n)

/-- Slot `n` takes the place of the selected one of DPLL `d` (R437). -/
def State.Reverts (s : State) (d n : Nat) : Prop :=
  n ≤ 12 ∧ s.eligible d n = true ∧ s.reg .REF_C_CTRL_REVERT (ckey d n) = 1 ∧
    ((s.qlMode = true ∧ s.gradeOf d n < s.gradeOf d (s.selected d)) ∨
      ((s.qlMode = true → s.gradeOf d n = s.gradeOf d (s.selected d)) ∧ s.rank d n < s.rank d (s.selected d)))

theorem mem_reverters (s : State) (d n : Nat) : n ∈ s.reverters d ↔ s.Reverts d n := by
  unfold State.reverters State.eligibles State.Reverts
  rw [List.mem_filter, eligible_mem, Bool.and_eq_true, better_iff, flag_eq_true]
  tauto

/-- Of two slots only one is better. -/
theorem better_asymm {s : State} {d a b : Nat} (h : s.better d a b = true) : s.better d b a = false := by
  unfold State.better at h ⊢
  dsimp only at h ⊢
  simp only [Bool.or_eq_true, Bool.and_eq_true, decide_eq_true_eq, beq_iff_eq] at h
  rw [← Bool.not_eq_true]
  simp only [Bool.or_eq_true, Bool.and_eq_true, decide_eq_true_eq, beq_iff_eq]
  omega

/-- Of two slots with the same grade and the same RANK neither is better. -/
theorem not_better_of_eq {s : State} {d a b : Nat} (hg : s.qlMode = true → s.gradeOf d a = s.gradeOf d b)
    (hr : s.rank d a = s.rank d b) : s.better d a b = false := by
  rw [← Bool.not_eq_true, better_iff]
  rintro (⟨hq, hlt⟩ | ⟨_, hlt⟩)
  · exact absurd (hg hq) (Nat.ne_of_lt hlt)
  · exact absurd hr (Nat.ne_of_lt hlt)

/-- The best of some slots is one of them. -/
theorem best_of_mem (s : State) (d : Nat) {l : List Nat} {n : Nat} (h : n ∈ l) : ∃ b ∈ l, s.best d l = some b := by
  cases l with
  | nil => exact absurd h List.not_mem_nil
  | cons a t => exact ⟨_, best_mem s d t a, rfl⟩

/-! ### What selection takes -/

/-- Without an eligible selected slot the best eligible one is taken, or holdover begins. -/
theorem selection_lost {s : State} {d : Nat} (hc : s.selected d ≤ 12) (he : s.eligible d (s.selected d) = false) :
    s.selection d = match s.best d (s.eligibles d) with | some n => s.select d n 1 | none => s.holdover d := by
  unfold State.selection
  dsimp only
  rw [if_neg fun h => Bool.false_ne_true (he.symm.trans h.2), if_pos hc, if_pos hc]
  rfl

/-- With an eligible selected slot the best of those that may take its place is taken, if there is one. -/
theorem selection_kept {s : State} {d : Nat} (hc : s.selected d ≤ 12) (he : s.eligible d (s.selected d) = true) :
    s.selection d = match s.best d (s.reverters d) with | some n => s.select d n 2 | none => s := by
  unfold State.selection
  dsimp only
  rw [if_pos ⟨hc, he⟩]
  rfl

/-- Settles O51: the first slot in the order is what the comparison along the eligible slots leaves. -/
theorem selectionTakesFirstInOrder : Obligations.SelectionTakesFirstInOrder := by
  unfold Obligations.SelectionTakesFirstInOrder
  refine ⟨fun s d n hc he hn hne hfirst => ?first, fun s d hc hnone => ?none⟩
  case first =>
    have hbest : s.best d (s.eligibles d) = some n := by
      refine best_eq s d n _ (eligible_sorted _) ((eligible_mem s d n).2 ⟨hn, hne⟩) fun m hm hmn => ?_
      obtain ⟨hm12, hme⟩ := (eligible_mem s d m).1 hm
      rcases hfirst m hm12 hme hmn with hgrade | hrank | ⟨hg, hr, hlt⟩
      · have hb := (better_iff s d n m).2 (.inl hgrade)
        exact ⟨better_asymm hb, .inl hb⟩
      · have hb := (better_iff s d n m).2 (.inr hrank)
        exact ⟨better_asymm hb, .inl hb⟩
      · exact ⟨not_better_of_eq (fun hq => (hg hq).symm) hr.symm, .inr hlt⟩
    rw [selection_lost hc he, hbest]
  case none =>
    have hempty : s.eligibles d = [] :=
      List.filter_eq_nil_iff.2 fun m hm => Bool.eq_false_iff.1 (hnone m (Nat.lt_succ_iff.1 (List.mem_range.1 hm)))
    rw [selection_lost hc (hnone _ hc), hempty]
    rfl

/-- Settles O52: selection of a DPLL whose slot stays eligible looks only at the slots that may take its place. -/
theorem switchOnlyToBetterRevertive : Obligations.SwitchOnlyToBetterRevertive := by
  unfold Obligations.SwitchOnlyToBetterRevertive
  intro s d hc he
  rw [selection_kept hc he]
  refine ⟨fun hnone => ?_, fun ⟨n, hn⟩ => ?_⟩
  · have hempty : s.reverters d = [] := List.eq_nil_iff_forall_not_mem.2 fun n h => hnone n ((mem_reverters s d n).1 h)
    rw [hempty]
    rfl
  · obtain ⟨b, hb, hbest⟩ := best_of_mem s d ((mem_reverters s d n).2 hn)
    exact ⟨b, (mem_reverters s d b).1 hb, by rw [hbest]⟩

end Machine
end Sys2Proof
end

section
/-!
PROOFS. Every command is answered; the high time of an output and the boundary scan (R460, R645, R647).
-/
namespace Sys2Proof
namespace Machine

/-! ### Every command is answered -/

/-- Every arm of `exec` runs its row's work, and so answers a next state. -/
theorem exec_answers (i : Instr) (s : State) : ∃ t, exec i s = .next t := by
  cases i <;> exact ⟨_, rfl⟩

/-- Settles O55: every arm of `exec` runs its row's work, and none touches the queue. -/
theorem everyCommandIsAnswered : Obligations.EveryCommandIsAnswered := by
  unfold Obligations.EveryCommandIsAnswered
  intro i s
  obtain ⟨t, ht⟩ := exec_answers i s
  exact ⟨t, ht, exec_pending i s t ht⟩

/-! ### Odd dividers and the boundary scan (R460, R645, R647) -/

theorem outPeriod_clock {s : State} {n : Nat} (h : s.reg .OUT_CLK_CFG_MODE n ≠ 1) :
    s.outPeriod n = synPeriod (s.reg .OUT_CLK_CFG_SRC n) (s.reg .OUT_SYN1_FREQ) * s.reg .OUT_CLK_CFG_DIV n := by
  unfold State.outPeriod
  rw [if_neg ((flag_eq_true s _ n).not.2 h), Nat.mul_one]

theorem outHigh_clock {s : State} {n : Nat} (h : s.reg .OUT_CLK_CFG_MODE n ≠ 1) :
    s.outHigh n = synPeriod (s.reg .OUT_CLK_CFG_SRC n) (s.reg .OUT_SYN1_FREQ) * (s.reg .OUT_CLK_CFG_DIV n / 2) := by
  unfold State.outHigh
  exact if_neg ((flag_eq_true s _ n).not.2 h)

/-- Settles O58: the high time and the period of an output in synthesiser mode, and the IDCODE by its parts. -/
theorem oddDividerAndScanChain : Obligations.OddDividerAndScanChain := by
  unfold Obligations.OddDividerAndScanChain
  refine ⟨fun s n hm => ?high, fun s => ?idcode, fun g => by cases g <;> rfl⟩
  case high =>
    refine ⟨outPeriod_clock hm, outHigh_clock hm, fun h9 => ?_⟩
    rw [outPeriod_clock hm, outHigh_clock hm, h9]
    omega
  case idcode =>
    unfold State.idcode
    exact ⟨fun h => by omega, by omega, by omega, yields_eq (f := doJtagTapReset) rfl rfl⟩

end Machine
end Sys2Proof
end

section
/-!
PROOFS. Doorbells, bindings and locks (R523-R525, R532-R540).
-/
namespace Sys2Proof
namespace Machine

/-! ### Doorbells (R532, R533) -/

theorem ringBell_pend {s : State} {who bits r : Nat} (hb : bits % 2 ^ 32 ≠ 0) (hr : r < 7) :
    (s.ringBell who bits).reg .MBX_DB_PEND_BITS r =
      if bellIds.getD r 0 = who then s.reg .MBX_DB_PEND_BITS r else (s.reg .MBX_DB_PEND_BITS r ||| bits % 2 ^ 32) % 2 ^ 32 := by
  have hcount : (s.tally 2 3 1 0 2 who 1).reg .MBX_DB_PEND_BITS r = s.reg .MBX_DB_PEND_BITS r :=
    (agree_tally s _ _ _ _ _ _ (by decide)).reg rfl (by omega)
  unfold State.ringBell
  rw [if_neg hb]
  dsimp only
  rw [ring_fold who _ r hr _ (fun q hq => List.mem_range.1 hq) List.nodup_range, hcount]
  simp [List.mem_range.2 hr, ite_not]

theorem agree_bellEvent (s : State) : Agree s.bellEvent s := by
  unfold State.bellEvent
  split
  · exact Agree.refl s
  · exact agree_evT _ _ _

/-- A receiver writes its own mask, and is told of what the mask lets through. -/
theorem agree_doDoorbellMaskWrite_own {s : State} {r : Nat} (mask : Nat) (hr : r < 7) :
    Agree (doDoorbellMaskWrite (bellIds.getD r 0) r mask s) ((s.setReg .MBX_DB_MASK_BITS r mask).bellNotify r) := by
  unfold doDoorbellMaskWrite
  rw [if_neg (by omega), if_neg fun h => h rfl]
  dsimp only
  split
  · exact agree_bellEvent _
  · exact Agree.refl _

theorem agree_doDoorbellMaskWrite_other {s : State} {who r : Nat} (mask : Nat) (h : 7 ≤ r ∨ bellIds.getD r 0 ≠ who) :
    Agree (doDoorbellMaskWrite who r mask s) s := by
  unfold doDoorbellMaskWrite
  split
  · exact Agree.refl s
  · next h7 =>
    rw [if_pos (h.resolve_left h7)]
    exact agree_ev _ _ _

/-! ### Bindings (R523, R524) -/

theorem bound_iff (s : State) (n : Nat) : s.bound n = true ↔ s.reg .MBX_CH_BIND_VALID n = 1 := flag_eq_true s _ n
theorem full_iff (s : State) (n : Nat) : s.full n = true ↔ s.reg .MBX_CH_STATUS_FULL n = 1 := flag_eq_true s _ n

/-- Identity 0 or 16 binds or unbinds a channel that is not full while the bindings are not locked. -/
theorem doChannelBind_takes {s : State} {who n a b : Nat} (r : Nat) {valid : Bool} (hn : n < 32) (hl : s.reg .MBX_CTRL_LOCKED = 0)
    (hw : who = 0 ∨ who = 16) (hf : s.reg .MBX_CH_STATUS_FULL n = 0) (ha : a < 32) (hb : b < 32)
    (hv : valid = true → chanPath a = true ∧ chanPath b = true ∧ a ≠ b) :
    doChannelBind who n valid a b r s = s.setRegs [(.MBX_CH_BIND_VALID, n, b2n valid), (.MBX_CH_BIND_SENDER, n, a),
      (.MBX_CH_BIND_RECEIVER, n, b), (.MBX_CH_BIND_REMOTE, n, r % 32)] := by
  have hlocked : ¬s.flag .MBX_CTRL_LOCKED = true := by rw [flag_eq_true, hl]; decide
  have hfull : ¬s.full n = true := by rw [full_iff, hf]; decide
  have hpaths : ¬(valid = true ∧ (!(chanPath a && chanPath b)) = true) := by
    rintro ⟨h, hno⟩
    obtain ⟨hpa, hpb, -⟩ := hv h
    rw [hpa, hpb] at hno
    exact absurd hno (by decide)
  have hdiffer : ¬(valid = true ∧ a = b) := fun h => (hv h.1).2.2 h.2
  unfold doChannelBind
  dsimp only
  rw [Nat.mod_eq_of_lt ha, Nat.mod_eq_of_lt hb, if_neg (by omega), if_neg hlocked, if_neg (by omega), if_neg hfull,
    if_neg hpaths, if_neg hdiffer]

theorem agree_doChannelBind_locked {s : State} (who n a b r : Nat) (valid : Bool) (hl : s.reg .MBX_CTRL_LOCKED = 1) :
    Agree (doChannelBind who n valid a b r s) s := by
  unfold doChannelBind
  dsimp only
  split
  · exact Agree.refl s
  · rw [if_pos ((flag_eq_true s _ 0).2 hl)]
    exact agree_ev _ _ _

/-! ### Locks (R536-R540) -/

theorem lockHolder_held {s : State} {k : Nat} (h : s.reg .MBX_LOCK_HELD k = 1) : s.lockHolder k = some (s.reg .MBX_LOCK_OWNER k) := by
  unfold State.lockHolder
  exact if_pos ((flag_eq_true s _ k).2 h)

/-- A lock that is not held is still found held in the CORE cycle of its release. -/
theorem lockHolder_notHeld {s : State} {k : Nat} (h : s.reg .MBX_LOCK_HELD k ≠ 1) :
    s.lockHolder k =
      if (tget (0, 0) s.mbx.freed k).1 = s.coreCycle + 1 then some (tget (0, 0) s.mbx.freed k).2 else none := by
  unfold State.lockHolder
  exact if_neg ((flag_eq_true s _ k).not.2 h)

/-- The answer GRANTED of a lock to identity `w`. -/
def State.grantAnswer (s : State) (w k : Nat) : Out :=
  .readValue w (lockAddr k) (2 ^ 31 + s.reg .MBX_LOCK_ABANDONED k * 2 ^ 30 + 2 ^ 29 + w * 2 ^ 24)

/-- The registers of a lock that is given to identity `w`. -/
def lockFields (w k : Nat) : List (Fld × Nat × Nat) :=
  [(.MBX_LOCK_HELD, k, 1), (.MBX_LOCK_OWNER, k, w), (.MBX_LOCK_ABANDONED, k, 0)]

/-- The lock is given to identity `w`. -/
def State.lockGranted (s : State) (w k : Nat) : State :=
  let u := (s.emit (s.grantAnswer w k)).setRegs (lockFields w k)
  { u with mbx := { u.mbx with lockAt := tset 0 k (s.clk.tickCount + 1) s.mbx.lockAt, lockTold := tdel k s.mbx.lockTold } }

/-- Of the reads of a free lock the lowest lock port's is granted, and the others are refused. -/
theorem doLockAcquire_free {s : State} {who t : List Nat} {k w : Nat} (hk : k < 64) (hh : s.lockHolder k = none)
    (hl : (lockPorts.filter fun x => who.contains x) = w :: t) :
    doLockAcquire who k s =
      t.foldl (fun (u : State) x => u.lockRefused w x k true) (((s.lockGranted w k).tally 2 4 1 0 1 k 1).tally 2 4 1 0 2 w 1) := by
  unfold doLockAcquire
  dsimp only
  rw [if_neg (by omega), hh, hl]
  rfl

/-- All reads of a held lock are refused. -/
theorem doLockAcquire_held {s : State} {who : List Nat} {k o : Nat} (hk : k < 64) (hh : s.lockHolder k = some o) :
    doLockAcquire who k s = (lockPorts.filter fun x => who.contains x).foldl
      (fun (u : State) x => u.emit (.readValue x (lockAddr k) (2 ^ 29 + o * 2 ^ 24))) s := by
  unfold doLockAcquire
  dsimp only
  rw [if_neg (by omega), hh]
  exact lock_held k o _ s

theorem agree_lockCounts (s : State) (k w : Nat) : Agree ((s.tally 2 4 1 0 1 k 1).tally 2 4 1 0 2 w 1) s :=
  (agree_tally _ _ _ _ _ _ _ (by decide)).trans (agree_tally _ _ _ _ _ _ _ (by decide))

theorem doLockRelease_owner {s : State} {k : Nat} (hk : k < 64) (h : s.reg .MBX_LOCK_HELD k = 1) :
    doLockRelease (s.reg .MBX_LOCK_OWNER k) k s = s.lockFree k false := by
  unfold doLockRelease
  rw [if_neg (by omega), if_pos ⟨(flag_eq_true s _ k).2 h, rfl⟩]

theorem agree_doLockRelease_other {s : State} {who k : Nat} (h : s.reg .MBX_LOCK_HELD k ≠ 1 ∨ s.reg .MBX_LOCK_OWNER k ≠ who) :
    Agree (doLockRelease who k s) s := by
  have howns : ¬(s.flag .MBX_LOCK_HELD k = true ∧ s.reg .MBX_LOCK_OWNER k = who) := by
    rw [flag_eq_true]
    exact fun ⟨hh, ho⟩ => h.elim (· hh) (· ho)
  unfold doLockRelease
  by_cases hk : 64 ≤ k
  · rw [if_pos hk]
    exact Agree.refl s
  rw [if_neg hk, if_neg howns]
  split
  · exact Agree.refl s
  · exact agree_ev _ _ _

/-- A lock that has been held for the span of MBX_LOCK_HOLD is told, once. -/
theorem agree_doLockHoldExpiry_due {s : State} {k : Nat} (hk : k < 64) (hh : s.reg .MBX_LOCK_HELD k = 1)
    (ht : s.reg .MBX_LOCK_HOLD_TICKS ≠ 0) (hn : tget 0 s.mbx.lockTold k ≠ 1)
    (hd : s.reg .MBX_LOCK_HOLD_TICKS ≤ s.clk.tickCount + 1 - tget 0 s.mbx.lockAt k) :
    Agree (doLockHoldExpiry k s) { s with mbx := { s.mbx with lockTold := tset 0 k 1 s.mbx.lockTold } } := by
  have hheld : ¬(!s.flag .MBX_LOCK_HELD k) = true := by rw [(flag_eq_true s _ k).2 hh]; decide
  unfold doLockHoldExpiry
  dsimp only
  rw [if_neg fun h => by
    rcases h with h | h | h | h | h
    exacts [Nat.not_lt.2 h hk, ht h, hheld h, hn h, Nat.not_lt.2 hd h]]
  exact agree_ev _ _ _

/-- Settles O32: each row is the branch its conditions select. -/
theorem doorbellLockRowsComplete : Obligations.DoorbellLockRowsComplete := by
  unfold Obligations.DoorbellLockRowsComplete
  refine ⟨?ring, ?partner, fun s who bits r => ringBell_pend, ?mask, ?maskOther, ?bind, ?bindLocked, ?bindLock, ?granted, ?held,
    ?freed, ?release, ?releaseOther, ?jtag, ?expiry⟩
  case ring => exact fun s who bits h => yields_eq (f := doDoorbellRing who bits) rfl (if_pos h)
  case partner => exact fun s bits => yields_eq (f := doMbxDoorbellReceive bits) rfl rfl
  case mask =>
    rintro s _ r mask hr rfl
    exact yields_run (f := doDoorbellMaskWrite _ r mask) rfl (agree_doDoorbellMaskWrite_own mask hr)
  case maskOther =>
    exact fun s who r mask h => yields_run (f := doDoorbellMaskWrite who r mask) rfl (agree_doDoorbellMaskWrite_other mask h)
  case bind =>
    exact fun s who n a b r valid hn hl hw hf ha hb hv =>
      yields_eq (f := doChannelBind who n valid a b r) rfl (doChannelBind_takes r hn hl hw hf ha hb hv)
  case bindLocked =>
    exact fun s who n a b r valid hl =>
      yields_run (f := doChannelBind who n valid a b r) rfl (agree_doChannelBind_locked who n a b r valid hl)
  case bindLock => exact fun s who hw => yields_eq (f := doBindLock who) rfl (if_pos hw)
  case granted =>
    intro s who t k w hk hh hf hl
    have hfree : s.lockHolder k = none := (lockHolder_notHeld (by omega)).trans (if_neg hf)
    refine yields_run (f := doLockAcquire who k) rfl ?_
    rw [doLockAcquire_free hk hfree hl]
    exact lock_losers k w t _ _ (agree_lockCounts _ k w)
  case held => exact fun s who k hk hh => yields_eq (f := doLockAcquire who k) rfl (doLockAcquire_held hk (lockHolder_held hh))
  case freed =>
    exact fun s who k hk hh hf => yields_eq (f := doLockAcquire who k) rfl
      (doLockAcquire_held hk ((lockHolder_notHeld (by omega)).trans (if_pos hf)))
  case release => exact fun s k hk hh => yields_eq (f := doLockRelease _ k) rfl (doLockRelease_owner hk hh)
  case releaseOther => exact fun s who k h => yields_run (f := doLockRelease who k) rfl (agree_doLockRelease_other h)
  case jtag => exact fun s => yields_eq (f := doJtagTapReset) rfl rfl
  case expiry =>
    exact fun s k hk hh ht hn hd => yields_run (f := doLockHoldExpiry k) rfl (agree_doLockHoldExpiry_due hk hh ht hn hd)

theorem lockGranted_reg (s : State) (w k : Nat) (f : Fld) (i : Nat) :
    (s.lockGranted w k).reg f i = ((s.emit (s.grantAnswer w k)).setRegs (lockFields w k)).reg f i :=
  State.reg_of_regs (regs_of_mbx _ _) f i

theorem reg_lockFields (s : State) {w k : Nat} (hk : k < 64) (hw : w < 32) :
    (s.setRegs (lockFields w k)).reg .MBX_LOCK_HELD k = 1 ∧ (s.setRegs (lockFields w k)).reg .MBX_LOCK_OWNER k = w := by
  have hone : 1 % 2 ^ Fld.width .MBX_LOCK_HELD = 1 := by decide
  have howner : 2 ^ Fld.width .MBX_LOCK_OWNER = 32 := by decide
  have hother (u : State) {f g : Fld} (v : Nat) (h : g ≠ f) : (u.setReg f k v).reg g k = u.reg g k :=
    u.reg_setReg_ne h v (by omega) (by omega)
  unfold State.setRegs lockFields
  simp only [List.foldl_cons, List.foldl_nil]
  rw [hother _ _ (by decide), hother _ _ (by decide), State.reg_setReg, hother _ _ (by decide), State.reg_setReg, howner]
  exact ⟨hone, Nat.mod_eq_of_lt hw⟩

theorem lt_of_lockPorts {w : Nat} (h : w ∈ lockPorts) : w < 32 := by
  revert w
  decide

/-- Settles O54: the first of the lock ports that read is granted, and the refusals of the others name it. -/
theorem lowestLockPortWins : Obligations.LowestLockPortWins := by
  unfold Obligations.LowestLockPortWins
  refine ⟨rfl, fun s who k p w hk hfree hp hw hfirst => ?_⟩
  obtain ⟨t, ht⟩ := filter_head p w who lockPorts hp hw hfirst
  have hcounts := agree_lockCounts (s.lockGranted w k) k w
  obtain ⟨hheld, howner⟩ := reg_lockFields (s.emit (s.grantAnswer w k)) hk (lt_of_lockPorts (List.mem_of_getElem? hp))
  obtain ⟨hkept, hsaid, hrefused⟩ :=
    lockRefused_fold k w (by omega) t (((s.lockGranted w k).tally 2 4 1 0 1 k 1).tally 2 4 1 0 2 w 1)
  rw [← doLockAcquire_free hk hfree ht] at hkept hsaid hrefused
  refine ⟨_, rfl, ?held, ?owner, ?granted, fun v hv hvw hne => ?refused⟩
  case held => exact (hkept _ rfl).trans ((hcounts.reg rfl (by omega)).trans ((lockGranted_reg s w k _ k).trans hheld))
  case owner => exact (hkept _ rfl).trans ((hcounts.reg rfl (by omega)).trans ((lockGranted_reg s w k _ k).trans howner))
  case granted =>
    refine hsaid _ ?_
    rw [hcounts.out]
    exact List.mem_cons_self
  case refused =>
    have hmem : v ∈ w :: t := ht ▸ List.mem_filter.2 ⟨hv, List.contains_iff_mem.2 hvw⟩
    exact hrefused v ((List.mem_cons.1 hmem).resolve_left hne)

end Machine
end Sys2Proof
end

section
/-!
PROOFS. The messages of the channels (R526-R531, R535): words, reads that empty a channel, what goes to the partner and comes
from it, and cross-waits.
-/
namespace Sys2Proof
namespace Machine

/-! ### Words (R526, R527) -/

/-- Only the sender of a bound channel writes it. -/
theorem not_sending_iff {s : State} {n who : Nat} :
    ((!s.bound n) = true ∨ s.sender n ≠ who) ↔ (s.reg .MBX_CH_BIND_VALID n ≠ 1 ∨ s.reg .MBX_CH_BIND_SENDER n ≠ who) := by
  rw [Bool.not_eq_true', ← Bool.not_eq_true, bound_iff, State.sender]

/-- Only the receiver of a bound channel reads it. -/
theorem not_receiving_iff {s : State} {n who : Nat} :
    ((!s.bound n) = true ∨ s.receiver n ≠ who) ↔ (s.reg .MBX_CH_BIND_VALID n ≠ 1 ∨ s.reg .MBX_CH_BIND_RECEIVER n ≠ who) := by
  rw [Bool.not_eq_true', ← Bool.not_eq_true, bound_iff, State.receiver]

/-- The word joins the channel, and word 15 fills it. -/
theorem doMessageWordWrite_takes {s : State} {n w : Nat} (v : Nat) (hn : n < 32) (hw : w < 16)
    (hb : s.reg .MBX_CH_BIND_VALID n = 1) (hf : s.reg .MBX_CH_STATUS_FULL n = 0) (he : tget 0 s.mbx.emptied n ≠ s.coreCycle + 1) :
    doMessageWordWrite (s.reg .MBX_CH_BIND_SENDER n) n w v s =
      (let u := s.setReg .MBX_CH_DATA_WORD (n * 16 + w) v
       if w = 15 then u.filled n else u) := by
  have hfull : ¬(s.full n = true ∨ tget 0 s.mbx.emptied n = s.coreCycle + 1) := by
    rw [full_iff, hf]
    exact fun h => h.elim (absurd · (by decide)) he
  unfold doMessageWordWrite
  rw [if_neg (by omega), if_neg fun h => (not_sending_iff.1 h).elim (· hb) (· rfl), if_neg hfull]

theorem agree_doMessageWordWrite_unbound {s : State} {who n : Nat} (w v : Nat)
    (h : s.reg .MBX_CH_BIND_VALID n ≠ 1 ∨ s.reg .MBX_CH_BIND_SENDER n ≠ who) : Agree (doMessageWordWrite who n w v s) s := by
  unfold doMessageWordWrite
  split
  · exact Agree.refl s
  · rw [if_pos (not_sending_iff.2 h)]
    exact agree_ev _ _ _

/-- A channel that is full, or has been emptied in the cycle, discards the word and counts it. -/
theorem agree_doMessageWordWrite_refused {s : State} {n w : Nat} (v : Nat) (hn : n < 32) (hw : w < 16)
    (hb : s.reg .MBX_CH_BIND_VALID n = 1) (hf : s.reg .MBX_CH_STATUS_FULL n = 1 ∨ tget 0 s.mbx.emptied n = s.coreCycle + 1) :
    Agree (doMessageWordWrite (s.reg .MBX_CH_BIND_SENDER n) n w v s)
      { s with mbx := { s.mbx with refused := tset 0 n (tget 0 s.mbx.refused n + 1) s.mbx.refused } } := by
  unfold doMessageWordWrite
  rw [if_neg (by omega), if_neg fun h => (not_sending_iff.1 h).elim (· hb) (· rfl), if_pos (hf.imp_left (full_iff s n).2)]
  exact agree_ev _ _ _

/-! ### Reads (R527) -/

/-- What a read of a word answers its reader. -/
def State.wordAnswer (s : State) (who n w : Nat) : Out :=
  .readValue who (0x200100 + 0x80 * n + 0x40 + 4 * w) (s.reg .MBX_CH_DATA_WORD (n * 16 + w))

/-- The partner's message of an emptied channel is acknowledged; a local channel's is not. -/
def State.acknowledged (s : State) (n : Nat) : State := if s.sender n = 20 then s.mbxAnswer 1 n (tget 0 s.mbx.inSrc n) else s

theorem acknowledged_keep (u : State) (n : Nat) (h : u.reg .PAIR_CFG_CHK_TX < 16) :
    (u.acknowledged n).out = u.out ∧ ∀ f i, Fld.isAccount f = false → i < 8192 →
      f ∉ [Fld.CHK_UNIT_STATUS_BUSY, .CHK_UNIT_STATUS_CTX, .CHK_UNIT_STATUS_USER, .CHK_UNIT_STATUS_QUEUED] →
      (u.acknowledged n).reg f i = u.reg f i := by
  unfold State.acknowledged
  split
  · exact mbxAnswer_keep u 1 n _ h
  · exact ⟨rfl, fun _ _ _ _ _ => rfl⟩

section
variable {s : State} {n w : Nat} (hn : n < 32) (hb : s.reg .MBX_CH_BIND_VALID n = 1)
include hn hb

/-- A receiver's read that empties nothing answers the word. -/
theorem doMessageRead_answers (hw : w < 16) (h : w ≠ 15 ∨ s.reg .MBX_CH_STATUS_FULL n ≠ 1) :
    doMessageRead (s.reg .MBX_CH_BIND_RECEIVER n) n w s = s.emit (s.wordAnswer (s.reg .MBX_CH_BIND_RECEIVER n) n w) := by
  unfold doMessageRead
  dsimp only
  rw [if_neg (by omega), if_neg fun h => (not_receiving_iff.1 h).elim (· hb) (· rfl)]
  exact if_neg fun hfull => h.elim (· hfull.1) (· ((full_iff s n).1 hfull.2))

/-- Its read of word 15 of a full channel answers the word and empties the channel, and the partner's message is acknowledged. -/
theorem doMessageRead_empties (h : w = 15) (hf : s.reg .MBX_CH_STATUS_FULL n = 1) :
    doMessageRead (s.reg .MBX_CH_BIND_RECEIVER n) n w s =
      (let u := ((s.emit (s.wordAnswer (s.reg .MBX_CH_BIND_RECEIVER n) n w)).noteEmptied n).tally 2 1 2 0 0 n 1
       u.acknowledged n) := by
  unfold doMessageRead State.wordAnswer State.acknowledged
  dsimp only
  rw [if_neg (by omega), if_neg fun h => (not_receiving_iff.1 h).elim (· hb) (· rfl)]
  have hfull (o : Out) : (s.emit o).full n = true := (full_iff s n).2 hf
  exact if_pos ⟨h, hfull _⟩

end

theorem emptied_reg (s : State) {n : Nat} (hn : n < 32) {f : Fld} {i : Nat} (ha : Fld.isAccount f = false)
    (hx : f ≠ .MBX_CH_STATUS_XWAIT) (hf : f ≠ .MBX_CH_STATUS_FULL) (hi : i < 8192) : (s.emptied n).reg f i = s.reg f i :=
  (xwaitEnd_reg _ n f i ha hx hi).trans (State.reg_setReg_ne s hf 0 (by omega) hi)

theorem noteEmptied_out (s : State) (n : Nat) : (s.noteEmptied n).out = s.out := xwaitEnd_out _ n

theorem noteEmptied_at (s : State) (n : Nat) : tget 0 (s.noteEmptied n).mbx.emptied n = s.coreCycle + 1 := by
  unfold State.noteEmptied
  dsimp only
  exact tget_tset_self _ _ _ _

/-- The count of an emptied channel is an account. -/
theorem agree_emptiedCount (s : State) (n : Nat) : Agree (s.tally 2 1 2 0 0 n 1) s := agree_tally s _ _ _ _ _ _ (by decide)

/-- The sender of an emptied channel stays. -/
theorem sender_emptied (s : State) {n : Nat} (hn : n < 32) :
    ((s.noteEmptied n).tally 2 1 2 0 0 n 1).sender n = s.reg .MBX_CH_BIND_SENDER n :=
  ((agree_emptiedCount _ n).reg rfl (by omega)).trans
    ((noteEmptied_reg s n _ n).trans (emptied_reg s hn rfl (by decide) (by decide) (by omega)))

/-- A local channel is emptied without an acknowledgement. -/
theorem agree_doMessageRead_empties {s : State} {n : Nat} (hn : n < 32) (hb : s.reg .MBX_CH_BIND_VALID n = 1)
    (hf : s.reg .MBX_CH_STATUS_FULL n = 1) (hs : s.reg .MBX_CH_BIND_SENDER n ≠ 20) :
    Agree (doMessageRead (s.reg .MBX_CH_BIND_RECEIVER n) n 15 s)
      ((s.emit (s.wordAnswer (s.reg .MBX_CH_BIND_RECEIVER n) n 15)).noteEmptied n) := by
  rw [doMessageRead_empties hn hb rfl hf]
  dsimp only
  unfold State.acknowledged
  rw [sender_emptied _ hn, emit_reg, if_neg hs]
  exact agree_emptiedCount _ n

/-- What the read that empties a channel leaves of the answers and of the registers that show no queue of a check unit. -/
theorem doMessageRead_leaves {s : State} {n : Nat} (hn : n < 32) (hb : s.reg .MBX_CH_BIND_VALID n = 1)
    (hf : s.reg .MBX_CH_STATUS_FULL n = 1) (hc : s.reg .PAIR_CFG_CHK_TX < 16) :
    let a := s.emit (s.wordAnswer (s.reg .MBX_CH_BIND_RECEIVER n) n 15)
    (doMessageRead (s.reg .MBX_CH_BIND_RECEIVER n) n 15 s).out = a.out ∧
      ∀ f i, Fld.isAccount f = false → i < 8192 →
        f ∉ [Fld.CHK_UNIT_STATUS_BUSY, .CHK_UNIT_STATUS_CTX, .CHK_UNIT_STATUS_USER, .CHK_UNIT_STATUS_QUEUED] →
        (doMessageRead (s.reg .MBX_CH_BIND_RECEIVER n) n 15 s).reg f i = (a.emptied n).reg f i := by
  intro a
  have hcount := agree_emptiedCount (a.noteEmptied n) n
  have hunit : ((a.noteEmptied n).tally 2 1 2 0 0 n 1).reg .PAIR_CFG_CHK_TX < 16 := by
    rw [hcount.reg rfl (by decide), noteEmptied_reg, emptied_reg a hn rfl (by decide) (by decide) (by decide)]
    exact hc
  rw [doMessageRead_empties hn hb rfl hf]
  obtain ⟨hout, hreg⟩ := acknowledged_keep _ n hunit
  exact ⟨hout.trans (hcount.out.trans (noteEmptied_out a n)),
    fun f i ha hi hq => (hreg f i ha hi hq).trans ((hcount.reg ha hi).trans (noteEmptied_reg a n f i))⟩

/-- Settles O53: the read of word 15 of a full channel is the one that empties it, and every other read only answers. -/
theorem receiverReadsInAnyOrder : Obligations.ReceiverReadsInAnyOrder := by
  unfold Obligations.ReceiverReadsInAnyOrder
  rintro s _ n w hn hw hb rfl hc
  have haddr : Out.readValue (s.reg .MBX_CH_BIND_RECEIVER n) (0x200140 + 0x80 * n + 4 * w) (s.reg .MBX_CH_DATA_WORD (n * 16 + w)) =
      s.wordAnswer (s.reg .MBX_CH_BIND_RECEIVER n) n w := by
    unfold State.wordAnswer
    congr 1
    omega
  rw [haddr]
  refine ⟨⟨_, rfl, ?_⟩, fun hf => yields_eq (f := doMessageRead _ n w) rfl (doMessageRead_answers hn hb hw (.inr (by omega)))⟩
  by_cases h : w = 15 ∧ s.reg .MBX_CH_STATUS_FULL n = 1
  · obtain ⟨rfl, hf⟩ := h
    obtain ⟨hout, hreg⟩ := doMessageRead_leaves hn hb hf hc
    refine ⟨?answer, fun v hv => ?words, ?full⟩
    case answer => exact hout ▸ List.mem_cons_self
    case words => exact (hreg _ _ rfl (by omega) (by decide)).trans (emptied_reg _ hn rfl (by decide) (by decide) (by omega))
    case full => rw [if_pos ⟨rfl, hf⟩]; exact (hreg _ _ rfl (by omega) (by decide)).trans (emptied_full _ n hn)
  · have hread := doMessageRead_answers hn hb hw (by tauto)
    rw [if_neg h]
    refine ⟨?answer, fun v hv => ?words, ?full⟩
    case answer => exact hread ▸ List.mem_cons_self
    case words => exact congrArg (·.reg .MBX_CH_DATA_WORD (n * 16 + v)) hread
    case full => exact congrArg (·.reg .MBX_CH_STATUS_FULL n) hread

/-! ### Messages to the partner (R529-R531) -/

theorem doFlush_drops {s : State} {n : Nat} (hn : n < 32) (hb : s.reg .MBX_CH_BIND_VALID n = 1) (hr : s.reg .MBX_CH_BIND_RECEIVER n = 20) :
    doFlush (s.reg .MBX_CH_BIND_SENDER n) n s =
      ((({ s with mbx := { s.mbx with sending := tdel n s.mbx.sending } } : State).setReg .MBX_CH_STATUS_REMOTE_WAIT n 0).emptied n) := by
  unfold doFlush
  rw [if_neg (by omega), if_neg fun h => (not_sending_iff.1 h).elim (· hb) (· rfl), if_neg fun h => h hr]

theorem not_not_full {s : State} {n : Nat} (hf : s.reg .MBX_CH_STATUS_FULL n = 1) : ¬(!s.full n) = true := by
  rw [(full_iff s n).2 hf]
  decide

/-- A full channel to the partner sends its message over the path, or waits for it. -/
theorem agree_doMbxDataSend {s : State} {n : Nat} (hn : n < 32) (hf : s.reg .MBX_CH_STATUS_FULL n = 1) (hk : tget 0 s.mbx.sending n = 1) :
    Agree (doMbxDataSend n s)
      (if s.mywynUp then s.mbxSend n true else { s with mbx := { s.mbx with sending := tset 0 n 3 s.mbx.sending } }) := by
  unfold doMbxDataSend
  rw [if_neg fun h => by
    rcases h with h | h | h
    exacts [Nat.not_lt.2 h hn, not_not_full hf h, h hk]]
  exact Agree.ite (fun _ => Agree.refl _) fun _ => agree_ev _ _ _

section
variable {s : State} {n : Nat} (hn : n < 32) (hf : s.reg .MBX_CH_STATUS_FULL n = 1) (hp : s.mywynUp = true)
include hn hf hp

theorem not_resendIdle : ¬(32 ≤ n ∨ (!s.full n) = true ∨ (!s.mywynUp) = true) := by
  rintro (h | h | h)
  · exact Nat.not_lt.2 h hn
  · exact not_not_full hf h
  · rw [hp] at h
    exact absurd h (by decide)

/-- A message answered NAK is sent again at a heartbeat boundary, once. -/
theorem doMbxResend_nak (hk : tget 0 s.mbx.sending n = 2) :
    doMbxResend n s =
      if s.clk.cycle ≠ 0 ∨ s.clk.tick % 64 ≠ 0 ∨ tget 0 s.mbx.resent n = s.clk.tickCount + 1 then s
      else
        let u := s.mbxSend n false
        { u with mbx := { u.mbx with sending := tset 0 n 2 u.mbx.sending, resent := tset 0 n (s.clk.tickCount + 1) u.mbx.resent } } := by
  unfold doMbxResend
  dsimp only
  rw [if_neg (not_resendIdle hn hf hp), if_pos hk]

/-- A message that the path has held up is sent when it returns. -/
theorem doMbxResend_held (hk : tget 0 s.mbx.sending n = 3) :
    doMbxResend n s = s.mbxSend n (!s.flag .MBX_CH_STATUS_REMOTE_WAIT n) := by
  unfold doMbxResend
  dsimp only
  rw [if_neg (not_resendIdle hn hf hp), if_neg (by omega), if_pos hk]

end

/-! ### Messages from the partner (R530) -/

/-- The block's records are no registers. -/
theorem reg_setMbx (s : State) (x : Mbx) (f : Fld) (i : Nat) : ({ s with mbx := x } : State).reg f i = s.reg f i := rfl

/-- Neither are the queue and the clock. -/
theorem reg_framed (s t : State) (f : Fld) (i : Nat) : ({ t with pending := s.pending, clk := s.clk } : State).reg f i = t.reg f i := rfl

/-- The words of a message as register writes. -/
def wordFields (ch : Nat) (words : List Nat) : List (Fld × Nat × Nat) :=
  (List.range 16).map fun i => (.MBX_CH_DATA_WORD, ch * 16 + i, words.getD i 0)

theorem foldl_words (s : State) (ch : Nat) (words : List Nat) :
    (List.range 16).foldl (fun (u : State) i => u.setReg .MBX_CH_DATA_WORD (ch * 16 + i) (words.getD i 0)) s =
      s.setRegs (wordFields ch words) := by
  unfold State.setRegs wordFields
  rw [List.foldl_map]

/-- The words leave every other field. -/
theorem reg_wordFields (s : State) {ch : Nat} (words : List Nat) {f : Fld} (hc : ch < 32) (hf : f ≠ .MBX_CH_DATA_WORD) :
    (s.setRegs (wordFields ch words)).reg f ch = s.reg f ch := by
  refine setRegs_reg_of_ne _ s f ch (by omega) fun x hx => ?_
  obtain ⟨i, hi, rfl⟩ := List.mem_map.1 hx
  exact ⟨hf.symm, by have := List.mem_range.1 hi; dsimp only; omega⟩

/-- A channel that fills without a doorbell, and not for the partner, becomes full. -/
theorem agree_filled_local {s : State} {n : Nat} (hn : n < 32) (hr : s.reg .MBX_CH_BIND_RECEIVER n ≠ 20)
    (hd : s.reg .MBX_CH_CTRL_DB_EN n = 0) : Agree (s.filled n) (s.setReg .MBX_CH_STATUS_FULL n 1) := by
  have hcount : Agree ((s.setReg .MBX_CH_STATUS_FULL n 1).tally 2 1 1 0 0 n 1) (s.setReg .MBX_CH_STATUS_FULL n 1) :=
    agree_tally _ _ _ _ _ _ _ (by decide)
  have hreceiver : ((s.setReg .MBX_CH_STATUS_FULL n 1).tally 2 1 1 0 0 n 1).receiver n ≠ 20 := by
    rw [State.receiver, hcount.reg rfl (by omega), State.reg_setReg_ne s (by decide) 1 (by omega) (by omega)]
    exact hr
  have hbell : ¬((s.setReg .MBX_CH_STATUS_FULL n 1).tally 2 1 1 0 0 n 1).flag .MBX_CH_CTRL_DB_EN n = true := by
    rw [flag_eq_true, hcount.reg rfl (by omega), State.reg_setReg_ne s (by decide) 1 (by omega) (by omega), hd]
    decide
  unfold State.filled
  dsimp only
  rw [if_neg hreceiver, if_neg hbell]
  exact hcount

/-- A count of messages is an account. -/
theorem agree_messageCount (s : State) (q ch : Nat) : Agree (s.tally 2 2 q 0 0 ch 1) s := agree_tally s _ _ _ _ _ _ (by decide)

/-- New data for an empty channel bound from the partner fills it. -/
theorem agree_doMbxDataReceive_takes {s : State} {ch src tog : Nat} (words : List Nat) (hc : ch < 32) (ht : tog < 2) (hsrc : src < 32)
    (hb : s.reg .MBX_CH_BIND_VALID ch = 1) (hs : s.reg .MBX_CH_BIND_SENDER ch = 20) (hn : tget 0 s.mbx.inTog ch ≠ tog + 1)
    (hf : s.reg .MBX_CH_STATUS_FULL ch = 0) (hr : s.reg .MBX_CH_BIND_RECEIVER ch ≠ 20) (hd : s.reg .MBX_CH_CTRL_DB_EN ch = 0) :
    Agree (doMbxDataReceive ch src tog words s)
      (({ s.setRegs (wordFields ch words) with
        mbx := { s.mbx with inTog := tset 0 ch (tog + 1) s.mbx.inTog, inSrc := tset 0 ch src s.mbx.inSrc } } : State).setReg
        .MBX_CH_STATUS_FULL ch 1) := by
  have hcount := agree_messageCount s 1 ch
  have hbound : ¬((!(s.tally 2 2 1 0 0 ch 1).bound ch) = true ∨ (s.tally 2 2 1 0 0 ch 1).sender ch ≠ 20) := by
    rw [not_sending_iff, hcount.reg rfl (by omega), hcount.reg rfl (by omega)]
    exact fun h => h.elim (· hb) (· hs)
  have hempty : ¬(s.tally 2 2 1 0 0 ch 1).full ch = true := by
    rw [full_iff, hcount.reg rfl (by omega), hf]
    decide
  unfold doMbxDataReceive
  dsimp only
  rw [Nat.mod_eq_of_lt hc, Nat.mod_eq_of_lt ht, Nat.mod_eq_of_lt hsrc, if_neg hbound, hcount.mbx, if_neg hn, if_neg hempty, foldl_words,
    State.setRegs_mbx, hcount.mbx]
  refine (agree_filled_local hc ?_ ?_).trans (((hcount.setRegs _).setMbx _).setReg _ _ _)
  · rw [reg_setMbx, reg_wordFields _ words hc (by decide), hcount.reg rfl (by omega)]
    exact hr
  · rw [reg_setMbx, reg_wordFields _ words hc (by decide), hcount.reg rfl (by omega)]
    exact hd

/-- A message to the partner waits for its answer. -/
def State.Awaits (s : State) (ch : Nat) : Prop := s.reg .MBX_CH_BIND_RECEIVER ch = 20 ∧ s.reg .MBX_CH_STATUS_REMOTE_WAIT ch = 1

theorem awaits_iff (s : State) {ch : Nat} (q : Nat) (hc : ch < 32) :
    ((s.tally 2 2 q 0 0 ch 1).receiver ch = 20 ∧ (s.tally 2 2 q 0 0 ch 1).flag .MBX_CH_STATUS_REMOTE_WAIT ch = true) ↔ s.Awaits ch := by
  rw [State.receiver, flag_eq_true, (agree_messageCount s q ch).reg rfl (by omega), (agree_messageCount s q ch).reg rfl (by omega)]
  rfl

/-- An acknowledgement of a message that waits for it empties the channel. -/
theorem doMbxAckReceive_empties {s : State} {ch : Nat} (hc : ch < 32) (h : s.Awaits ch) :
    (doMbxAckReceive ch s).reg .MBX_CH_STATUS_FULL ch = 0 ∧ (doMbxAckReceive ch s).reg .MBX_CH_STATUS_REMOTE_WAIT ch = 0 := by
  have hrun : doMbxAckReceive ch s = ((({ s.tally 2 2 2 0 0 ch 1 with mbx :=
      { (s.tally 2 2 2 0 0 ch 1).mbx with sending := tdel ch (s.tally 2 2 2 0 0 ch 1).mbx.sending } } : State).setReg
        .MBX_CH_STATUS_REMOTE_WAIT ch 0).emptied ch) := by
    unfold doMbxAckReceive
    dsimp only
    rw [Nat.mod_eq_of_lt hc]
    exact if_pos ((awaits_iff s 2 hc).2 h)
  rw [hrun, emptied_full _ _ hc, emptied_reg _ hc rfl (by decide) (by decide) (by omega), State.reg_setReg, Nat.zero_mod]
  exact ⟨rfl, rfl⟩

theorem agree_doMbxAckReceive_stray {s : State} {ch : Nat} (hc : ch < 32) (h : ¬s.Awaits ch) : Agree (doMbxAckReceive ch s) s := by
  unfold doMbxAckReceive
  dsimp only
  rw [Nat.mod_eq_of_lt hc, if_neg fun hw => h ((awaits_iff s 2 hc).1 hw)]
  exact agree_messageCount s 2 ch

/-- A NAK notes that the data is to be sent again; its event is told once a message. -/
theorem agree_doMbxNakReceive_notes {s : State} {ch : Nat} (hc : ch < 32) (h : s.Awaits ch) :
    Agree (doMbxNakReceive ch s)
      { s with mbx := { s.mbx with sending := tset 0 ch 2 s.mbx.sending, nakTold := tset 0 ch 1 s.mbx.nakTold } } := by
  have hcount := agree_messageCount s 3 ch
  unfold doMbxNakReceive
  dsimp only
  rw [Nat.mod_eq_of_lt hc, if_pos ((awaits_iff s 3 hc).2 h), hcount.mbx]
  exact (agree_evIf _ _ _ _).trans (hcount.setMbx _)

theorem agree_doMbxNakReceive_stray {s : State} {ch : Nat} (hc : ch < 32) (h : ¬s.Awaits ch) : Agree (doMbxNakReceive ch s) s := by
  unfold doMbxNakReceive
  dsimp only
  rw [Nat.mod_eq_of_lt hc, if_neg fun hw => h ((awaits_iff s 3 hc).1 hw)]
  exact agree_messageCount s 3 ch

/-! ### Cross-waits (R535) -/

/-- A pair found full at more boundaries than TICKS allows is noted, and shown on both channels. -/
theorem agree_doXwaitDetect_notes {s : State} {a b : Nat} (ha : a < 32) (hb : b < 32) (hab : a ≠ b) (hp : s.mbxPair a b = true)
    (hn : max 1 (s.reg .MBX_XWAIT_TICKS) < s.bothOf a b) (hc : s.clk.cycle = 0) (hk : min a b * 32 + max a b ∉ s.mbx.xwaits) :
    Agree (doXwaitDetect a b s) (({ s with mbx := { s.mbx with xwaits := (min a b * 32 + max a b) :: s.mbx.xwaits } } : State).setRegs
      [(.MBX_CH_STATUS_XWAIT, a, 1), (.MBX_CH_STATUS_XWAIT, b, 1)]) := by
  have hpair : ¬(!s.mbxPair a b) = true := by rw [hp]; decide
  unfold doXwaitDetect
  dsimp only
  rw [if_neg fun h => by
    rcases h with h | h | h | h | h | h | h
    exacts [Nat.not_lt.2 h ha, Nat.not_lt.2 h hb, hab h, hpair h, h hc, Nat.not_lt.2 h hn, hk h]]
  exact (agree_tallyAny _ _ _ _ (by decide)).trans (agree_ev _ _ _)

/-- Settles O33: each row is the branch its conditions select. -/
theorem messageRowsComplete : Obligations.MessageRowsComplete := by
  unfold Obligations.MessageRowsComplete
  refine ⟨?write, ?unbound, ?refused, ?read, ?empties, ?emptied, ?flush, ?send, ?resend, ?receive, ?answers, ?stray, ?xwait⟩
  case write =>
    rintro s _ n w v hn hw hb rfl hf he
    exact yields_eq (f := doMessageWordWrite _ n w v) rfl (doMessageWordWrite_takes v hn hw hb hf he)
  case unbound =>
    exact fun s who n w v h => yields_run (f := doMessageWordWrite who n w v) rfl (agree_doMessageWordWrite_unbound w v h)
  case refused =>
    rintro s _ n w v hn hw hb rfl hf
    exact yields_run (f := doMessageWordWrite _ n w v) rfl (agree_doMessageWordWrite_refused v hn hw hb hf)
  case read =>
    rintro s _ n w hn hw hb rfl h
    exact yields_eq (f := doMessageRead _ n w) rfl (doMessageRead_answers hn hb hw h)
  case empties =>
    rintro s _ n hn hb rfl hf hs
    exact yields_run (f := doMessageRead _ n 15) rfl (agree_doMessageRead_empties hn hb hf hs)
  case emptied =>
    exact fun s n hn => ⟨emptied_full s n hn, (noteEmptied_reg s n _ n).trans (emptied_full s n hn), noteEmptied_at s n⟩
  case flush =>
    rintro s _ n hn hb rfl hr
    exact yields_eq (f := doFlush _ n) rfl (doFlush_drops hn hb hr)
  case send => exact fun s n hn hf hk => yields_run (f := doMbxDataSend n) rfl (agree_doMbxDataSend hn hf hk)
  case resend =>
    refine fun s n hn hf hp => ⟨fun hk hc ht hr => ?_, fun hk h => ?_, fun hk => ?_⟩
    · exact yields_eq (f := doMbxResend n) rfl ((doMbxResend_nak hn hf hp hk).trans (if_neg (by simp [hc, ht, hr])))
    · exact yields_eq (f := doMbxResend n) rfl ((doMbxResend_nak hn hf hp hk).trans (if_pos h))
    · exact yields_eq (f := doMbxResend n) rfl (doMbxResend_held hn hf hp hk)
  case receive =>
    intro s ch src tog words hc ht hsrc hb hs hn hf hr hd
    rw [foldl_words]
    exact yields_run (f := doMbxDataReceive ch src tog words) rfl (agree_doMbxDataReceive_takes words hc ht hsrc hb hs hn hf hr hd)
  case answers =>
    intro s ch hc hr hw
    obtain ⟨hfull, hwait⟩ := doMbxAckReceive_empties hc ⟨hr, hw⟩
    exact ⟨⟨_, rfl, (reg_framed s _ _ ch).trans hfull, (reg_framed s _ _ ch).trans hwait, rfl, rfl⟩,
      yields_run (f := doMbxNakReceive ch) rfl (agree_doMbxNakReceive_notes hc ⟨hr, hw⟩)⟩
  case stray =>
    exact fun s ch hc hw => ⟨yields_run (f := doMbxAckReceive ch) rfl (agree_doMbxAckReceive_stray hc fun h => hw h.2),
      yields_run (f := doMbxNakReceive ch) rfl (agree_doMbxNakReceive_stray hc fun h => hw h.2)⟩
  case xwait =>
    exact fun s a b ha hb hab hp hn hc hk => yields_run (f := doXwaitDetect a b) rfl (agree_doXwaitDetect_notes ha hb hab hp hn hc hk)

end Machine
end Sys2Proof
end

section
/-!
PROOFS. The check units, and their self-tests and waits (R511-R519).
-/
namespace Sys2Proof
namespace Machine

/-! ### Jobs (R511, R513, R518) -/

/-- A running job that may start, and whose bytes are there for long enough or whose read has failed, is ready. -/
theorem jobReady_of {s : State} {j : Job} {data : List Nat} {fault : Bool} (hc : s.canStart j = true)
    (h : fault = true ∨ (j.begun + (s.jobLength j + 127) / 128 + 4 ≤ s.coreCycle ∧ ∀ k, j.use = .run k → s.jobLength j ≤ data.length)) :
    s.jobReady j data fault = true := by
  unfold State.jobReady
  rw [hc, Bool.true_and, Bool.or_eq_true]
  refine h.imp_right fun ⟨ht, hdata⟩ => ?_
  rw [decide_eq_true ht, Bool.true_and]
  cases hu : j.use with
  | run k => exact decide_eq_true (hdata k hu)
  | _ => rfl

/-- A suspended CHK_RUN's job is not ready, and none is before its cycle, unless its read has failed. -/
theorem not_jobReady_of {s : State} {j : Job} (data : List Nat)
    (h : s.canStart j = false ∨ s.coreCycle < j.begun + (s.jobLength j + 127) / 128 + 4) : s.jobReady j data false = false := by
  unfold State.jobReady
  rcases h with hc | ht
  · rw [hc, Bool.false_and]
  · rw [decide_eq_false (Nat.not_le.2 ht), Bool.false_and, Bool.or_false, Bool.and_false]

theorem doChkJobDone_running {s : State} {n : Nat} {j : Job} (data : List Nat) (fault : Bool) (hj : s.jobOf n = some j) :
    doChkJobDone n data fault s = if s.jobReady j data fault then (s.jobEnds n j data fault).nextOnUnit n else s := by
  unfold doChkJobDone
  rw [hj]

theorem doChkJobDone_idle {s : State} {n : Nat} (data : List Nat) (fault : Bool) (hj : s.jobOf n = none) :
    doChkJobDone n data fault s = s := by
  unfold doChkJobDone
  rw [hj]

/-- A self-test shows its value over the test string, and DONE; what it counts and tells are accounts. -/
theorem agree_jobEnds_selfTest {s : State} {n : Nat} {j : Job} (data : List Nat) (fault : Bool) (hu : j.use = .selfTest) :
    Agree (s.jobEnds n j data fault) ((s.setReg .CHK_UNIT_LAST_VALUE n (s.chkValue n testString)).setRegs
      [(.CHK_UNIT_TESTV_VALUE, n, s.chkValue n testString), (.CHK_UNIT_TEST_DONE, n, 1)]) := by
  unfold State.jobEnds
  rw [hu]
  exact (agree_ev _ _ _).trans ((agree_jobCounted _ _ _ _).setRegs _)

/-- The first job that has waited long enough is told, once. -/
theorem agree_doChkWait_warns {s : State} {n : Nat} {j : Job} (hw : s.reg .CHK_CFG_WAIT_WARN ≠ 0)
    (hf : (s.jobsOf n).find? (fun j => !j.warned && decide (s.reg .CHK_CFG_WAIT_WARN ≤ s.clk.tickCount - j.since)) = some j) :
    Agree (doChkWait n s) { s with chk := { s.chk with
      queue := tset [] n ((s.jobsOf n).map fun k => if k = j then { k with warned := true } else k) s.chk.queue } } := by
  unfold doChkWait
  dsimp only
  rw [if_neg hw, hf]
  exact agree_ev _ _ _

/-- Settles O34: each row is the branch its conditions select. -/
theorem checkRowsComplete : Obligations.CheckRowsComplete := by
  unfold Obligations.CheckRowsComplete
  refine ⟨?selfTest, ?clear, ?ends, ?early, fun s n j data fault _ => agree_jobEnds_selfTest data fault, ?idle, ?wait⟩
  case selfTest => exact fun s n hn => yields_eq (f := doSelfTest n) rfl (if_neg (Nat.not_le.2 hn))
  case clear => exact fun s n ctx hn => yields_eq (f := doAliveClear n ctx) rfl (if_neg (Nat.not_le.2 hn))
  case ends =>
    exact fun s n j data fault hj hc h => yields_eq (f := doChkJobDone n data fault) rfl
      ((doChkJobDone_running data fault hj).trans (if_pos (jobReady_of hc h)))
  case early =>
    exact fun s n j data hj h => yields_eq (f := doChkJobDone n data false) rfl
      ((doChkJobDone_running data false hj).trans (if_neg (Bool.not_eq_true _ ▸ not_jobReady_of data h)))
  case idle => exact fun s n data fault hj => yields_eq (f := doChkJobDone n data fault) rfl (doChkJobDone_idle data fault hj)
  case wait => exact fun s n j hw hf => yields_run (f := doChkWait n) rfl (agree_doChkWait_warns hw hf)

end Machine
end Sys2Proof
end

section
/-!
PROOFS. Performance counters, dumps and samplers (R547-R562).
-/
namespace Sys2Proof
namespace Machine

/-! ### Selections and clears (R547, R549) -/

theorem lt_of_unitExists {u : Nat} (h : unitExists u = true) : u ≤ 18 :=
  of_decide_eq_true (Bool.and_eq_true_iff.1 h).1

/-- The fields of counter `i`'s selection that a word sets. -/
def selFields (i w : Nat) : List (Fld × Nat × Nat) :=
  [(.OBS_U_SEL_ALL, i, bits w 31 31), (.OBS_U_SEL_KIND, i, bits w 30 29), (.OBS_U_SEL_ITEM, i, bits w 28 24),
    (.OBS_U_SEL_SUB, i, bits w 23 16)]

/-- Counter `k` of unit `u` starts at 0, without its overflow. -/
def State.counterFresh (s : State) (u k : Nat) : State :=
  (s.counterZero u k).setReg .OBS_U_OVF_OVF u (setBits (s.reg .OBS_U_OVF_OVF u) k k 0)

/-- The counter's selection is noted as changed (R553). -/
def State.selNoted (s : State) (u k : Nat) : State :=
  { s with obs := { s.obs with
    selChanged := tupd 0 u (· ||| 2 ^ k) s.obs.selChanged, selAt := tset 0 (u * 8 + k) (s.coreCycle + 1) s.obs.selAt } }

section
variable {u k w : Nat} (s : State) (hu : unitExists u = true) (hk : k < 8)
include hu hk

theorem doCounterSelect_takes (hs : selectionOk u w = true) :
    doCounterSelect u k false w s = ((s.counterFresh u k).selNoted u k).setRegs (selFields (u * 8 + k) w) := by
  have hreal : ¬((!unitExists u) = true ∨ 8 ≤ k) := by
    rw [hu]
    exact fun h => h.elim (absurd · (by decide)) (Nat.not_le.2 hk)
  unfold doCounterSelect
  dsimp only
  rw [if_neg hreal, if_neg Bool.false_ne_true, if_neg Bool.false_ne_true, hs]
  rfl

/-- A counter and its overflow are accounts. -/
theorem agree_counterFresh : Agree (s.counterFresh u k) s :=
  (Agree.account rfl _ _ (by have := lt_of_unitExists hu; omega)).trans
    (Agree.account rfl _ _ (by have := lt_of_unitExists hu; omega))

theorem counterFresh_reads : (s.counterFresh u k).reg .OBS_U_CNT_VALUE (u * 8 + k) = 0 := by
  have := lt_of_unitExists hu
  exact (State.reg_setReg_ne _ (by decide) _ (by omega) (by omega)).trans (counterZero_reads s u k)

/-- A selection that names something leaves its counter at 0. -/
theorem doCounterSelect_reads (hs : selectionOk u w = true) : (doCounterSelect u k false w s).reg .OBS_U_CNT_VALUE (u * 8 + k) = 0 := by
  have := lt_of_unitExists hu
  rw [doCounterSelect_takes s hu hk hs, setRegs_reg_of_ne _ _ _ _ (by omega) fun x hx => ?_]
  · exact counterFresh_reads s hu hk
  · simp only [selFields, List.mem_cons, List.not_mem_nil, or_false] at hx
    have hne : ∀ f ∈ [Fld.OBS_U_SEL_ALL, .OBS_U_SEL_KIND, .OBS_U_SEL_ITEM, .OBS_U_SEL_SUB], f ≠ .OBS_U_CNT_VALUE := by decide
    rcases hx with rfl | rfl | rfl | rfl <;> exact ⟨hne _ (by simp), by dsimp only; omega⟩

end

theorem agree_doCounterSelect_refused (s : State) {u w : Nat} (k : Nat) (hs : selectionOk u w = false) :
    Agree (doCounterSelect u k false w s) s := by
  unfold doCounterSelect
  dsimp only
  split
  · exact Agree.refl s
  · rw [if_neg Bool.false_ne_true, hs]
    exact agree_ev _ _ _

/-- The counters that a mask names. -/
def maskCounters (mask : Nat) : List Nat := (List.range 8).filter fun k => bit mask k

theorem mem_maskCounters {mask k : Nat} : k ∈ maskCounters mask ↔ k < 8 ∧ bit mask k = true := by
  unfold maskCounters
  rw [List.mem_filter, List.mem_range]

/-- A clear sets each counter of the mask to what its CORE cycle has counted so far. -/
theorem doCounterClear_eq (s : State) {u : Nat} (mask : Nat) (hu : unitExists u = true) :
    doCounterClear u mask s = (maskCounters mask).foldl
      (fun (y : State) k => y.setReg .OBS_U_CNT_VALUE (u * 8 + k) (s.hwBits .OBS_U_CNT_VALUE (u * 8 + k))) s := by
  unfold doCounterClear
  rw [hu, if_neg (by decide)]
  exact counterClear_eq u _ s s rfl rfl

theorem doCounterClear_leaves (s : State) {u : Nat} (mask : Nat) (hu : unitExists u = true) :
    Agree (doCounterClear u mask s) s ∧ ∀ k, k < 8 → bit mask k = true →
      (doCounterClear u mask s).reg .OBS_U_CNT_VALUE (u * 8 + k) = s.hwBits .OBS_U_CNT_VALUE (u * 8 + k) % 2 ^ 48 := by
  have hfold := counterClear_fold u (lt_of_unitExists hu) (fun k => s.hwBits .OBS_U_CNT_VALUE (u * 8 + k)) (maskCounters mask) s
    fun k hk => (mem_maskCounters.1 hk).1
  rw [doCounterClear_eq s mask hu]
  exact ⟨hfold.1, fun k hk hm => hfold.2 k (.inl (mem_maskCounters.2 ⟨hk, hm⟩))⟩

theorem hwBits_otherCycle {s : State} (f : Fld) (i : Nat) (h : s.hw.at_ ≠ s.coreCycle + 1) : s.hwBits f i = 0 := if_neg h

/-! ### Dumps (R551-R556) -/

/-- The dump's SEQ is taken at the boundary. -/
def State.dumpNumbered (s : State) : State :=
  { s.setReg .OBS_DUMP_SEQ_SEQ 0 (s.reg .OBS_DUMP_SEQ_SEQ + 1) with obs := { s.obs with dumpDone := s.clk.tickCount + 1 } }

/-- The sections of the units that are selected (R553). -/
def State.unitSections (s : State) : List Nat :=
  ((List.range 19).filter fun n => bit (s.reg .OBS_DUMP_UNITS_UNITS) n).flatMap s.unitSection

/-- The record of a dump with SEQ `seq` and sections `body` (R552). -/
def State.dumpRecord (s : State) (seq : Nat) (body : List Nat) : DumpRec :=
  ⟨s.reg .OBS_DUMP_BASE_ADDR * 4096 + 131072 * (seq % max 1 (s.reg .OBS_DUMP_SLOTS_SLOTS)), seq,
    le 8 s.clk.tick ++ le 8 s.clk.tickCount ++ le 4 (s.reg .OBS_DUMP_UNITS_UNITS) ++ le 4 (64 + body.length) ++ le 4 s.obs.skipped, body⟩

/-- A dump of units, and of ports and flow records if they are asked for, begins (R551-R558). -/
def State.dumpBegun (s : State) (seq : Nat) : State :=
  let d := s.dumpRecord seq (s.unitSections ++ if s.flag .OBS_DUMP_CFG_PORTS then (List.range 258).flatMap s.portSection else [])
  let flows := s.flag .OBS_DUMP_CFG_FLOWS
  let u := { s with obs := { s.obs with
    dump := some d, skipped := 0, selChanged := []
    flows := if flows then some (s.reg .OBS_FLOW_BASE_ADDR * 4096, s.flowRecords) else none } }
  ((if flows then u.dumpAsks else u).setRegs [(.OBS_DUMP_STATUS_BUSY, 0, 1), (.OBS_DUMP_STATUS_FLOW_BUSY, 0, b2n flows)]).emit
    (.hostWrite d.addr (dumpHeader d 1))

/-- A dump of units alone. -/
theorem dumpBegun_units {s : State} (seq : Nat) (hp : s.flag .OBS_DUMP_CFG_PORTS = false) (hf : s.flag .OBS_DUMP_CFG_FLOWS = false) :
    s.dumpBegun seq =
      (let d := s.dumpRecord seq s.unitSections
       (({ s with obs := { s.obs with dump := some d, skipped := 0, selChanged := [], flows := none } } : State).setRegs
         [(.OBS_DUMP_STATUS_BUSY, 0, 1), (.OBS_DUMP_STATUS_FLOW_BUSY, 0, 0)]).emit (.hostWrite d.addr (dumpHeader d 1))) := by
  unfold State.dumpBegun
  rw [hp, hf, if_neg Bool.false_ne_true, List.append_nil]
  rfl

theorem reg_dumpNumbered (s : State) {f : Fld} (hf : f ≠ .OBS_DUMP_SEQ_SEQ) : s.dumpNumbered.reg f = s.reg f :=
  (State.reg_of_regs (t := s.setReg .OBS_DUMP_SEQ_SEQ 0 (s.reg .OBS_DUMP_SEQ_SEQ + 1)) rfl f 0).trans
    (State.reg_setReg_ne _ hf _ (by decide) (by decide))

section
variable {s : State} (hc : s.clk.cycle = 0) (he : s.reg .OBS_DUMP_CFG_EN = 1) (hd : s.obs.dumpDone ≠ s.clk.tickCount + 1)
  (hp : s.clk.tickCount % max 1 (s.reg .OBS_DUMP_CFG_PERIOD) = 0)
include hc he hd hp

theorem dumpIsDue : ¬(s.clk.cycle ≠ 0 ∨ (!s.flag .OBS_DUMP_CFG_EN) = true ∨ s.obs.dumpDone = s.clk.tickCount + 1 ∨
    s.clk.tickCount % max 1 (s.reg .OBS_DUMP_CFG_PERIOD) ≠ 0) := by
  rw [(flag_eq_true s _ 0).2 he]
  rintro (h | h | h | h)
  exacts [h hc, absurd h (by decide), hd h, h hp]

/-- A dump that is due takes its SEQ; it is skipped with the last one still being written, and else begins. -/
theorem doDumpDue_due :
    doDumpDue s =
      if s.obs.dump.isSome ∨ s.obs.flows.isSome then
        ({ s.dumpNumbered with obs := { s.dumpNumbered.obs with skipped := s.obs.skipped + 1 } } : State).ev 233
          [(4, s.reg .OBS_DUMP_SEQ_SEQ), (1, if s.obs.dump.isSome then 1 else 2)]
      else s.dumpNumbered.dumpBegun (s.reg .OBS_DUMP_SEQ_SEQ) := by
  unfold doDumpDue
  exact if_neg (dumpIsDue hc he hd hp)

theorem agree_doDumpDue_skips (h : s.obs.dump ≠ none) :
    Agree (doDumpDue s) { s.dumpNumbered with obs := { s.dumpNumbered.obs with skipped := s.obs.skipped + 1 } } := by
  rw [doDumpDue_due hc he hd hp, if_pos (.inl (Option.isSome_iff_ne_none.2 h))]
  exact agree_ev _ _ _

/-- A dump without ports and flow records captures the sections of its units. -/
theorem doDumpDue_begins (h0 : s.obs.dump = none) (h1 : s.obs.flows = none) (hf : s.reg .OBS_DUMP_CFG_FLOWS = 0)
    (hports : s.reg .OBS_DUMP_CFG_PORTS = 0) :
    doDumpDue s =
      (let u := s.dumpNumbered
       let d := u.dumpRecord (s.reg .OBS_DUMP_SEQ_SEQ) u.unitSections
       (({ u with obs := { u.obs with dump := some d, skipped := 0, selChanged := [], flows := none } } : State).setRegs
         [(.OBS_DUMP_STATUS_BUSY, 0, 1), (.OBS_DUMP_STATUS_FLOW_BUSY, 0, 0)]).emit (.hostWrite d.addr (dumpHeader d 1))) := by
  have hflag {f : Fld} (hne : f ≠ .OBS_DUMP_SEQ_SEQ) (h : s.reg f = 0) : s.dumpNumbered.flag f = false := by
    rw [flag_eq_false, reg_dumpNumbered s hne, h]
    decide
  rw [doDumpDue_due hc he hd hp, h0, h1, if_neg (by decide),
    dumpBegun_units _ (hflag (by decide) hports) (hflag (by decide) hf)]

end

/-- Settles O35: each row is the branch its conditions select. -/
theorem observerRowsComplete : Obligations.ObserverRowsComplete := by
  unfold Obligations.ObserverRowsComplete
  refine ⟨?select, ?refused, ?clear, ?dump, ?written, ?flows, ?enable, ?disable⟩
  case select =>
    intro s u k w hu hk hs
    refine ⟨yields_run (f := doCounterSelect u k false w) rfl ?_, ⟨_, rfl, doCounterSelect_reads s hu hk hs⟩⟩
    rw [doCounterSelect_takes s hu hk hs]
    have hfresh := agree_counterFresh s hu hk
    unfold State.selNoted
    rw [hfresh.obs]
    exact (hfresh.setObs _).setRegs _
  case refused =>
    exact fun s u k w hs => yields_run (f := doCounterSelect u k false w) rfl (agree_doCounterSelect_refused s k hs)
  case clear =>
    intro s u mask hu
    obtain ⟨hagree, hreads⟩ := doCounterClear_leaves s mask hu
    refine ⟨yields_run (f := doCounterClear u mask) rfl hagree, fun k hk hm => ⟨_, rfl, hreads k hk hm, fun hat => ?_⟩⟩
    exact (hreads k hk hm).trans (by rw [hwBits_otherCycle _ _ hat, Nat.zero_mod])
  case dump =>
    intro s hc he hd hp
    exact ⟨fun h0 h1 hf hports => yields_eq (f := doDumpDue) rfl (doDumpDue_begins hc he hd hp h0 h1 hf hports),
      fun h => yields_run (f := doDumpDue) rfl (agree_doDumpDue_skips hc he hd hp h)⟩
  case written =>
    intro s d h
    refine yields_eq (f := doDumpWriteDone) rfl ?_
    unfold doDumpWriteDone
    rw [h]
  case flows =>
    intro s base l h
    refine yields_eq (f := doFlowPassDone []) rfl ?_
    unfold doFlowPassDone
    rw [h]
    rfl
  case enable =>
    intro s k hk he
    refine yields_eq (f := doSamplerEnable k true) rfl ?_
    unfold doSamplerEnable
    rw [if_neg fun h => h.elim (by omega) fun h => he ((flag_eq_true s _ k).1 h)]
    rfl
  case disable =>
    intro s k hk he
    refine yields_eq (f := doSamplerEnable k false) rfl ?_
    unfold doSamplerEnable
    rw [(flag_eq_true s _ k).2 he, if_neg fun h => h.elim (by omega) (absurd · (by decide))]
    rfl

end Machine
end Sys2Proof
end

section
/-!
PROOFS. Cairn's arming, its intervals and the mirror (R569-R577).
-/
namespace Sys2Proof
namespace Machine

theorem doCairnEnableWrite_arms {s : State} (h : s.reg .OBS_CAIRN_CTRL_EN ≠ 1) :
    doCairnEnableWrite true s = { s.setReg .OBS_CAIRN_CTRL_EN 0 1 with cairn := { s.cairn with armDue := true } } := by
  unfold doCairnEnableWrite
  exact if_neg ((flag_eq_true s _ 0).not.2 h)

theorem doCairnEnableWrite_ends {s : State} (h : s.reg .OBS_CAIRN_CTRL_EN = 1) :
    doCairnEnableWrite false s =
      { s.setReg .OBS_CAIRN_CTRL_EN 0 0 with cairn := { s.cairn with armDue := false, shortDue := s.cairn.opened } } := by
  unfold doCairnEnableWrite
  rw [(flag_eq_true s _ 0).2 h]
  rfl

theorem doCairnIntervalWrite_eq (s : State) {v : Nat} (h : v < 2 ^ 24) :
    doCairnIntervalWrite v s = { s.setReg .OBS_CAIRN_CFG_INTERVAL 0 (max 1000 (min 10000000 v)) with
      cairn := { s.cairn with shortDue := s.cairn.shortDue || s.cairn.opened } } := by
  unfold doCairnIntervalWrite
  rw [Nat.mod_eq_of_lt h]
  rfl

/-- Without an erase MIRROR_BUSY shows whether records are still to be programmed. -/
theorem showMirror_programs {s : State} (h : s.cairn.erasing = false) :
    s.showMirror = s.setReg .OBS_CAIRN_STATUS_MIRROR_BUSY 0 (b2n (!s.cairn.prog.isEmpty)) := by
  unfold State.showMirror
  rw [h, Bool.or_false]

section
variable {s : State} {n : Nat} {t : List Nat} (hp : s.cairn.prog = n :: t) (he : s.cairn.erasing = false)
include hp he

/-- The oldest record to be programmed enters the mirror. -/
theorem doCairnMirrorProgramDone_enters :
    doCairnMirrorProgramDone true s =
      (({ s with cairn := { s.cairn with prog := t, mirror := tins n (s.cairn.first.getD n []) s.cairn.mirror } } : State).emit
        (.flash 1 (0x20000 + 128 * n) (s.cairn.first.getD n []))).setReg .OBS_CAIRN_STATUS_MIRROR_BUSY 0 (b2n (!t.isEmpty)) := by
  unfold doCairnMirrorProgramDone
  rw [hp]
  dsimp only
  rw [if_neg (by rw [he]; decide), if_pos rfl]
  exact showMirror_programs he

/-- A record whose readback fails leaves the mirror and shows the error. -/
theorem agree_doCairnMirrorProgramDone_fails :
    Agree (doCairnMirrorProgramDone false s)
      ((({ s with cairn := { s.cairn with prog := t } } : State).setReg .OBS_CAIRN_STATUS_MIRROR_ERR 0
        (s.reg .OBS_CAIRN_STATUS_MIRROR_ERR ||| 1)).setReg .OBS_CAIRN_STATUS_MIRROR_BUSY 0 (b2n (!t.isEmpty))) := by
  unfold doCairnMirrorProgramDone
  rw [hp]
  dsimp only
  rw [if_neg (by rw [he]; decide), if_neg Bool.false_ne_true, if_neg Bool.false_ne_true, showMirror_programs (by exact he)]
  exact (agree_hwSet ({ s with cairn := { s.cairn with prog := t } } : State) .OBS_CAIRN_STATUS_MIRROR_ERR 0 1).setReg _ _ _

end

theorem doMirrorEraseDone_empties {s : State} (h : s.cairn.erasing = true) :
    doMirrorEraseDone s =
      (({ s with cairn := { s.cairn with erasing := false, mirror := [] } } : State).emit (.flash 2 0x20000 [])).setReg
        .OBS_CAIRN_STATUS_MIRROR_BUSY 0 (b2n (!s.cairn.prog.isEmpty)) := by
  unfold doMirrorEraseDone
  rw [if_pos h]
  exact showMirror_programs rfl

/-- Settles O36: each row is the branch its conditions select. -/
theorem cairnRowsComplete : Obligations.CairnRowsComplete := by
  unfold Obligations.CairnRowsComplete
  refine ⟨?arm, ?disarm, ?interval, ?close, ?program, ?erase⟩
  case arm => exact fun s h => yields_eq (f := doCairnEnableWrite true) rfl (doCairnEnableWrite_arms h)
  case disarm => exact fun s h => yields_eq (f := doCairnEnableWrite false) rfl (doCairnEnableWrite_ends h)
  case interval => exact fun s v h => yields_eq (f := doCairnIntervalWrite v) rfl (doCairnIntervalWrite_eq s h)
  case close => exact fun s => yields_eq (f := doCairnIntervalClose) rfl rfl
  case program =>
    exact fun s n t hp he => ⟨yields_eq (f := doCairnMirrorProgramDone true) rfl (doCairnMirrorProgramDone_enters hp he),
      yields_run (f := doCairnMirrorProgramDone false) rfl (agree_doCairnMirrorProgramDone_fails hp he)⟩
  case erase => exact fun s h => yields_eq (f := doMirrorEraseDone) rfl (doMirrorEraseDone_empties h)

end Machine
end Sys2Proof
end

section
/-!
PROOFS. Power-on, the release of internal reset, the thermal hold, the first watchdog, and block resets (R572, R583-R587, R595,
R603, R607).
-/
namespace Sys2Proof
namespace Machine

/-! ### Power-on (R572, R583, R585) -/

/-- Register writes change the registers alone. -/
theorem setRegs_eq (s : State) (l : List (Fld × Nat × Nat)) : s.setRegs l = { s with regs := (s.setRegs l).regs } := by
  unfold State.setRegs
  induction l generalizing s with
  | nil => rfl
  | cons x t ih =>
    rw [List.foldl_cons, ih]
    rfl

/-- What POWER_ON leaves beside the registers of the first area and of BOOT. -/
theorem doPowerOn_eq (s : State) : ∃ (r : Tab Nat) (o : List Out) (f : List (List Nat)) (c : Nat),
    doPowerOn s = { State.reset with
      pending := s.pending, out := o, freeCtr := s.freeCtr, regs := r
      sys := { Sys.start with rails := false, held := true, recCopy := c, slotA := s.sys.slotA, slotB := s.sys.slotB }
      cairn := { Cairn.start with first := f, mirror := s.cairn.mirror, boot := (s.cairn.boot + 1) % 65536 } } := by
  unfold doPowerOn
  dsimp only
  rw [setRegs_eq]
  exact ⟨_, _, _, _, rfl⟩

theorem doPowerOn_leaves (s : State) :
    (doPowerOn s).clk = Clock.start ∧ (doPowerOn s).blocksStart ∧ (doPowerOn s).pend = [] ∧ (doPowerOn s).hst = Hst.start ∧
      (doPowerOn s).tme = Tme.start ∧ (doPowerOn s).chk = Chk.start ∧ (doPowerOn s).sys.held = true ∧
      (doPowerOn s).sys.rails = false ∧ (doPowerOn s).cairn.boot = (s.cairn.boot + 1) % 65536 ∧
      (doPowerOn s).cairn.mirror = s.cairn.mirror ∧ (doPowerOn s).cairn.last = [] := by
  obtain ⟨r, o, f, c, h⟩ := doPowerOn_eq s
  rw [h]
  exact ⟨rfl, ⟨rfl, rfl, rfl, rfl, rfl, rfl, rfl, rfl, rfl, rfl, rfl, rfl, rfl, rfl⟩, rfl, rfl, rfl, rfl, rfl, rfl, rfl, rfl, rfl⟩

/-- The last of several register writes. -/
theorem setRegs_append (s : State) (l m : List (Fld × Nat × Nat)) : s.setRegs (l ++ m) = (s.setRegs l).setRegs m := by
  unfold State.setRegs
  exact List.foldl_append

/-- The failed-start count and SELECT come back as the flash holds them. -/
theorem doPowerOn_reg (s : State) :
    (doPowerOn s).reg .SYS_START_REASON_COUNT = s.reg .SYS_START_REASON_COUNT % 16 ∧
      (doPowerOn s).reg .SYS_BOOT_SELECT = s.reg .SYS_BOOT_SELECT % 2 := by
  have hlast (u : State) (l : List (Fld × Nat × Nat)) (a b : Nat) :
      (u.setRegs (l ++ [(.SYS_START_REASON_COUNT, 0, a), (.SYS_BOOT_SELECT, 0, b)])).reg .SYS_START_REASON_COUNT = a % 16 ∧
      (u.setRegs (l ++ [(.SYS_START_REASON_COUNT, 0, a), (.SYS_BOOT_SELECT, 0, b)])).reg .SYS_BOOT_SELECT = b % 2 := by
    rw [setRegs_append]
    exact ⟨(State.reg_setReg_ne (f := .SYS_BOOT_SELECT) (i := 0) _ (by decide) b (by decide) (by decide)).trans
      (State.reg_setReg _ _ 0 a), State.reg_setReg _ _ 0 b⟩
  have hshown (u : State) (f : Fld) : u.writeRecord.showPins.reg f = u.reg f := rfl
  unfold doPowerOn
  dsimp only
  rw [hshown, hshown]
  exact hlast _ [_, _, _, _, _] _ _

/-! ### Releases (R583, R603, R646) -/

theorem doInternalResetRelease_starts {s : State} (hh : s.sys.held = true) (ht : s.sys.thermHold = false) :
    doInternalResetRelease s =
      (let mv := 700 + Config.avsTarget % 101
       let u := (s.setReg .SYS_STRAPS_UNIT_ID 0 (Config.strapUnit % 2)).setReg .SYS_STRAPS_MGMT_SEL 0 (Config.strapMgmt % 2)
       ((({ u with sys := { u.sys with rails := true, pinLow := false, held := false } } : State).setReg .SYS_AVS_TARGET_MV 0 mv).emit
         (.pin 3 0 mv)).beginStart (s.reg .SYS_START_REASON_CAUSE)) := by
  have hcause (y : Sys) (a b c : Nat) : (({ (s.setReg .SYS_STRAPS_UNIT_ID 0 a).setReg .SYS_STRAPS_MGMT_SEL 0 b with
      sys := y } : State).setReg .SYS_AVS_TARGET_MV 0 c).reg .SYS_START_REASON_CAUSE = s.reg .SYS_START_REASON_CAUSE := by
    refine (State.reg_setReg_ne _ (by decide) _ (by decide) (by decide)).trans ?_
    refine (State.reg_setReg_ne (s.setReg .SYS_STRAPS_UNIT_ID 0 a) (by decide) b (by decide) (by decide)).trans ?_
    exact State.reg_setReg_ne _ (by decide) _ (by decide) (by decide)
  unfold doInternalResetRelease
  rw [hh, if_neg (by decide)]
  dsimp only
  rw [← hcause { s.sys with rails := true, pinLow := false, held := false } (Config.strapUnit % 2) (Config.strapMgmt % 2)
    (700 + Config.avsTarget % 101)]
  exact if_neg (by change ¬s.sys.thermHold = true; rw [ht]; decide)

theorem doThermalHoldRelease_ends {s : State} (ht : s.sys.thermHold = true) :
    doThermalHoldRelease s =
      (let u : State := { s with sys := { s.sys with thermHold := false } }
       if s.sys.rails = true ∧ s.sys.pinLow = false then ({ u with sys := { u.sys with held := false } } : State).beginStart 6 else u) := by
  unfold doThermalHoldRelease
  rw [ht, if_neg (by decide)]
  exact if_congr (and_congr_right fun _ => Iff.of_eq (Bool.not_eq_true' _)) rfl rfl

theorem doThermalHoldRelease_clk (s : State) : (doThermalHoldRelease s).clk = s.clk := by
  unfold doThermalHoldRelease
  dsimp only
  split
  · rfl
  · split
    · exact beginStart_clk _ _
    · rfl

/-! ### Watchdogs and block resets (R585, R587) -/

/-- In service a first watchdog, or one long after the last, only frees its core's locks and is noted. -/
theorem doWatchdogExpiry_first {s : State} {c : Nat} (hc : c < 4) (hs : s.reg .SYS_STATUS_START = 3)
    (hw : s.sys.watchAt = 0 ∨ s.sys.watchAt + 60000000 < s.clk.tickCount + 1) :
    doWatchdogExpiry c s = ({ s with sys := { s.sys with watchAt := s.clk.tickCount + 1 } } : State).abandon (16 + c) := by
  have hnot : ¬s.starting = true := by
    unfold State.starting State.startState
    rw [hs]
    exact fun h => absurd (Bool.and_eq_true_iff.1 h).1 (by decide)
  unfold doWatchdogExpiry
  rw [if_neg (by omega), if_neg hnot, if_neg fun h => h hs]
  exact if_neg fun ⟨h0, hle⟩ => hw.elim h0 fun h => by omega

/-- A reset of the mailbox block leaves no message and no lock, and keeps the bindings and LOCKED. -/
theorem resetMbx_leaves (s : State) {n : Nat} (hn : n < 8192) :
    (s.resetMbx.dropHalves 2).reg .MBX_CH_STATUS_FULL n = 0 ∧ (s.resetMbx.dropHalves 2).reg .MBX_LOCK_HELD n = 0 ∧
      (s.resetMbx.dropHalves 2).reg .MBX_CH_BIND_VALID n = s.reg .MBX_CH_BIND_VALID n ∧
      (s.resetMbx.dropHalves 2).reg .MBX_CTRL_LOCKED n = s.reg .MBX_CTRL_LOCKED n := by
  refine ⟨?_, ?_, ?_, ?_⟩ <;> rw [resetMbx_reg s _ n hn (by decide)]
  · rw [if_pos (by decide)]; rfl
  · rw [if_pos (by decide)]; rfl
  · rw [if_neg (by decide)]
  · rw [if_neg (by decide)]

theorem resetMbx_mbx (s : State) : (s.resetMbx.dropHalves 2).mbx = Mbx.start := by
  unfold State.resetMbx State.clearUnit State.dropHalves
  dsimp only
  rw [State.setRegs_mbx]

theorem doSysBlockReset_mbx (s : State) : doSysBlockReset 2 s = s.resetMbx.dropHalves 2 := by
  unfold doSysBlockReset
  dsimp only
  rw [if_neg (by decide), if_pos (by decide), if_neg (by decide)]

/-- Settles O22: each row is the branch its conditions select. -/
theorem resetRowsComplete : Obligations.ResetRowsComplete := by
  unfold Obligations.ResetRowsComplete
  refine ⟨?powerOn, ?release, ?thermal, fun s c => beginStart_eq s c, ?clear, ?watchdog, ?mbx, ?blocks⟩
  case powerOn =>
    intro s
    obtain ⟨hclk, hblocks, hpend, hhst, htme, hchk, hheld, hrails, hboot, hmirror, hlast⟩ := doPowerOn_leaves s
    obtain ⟨hcount, hselect⟩ := doPowerOn_reg s
    refine ⟨_, (runReset_start hclk : execPowerOn s = _), ?_⟩
    generalize doPowerOn s = t at *
    exact ⟨rfl, hclk, hblocks, hpend, hhst, htme, hchk, hheld, hrails, hboot, hmirror, hlast, hcount, hselect⟩
  case release =>
    intro s hh ht
    have hrun := doInternalResetRelease_starts hh ht
    refine yields_reset (f := doInternalResetRelease) rfl ?_ (by rw [hrun]; exact Agree.refl _)
    rw [hrun]
    exact beginStart_clk _ _
  case thermal =>
    intro s ht
    refine yields_reset (f := doThermalHoldRelease) rfl (doThermalHoldRelease_clk s) ?_
    rw [doThermalHoldRelease_ends ht]
    exact Agree.refl _
  case clear =>
    intro s who hw
    have hmay : startWriter who = true := by rcases hw with rfl | rfl | rfl <;> decide
    exact yields_eq (f := doStartClear who) rfl ((if_pos hmay).trans (setCount_eq s (by decide)))
  case watchdog =>
    intro s c hc hs hw
    have hrun := doWatchdogExpiry_first hc hs hw
    refine yields_reset (f := doWatchdogExpiry c) rfl ?_ (by rw [hrun]; exact Agree.refl _)
    rw [hrun]
    exact abandon_clk _ _
  case mbx =>
    intro s
    have hmbx := resetMbx_mbx s
    have hreg (n : Nat) (hn : n < 8192) := resetMbx_leaves s hn
    rw [← doSysBlockReset_mbx] at hmbx hreg
    refine ⟨_, rfl, ?_⟩
    generalize doSysBlockReset 2 s = t at *
    exact ⟨hmbx, hreg⟩
  case blocks => exact fun s mask => yields_eq (f := doSysBlockReset mask) rfl rfl

end Machine
end Sys2Proof
end

section
/-!
PROOFS. References, DPLLs and ESMC (R431-R434, R441, R442, R446, R449, R453, R454).
-/
namespace Sys2Proof
namespace Machine

/-! ### Signals of slots (R431, R434) -/

theorem doRefSignalLoss_lost {s : State} {n quiet : Nat} (hn : n ≤ 12)
    (h : if n < 8 then s.slotUp n = false else if n < 12 then s.inputLost n quiet = true else s.refSignal 12 = false) :
    doRefSignalLoss n quiet s = s.signalLost n := by
  unfold doRefSignalLoss
  refine if_pos ?_
  by_cases h8 : n < 8
  · rw [if_pos h8] at h ⊢
    rw [h]; rfl
  · by_cases h12 : n < 12
    · rw [if_neg h8, if_pos h12] at h ⊢
      exact h
    · obtain rfl : n = 12 := by omega
      rw [if_neg h8, if_neg h12] at h ⊢
      rw [h]; rfl

theorem doRefSignalLoss_present {s : State} {n quiet : Nat}
    (h : if n < 8 then s.slotUp n = true else if n < 12 then s.inputLost n quiet = false else n = 12 → s.refSignal 12 = true) :
    doRefSignalLoss n quiet s = s := by
  unfold doRefSignalLoss
  refine if_neg ?_
  by_cases h8 : n < 8
  · rw [if_pos h8] at h ⊢
    rw [h]; decide
  · by_cases h12 : n < 12
    · rw [if_neg h8, if_pos h12] at h ⊢
      rw [h]; decide
    · rw [if_neg h8, if_neg h12] at h ⊢
      intro ht
      obtain ⟨he, hs⟩ := Bool.and_eq_true_iff.1 ht
      rw [h (beq_iff_eq.1 he)] at hs
      exact absurd hs (by decide)

theorem doRefSignalReturn_returns {s : State} {n : Nat} (hn : n ≤ 12)
    (h : if n < 8 then s.slotUp n = true else if n < 12 then True else s.refSignal 12 = true) :
    ¬(12 < n ∨ (n = 12 ∧ !s.refSignal 12) ∨ (n < 8 ∧ !s.slotUp n)) := by
  rintro (h' | ⟨rfl, h'⟩ | ⟨h8, h'⟩)
  · omega
  · rw [if_neg (by decide), if_neg (by decide)] at h
    rw [h] at h'
    exact absurd h' (by decide)
  · rw [if_pos h8] at h
    rw [h] at h'
    exact absurd h' (by decide)

/-! ### Qualification (R434) -/

theorem ckey_lt {d n : Nat} (hd : d ≤ 1) (hn : n ≤ 12) : ckey d n < 8192 := by
  unfold ckey; omega

/-- The two fields of a candidate's status written together. -/
theorem setStatus_state (s : State) {i st : Nat} (reason : Nat) (hi : i < 8192) (hst : st < 8) :
    (s.setRegs [(.REF_C_STATUS_STATE, i, st), (.REF_C_STATUS_REASON, i, reason)]).reg .REF_C_STATUS_STATE i = st := by
  have hne : Fld.REF_C_STATUS_STATE ≠ .REF_C_STATUS_REASON := by decide
  have hw : 2 ^ Fld.width .REF_C_STATUS_STATE = 8 := by decide
  change ((s.setReg .REF_C_STATUS_STATE i st).setReg .REF_C_STATUS_REASON i reason).reg .REF_C_STATUS_STATE i = st
  rw [State.reg_setReg_ne _ hne _ hi hi, State.reg_setReg, hw, Nat.mod_eq_of_lt hst]

/-- A candidate that changes state shows the new one. -/
theorem setCand_cand {s : State} {d n : Nat} (st reason : Nat) (loss : Option Nat) (hi : ckey d n < 8192) (hst : st < 8) :
    (s.setCand d n st reason loss).cand d n = st := by
  have hset := setStatus_state s reason hi hst
  have hdpll (u : State) (c : Prop) [Decidable c] (x : Dpll) : (if c then u.setDpll d x else u).regs = u.regs := by
    split <;> rfl
  have htally (u : State) : Agree (if reason = 0 then u else (u.tally 7 2 1 reason 0 d 1).tally 7 2 1 reason 1 n 1) u := by
    split
    · exact Agree.refl _
    · exact (agree_tally _ _ _ _ _ _ _ (by decide)).trans (agree_tally _ _ _ _ _ _ _ (by decide))
  unfold State.setCand
  dsimp only
  generalize s.setRegs [(.REF_C_STATUS_STATE, ckey d n, st), (.REF_C_STATUS_REASON, ckey d n, reason)] = t at *
  split
  · assumption
  · refine (((agree_evSum _ _ _ _).trans (htally _)).reg rfl hi).trans ?_
    refine (State.reg_of_regs (t := t) ?_ _ _).trans hset
    exact hdpll _ _ _

theorem qualified_within {s : State} {d n : Nat} {o : Int} (hd : d ≤ 1) (hn : n ≤ 12) (hc : s.cand d n = 2)
    (ho : s.offset n = some o) (hw : o.natAbs < 256 * s.reg .REF_C_SOFT_PPB (ckey d n))
    (ht : tget 0 s.ref.qualAt (ckey d n) + s.reg .REF_C_QUAL_TICKS (ckey d n) ≤ s.clk.tickCount) :
    s.qualified d n = s.setCand d n 3 0 none := by
  unfold State.qualified
  rw [ho]
  refine if_neg ?_
  rintro (h | h | h | h | h)
  · omega
  · omega
  · exact h hc
  · have hs : s.beyondSoft d n o = false := decide_eq_false (by omega)
    dsimp only at h
    rw [hs] at h
    exact absurd h (by decide)
  · omega

theorem qualified_not {s : State} {d n : Nat} (h : 1 < d ∨ 12 < n ∨ s.cand d n ≠ 2 ∨ s.offset n = none ∨
    (∃ o, s.offset n = some o ∧ 256 * s.reg .REF_C_SOFT_PPB (ckey d n) ≤ o.natAbs) ∨
    s.clk.tickCount < tget 0 s.ref.qualAt (ckey d n) + s.reg .REF_C_QUAL_TICKS (ckey d n)) :
    s.qualified d n = s := by
  unfold State.qualified
  refine if_pos ?_
  rcases h with h | h | h | h | ⟨o, ho, hb⟩ | h
  · exact .inl h
  · exact .inr (.inl h)
  · exact .inr (.inr (.inl h))
  · rw [h]; exact .inr (.inr (.inr (.inl rfl)))
  · have hs : s.beyondSoft d n o = true := decide_eq_true hb
    rw [ho]
    exact .inr (.inr (.inr (.inl (by dsimp only; rw [hs]; rfl))))
  · exact .inr (.inr (.inr (.inr h)))

theorem doCandidateQualified_valid {s : State} {d n : Nat} (h0 : s.clk.cycle = 0) (hi : ckey d n < 8192) (hc : s.cand d n = 2)
    (hq : s.qualified d n = s.setCand d n 3 0 none) :
    doCandidateQualified d n s = ((s.setCand d n 3 0 none).selection d).showCand d n := by
  unfold doCandidateQualified
  rw [hq]
  refine if_neg ?_
  rintro (h | h)
  · exact h h0
  · rw [setCand_cand 3 0 none hi (by decide), hc] at h
    exact absurd h (by decide)

theorem doCandidateQualified_not {s : State} {d n : Nat} (h : s.clk.cycle ≠ 0 ∨ s.qualified d n = s) :
    doCandidateQualified d n s = s := by
  unfold doCandidateQualified
  refine if_pos (h.imp_right fun hq => ?_)
  rw [hq]

/-! ### The XO (R433, R449) -/

theorem doXoPpbUpdate_runs {s : State} (h : ¬(s.clk.tickCount % 1000 ≠ 0 ∨ s.ref.xoAt = s.clk.tickCount + 1 ∨ s.dpllState 0 ≠ 3 ∨
      12 ≤ s.selected 0 ∨ !s.traceable)) :
    Agree (doXoPpbUpdate s) (let u := s.setReg .REF_XO_PPB 0 (unsgn 31 (-(coarse (s.dpll 0).ctl)))
        ({ u with ref := { u.ref with xoAt := s.clk.tickCount + 1 } } : State).setReg .REF_XO_TRUSTED 0
          (b2n (decide (0 < s.reg .REF_XO_TRUST_S)))) := by
  unfold doXoPpbUpdate
  rw [if_neg h]
  dsimp only
  rw [State.reg_setReg_ne (f := .REF_XO_PPB) s (by decide) _ (by decide) (by decide)]
  exact agree_evIf _ _ _ _

theorem agree_doXoTrustExpiry {s : State} (ht : s.trusted = true)
    (ha : s.reg .REF_XO_TRUST_S * 10 ^ 6 ≤ s.clk.tickCount + 1 - s.ref.xoAt) :
    Agree (doXoTrustExpiry s) (s.setReg .REF_XO_TRUSTED 0 0) := by
  unfold doXoTrustExpiry
  dsimp only
  rw [if_neg fun h => h.elim (fun h => by rw [ht] at h; exact absurd h (by decide)) (by omega)]
  exact agree_ev _ _ _

/-! ### The loop (R441, R442) -/

theorem doDpllLockDetect_other {s : State} {d : Nat} {v : Int} (h : s.dpllState d ≠ 1) : doDpllLockDetect d v s = s :=
  if_pos (.inr (.inl h))

theorem doDpllLockDetect_acquire {s : State} {d : Nat} {v : Int} (hd : d ≤ 1) (h : s.dpllState d = 1) (hn : s.selected d < 12) :
    doDpllLockDetect d v s = (let u := s.phaseShown d v
      if u.clk.tickCount < (u.dpll d).withinAt + 10 ^ 6 then u
      else (u.setDpll d { u.dpll d with stepAt := u.clk.tickCount }).setDpllState d 2) :=
  if_neg (by rintro (h' | h' | h') <;> [omega; exact h' h; omega])

theorem doDpllAcqTimeout_other {s : State} {d : Nat} (h : s.dpllState d ≠ 1) : doDpllAcqTimeout d s = s :=
  if_pos (.inr (.inl h))

theorem doDpllNarrowStep_other {s : State} {d : Nat} (h : s.dpllState d ≠ 2) : doDpllNarrowStep d s = s :=
  if_pos (.inr (.inl h))

theorem doDpllNarrowStep_steps {s : State} {d : Nat} (hd : d ≤ 1) (h : s.dpllState d = 2) (hn : s.selected d < 12)
    (ht : (s.dpll d).stepAt + max (10 ^ 6) (10 ^ 9 * 2 ^ 20 / max 1 (s.dpll d).bw) ≤ s.clk.tickCount) :
    doDpllNarrowStep d s = if (s.dpll d).bw / 2 ≤ s.candBw d (s.selected d) then
      (s.setBw d (s.candBw d (s.selected d))).setDpllState d 3 else s.setBw d ((s.dpll d).bw / 2) := by
  refine if_neg ?_
  rintro (h' | h' | h' | h')
  · omega
  · exact h' h
  · omega
  · exact absurd ht (Nat.not_le.2 h')

theorem doDpllPhaseLoss_within {s : State} {d : Nat} {v : Int} (h : v.natAbs ≤ 10000) : doDpllPhaseLoss d v s = s :=
  if_pos (.inr (.inr (.inr h)))

theorem doDpllPhaseLoss_acquire {s : State} {d : Nat} {v : Int} (h : s.dpllState d = 1) : doDpllPhaseLoss d v s = s :=
  if_pos (.inr (.inl (by rw [h]; decide)))

theorem doDpllPhaseLoss_lost {s : State} {d : Nat} {v : Int} (hd : d ≤ 1) (h : s.dpllState d = 2 ∨ s.dpllState d = 3)
    (hn : s.selected d < 12) (hv : 10000 < v.natAbs) : doDpllPhaseLoss d v s = (s.phaseShown d v).acquire d := by
  refine if_neg ?_
  rintro (h' | ⟨h2, h3⟩ | h' | h')
  · omega
  · exact h.elim h2 h3
  · omega
  · omega

/-! ### ESMC (R453, R454) -/

theorem agree_doEsmcTimeout {s : State} {k : Nat} (hk : k < 8) (hs : s.reg .REF_SLOT_QL_ESMC_SEEN k = 1)
    (ht : tget 0 s.ref.pduAt k + 5 * 10 ^ 6 ≤ s.clk.tickCount + 1) :
    Agree (doEsmcTimeout k s)
      ((({ s with ref := { s.ref with tlv := tdel k s.ref.tlv } } : State).setReg .REF_SLOT_QL_ESMC_SEEN k 0).setGrade k 15) := by
  have hflag := (flag_eq_true s .REF_SLOT_QL_ESMC_SEEN k).2 hs
  unfold doEsmcTimeout
  rw [if_neg]
  · exact (agree_tally _ _ _ _ _ _ _ (by decide)).trans (agree_ev _ _ _)
  · rintro (h | h | h)
    · omega
    · rw [hflag] at h; exact absurd h (by decide)
    · omega

/-- Settles O46: each row is the branch its conditions select. -/
theorem referenceRowsComplete : Obligations.ReferenceRowsComplete := by
  unfold Obligations.ReferenceRowsComplete
  refine ⟨?gateOpen, ?gateEnd, ?loss, ?back, ?noLoss, ?noReturn, ?qualified, ?unqualified, ?noSecond, ?second, ?ppb, ?trust, ?loop,
    ?pdu, ?timeout, ?noTimeout, ?send⟩
  case gateOpen => exact fun s l h => yields_eq (f := doRefGateEnd l) rfl (if_pos h)
  case gateEnd => exact fun s l h => yields_eq (f := doRefGateEnd l) rfl (if_neg (Nat.not_lt.2 h))
  case loss => exact fun s n quiet hn h => yields_eq (f := doRefSignalLoss n quiet) rfl (doRefSignalLoss_lost hn h)
  case back =>
    exact fun s n hn h => yields_eq (f := doRefSignalReturn n) rfl (if_neg (doRefSignalReturn_returns hn h))
  case noLoss => exact fun s n quiet h => yields_eq (f := doRefSignalLoss n quiet) rfl (doRefSignalLoss_present h)
  case noReturn =>
    refine fun s n h => yields_eq (f := doRefSignalReturn n) rfl (if_pos ?_)
    rcases h with h | ⟨h, hs⟩ | ⟨h, hs⟩
    · exact .inl h
    · exact .inr (.inl ⟨h, by rw [hs]; rfl⟩)
    · exact .inr (.inr ⟨h, by rw [hs]; rfl⟩)
  case qualified =>
    intro s d n o h0 hd hn hc ho hw ht
    exact yields_eq (f := doCandidateQualified d n) rfl
      (doCandidateQualified_valid h0 (ckey_lt hd hn) hc (qualified_within hd hn hc ho hw ht))
  case unqualified =>
    exact fun s d n h => yields_eq (f := doCandidateQualified d n) rfl (doCandidateQualified_not (h.imp_right qualified_not))
  case noSecond => exact fun s h => yields_eq (f := doHistorySecond) rfl (if_pos h)
  case second => exact fun s h => yields_eq (f := doHistorySecond) rfl (if_neg (Nat.not_lt.2 h))
  case ppb =>
    refine fun s => ⟨fun h1 h2 h3 h4 h5 => yields_run (f := doXoPpbUpdate) rfl (doXoPpbUpdate_runs ?_), fun h =>
      yields_eq (f := doXoPpbUpdate) rfl (if_pos ?_)⟩
    · rintro (h | h | h | h | h)
      · exact h h1
      · exact h2 h
      · exact h h3
      · omega
      · rw [h5] at h; exact absurd h (by decide)
    · rcases h with h | h | h | h | h
      exacts [.inl h, .inr (.inl h), .inr (.inr (.inl h)), .inr (.inr (.inr (.inl h))), .inr (.inr (.inr (.inr (by rw [h]; rfl))))]
  case trust =>
    refine fun s => ⟨fun ht ha => yields_run (f := doXoTrustExpiry) rfl (agree_doXoTrustExpiry ht ha), fun h =>
      yields_eq (f := doXoTrustExpiry) rfl (if_pos (h.imp_left fun ht => by rw [ht]; rfl))⟩
  case loop =>
    intro s d v hd hn
    refine ⟨fun h => ?acquire, fun h => ?narrow, fun h => ?locked, fun h => ⟨fun hv => ?_, fun hv => ?_⟩⟩
    case acquire =>
      have h2 : s.dpllState d ≠ 2 := by omega
      refine ⟨fun ht => ?_, fun ht => ?_, fun ht => ?_, fun ht => ?_, ?_, ?_⟩
      · exact yields_eq (f := doDpllLockDetect d v) rfl ((doDpllLockDetect_acquire hd h hn).trans (if_pos ht))
      · exact yields_eq (f := doDpllLockDetect d v) rfl ((doDpllLockDetect_acquire hd h hn).trans (if_neg (Nat.not_lt.2 ht)))
      · refine yields_eq (f := doDpllAcqTimeout d) rfl (if_neg ?_)
        rintro (h' | h' | h' | h')
        · omega
        · exact h' h
        · omega
        · omega
      · exact yields_eq (f := doDpllAcqTimeout d) rfl (if_pos (.inr (.inr (.inr ht))))
      · exact yields_eq (f := doDpllNarrowStep d) rfl (doDpllNarrowStep_other h2)
      · exact yields_eq (f := doDpllPhaseLoss d v) rfl (doDpllPhaseLoss_acquire h)
    case narrow =>
      have h1 : s.dpllState d ≠ 1 := by omega
      refine ⟨?_, ?_, fun ht => ?_, fun ht hb => ?_, fun ht hb => ?_⟩
      · exact yields_eq (f := doDpllLockDetect d v) rfl (doDpllLockDetect_other h1)
      · exact yields_eq (f := doDpllAcqTimeout d) rfl (doDpllAcqTimeout_other h1)
      · exact yields_eq (f := doDpllNarrowStep d) rfl (if_pos (.inr (.inr (.inr ht))))
      · exact yields_eq (f := doDpllNarrowStep d) rfl ((doDpllNarrowStep_steps hd h hn ht).trans (if_neg (Nat.not_le.2 hb)))
      · exact yields_eq (f := doDpllNarrowStep d) rfl ((doDpllNarrowStep_steps hd h hn ht).trans (if_pos hb))
    case locked =>
      have h1 : s.dpllState d ≠ 1 := by omega
      have h2 : s.dpllState d ≠ 2 := by omega
      exact ⟨yields_eq (f := doDpllLockDetect d v) rfl (doDpllLockDetect_other h1),
        yields_eq (f := doDpllAcqTimeout d) rfl (doDpllAcqTimeout_other h1),
        yields_eq (f := doDpllNarrowStep d) rfl (doDpllNarrowStep_other h2)⟩
    · exact yields_eq (f := doDpllPhaseLoss d v) rfl (doDpllPhaseLoss_lost hd h hn hv)
    · exact yields_eq (f := doDpllPhaseLoss d v) rfl (doDpllPhaseLoss_within hv)
  case pdu => exact fun s p ssm t => yields_eq (f := doEsmcPduReceive p ssm t) rfl rfl
  case timeout => exact fun s k hk hs ht => yields_run (f := doEsmcTimeout k) rfl (agree_doEsmcTimeout hk hs ht)
  case noTimeout =>
    refine fun s k h => yields_eq (f := doEsmcTimeout k) rfl (if_pos (h.imp_right (Or.imp_left fun hs => ?_)))
    rw [(flag_eq_false s .REF_SLOT_QL_ESMC_SEEN k).2 hs]; rfl
  case send =>
    refine fun s => ⟨fun he hi => ?_, fun h => ?_, fun h => ?_, fun h => ?_⟩
    · refine yields_eq (f := doEsmcInfoSend) rfl (if_neg ?_)
      rintro (h | ⟨h0, ht⟩)
      · rw [(flag_eq_true s .REF_ESMC_EN 0).2 he] at h; exact absurd h (by decide)
      · exact hi.elim h0 (by omega)
    · refine yields_eq (f := doEsmcInfoSend) rfl (if_pos (h.imp_left fun he => ?_))
      rw [(flag_eq_false s .REF_ESMC_EN 0).2 he]; rfl
    · exact yields_eq (f := doEsmcEventSend) rfl (if_neg h)
    · exact yields_eq (f := doEsmcEventSend) rfl (if_pos h)

end Machine
end Sys2Proof
end

section
/-!
PROOFS. Clock outputs and their gates (R462, R468-R470, R472, R473, R475).
-/
namespace Sys2Proof
namespace Machine

/-! ### Bypass (R472, R473) -/

theorem bypassed_none {s : State} {mask : Nat} (h : ∀ n, n < 16 → bit mask n = true → s.outState n = 0 ∨ s.outState n = 3) :
    ((List.range 16).filter fun n => bit mask n && s.outState n != 0 && s.outState n != 3) = [] := by
  refine List.filter_eq_nil_iff.2 fun n hn hp => ?_
  simp only [Bool.and_eq_true, bne_iff_ne] at hp
  obtain ⟨⟨hb, h0⟩, h3⟩ := hp
  exact (h n (List.mem_range.1 hn) hb).elim h0 h3

theorem bypassed_one {s : State} {mask n : Nat} (hn : n < 16) (hb : bit mask n = true) (h0 : s.outState n ≠ 0) (h3 : s.outState n ≠ 3)
    (hk : ∀ k, k < 16 → k ≠ n → bit mask k = false) :
    ((List.range 16).filter fun n => bit mask n && s.outState n != 0 && s.outState n != 3) = [n] := by
  refine filter_one _ _ n (fun k hr hp => ?_) List.nodup_range (List.mem_range.2 hn) ?_
  · by_contra hne
    rw [hk k (List.mem_range.1 hr) hne] at hp
    exact Bool.false_ne_true hp
  · simp only [Bool.and_eq_true, bne_iff_ne]
    exact ⟨⟨hb, h0⟩, h3⟩

theorem doSynthLockLoss_none {s : State} {mask : Nat} (line : Bool)
    (h : ((List.range 16).filter fun n => bit mask n && s.outState n != 0 && s.outState n != 3) = []) :
    doSynthLockLoss mask line s = s := by
  unfold doSynthLockLoss
  dsimp only
  rw [h]
  rfl

theorem agree_doSynthLockLoss_one {s : State} {mask n : Nat} (line : Bool)
    (h : ((List.range 16).filter fun n => bit mask n && s.outState n != 0 && s.outState n != 3) = [n]) :
    Agree (doSynthLockLoss mask line s)
      (let u := (s.setPin n { s.outPin n with
         want := (s.outPin n).want || s.outState n == 2, slewing := false, ready := false, load := none
         cause := if line then 2 else 1, since := s.clk.tickCount }).setOutState n 3
       if line then u.setLine n false else u) := by
  unfold doSynthLockLoss
  dsimp only
  rw [h, List.foldl_cons, List.foldl_nil]
  refine (agree_tally _ _ _ _ _ _ _ (by decide)).trans ?_
  refine (agree_evT _ _ _).trans ?_
  exact Agree.refl _

theorem agree_doBypassReturn {s : State} {n : Nat} (hn : n < 16) (h3 : s.outState n = 3)
    (hw : (s.outPin n).want = true ∨ 8 ≤ n ∨ s.reg .OUT_CLK_CFG_AUTO_RET n = 1)
    (ht : (s.outPin n).since + 1000 * s.reg .OUT_CFG_RET_MS ≤ s.clk.tickCount) :
    Agree (doBypassReturn n s)
      (let per := if n < 8 then s.outPeriod n else 0
       let u := (s.setPin n { s.outPin n with per := per, ofs := nearRaster per (Config.freePhase s.freeCtr), divChange := false }).fresh
       let v := ((u.setOutState n 1).setLine n true).showOfs n
       let w := if n < 8 then v.setReg .OUT_CLK_STATUS_NEED_ALIGN n 1 else v
       if (s.outPin n).want then (w.evT 192 [(1, outBit n, .or), (1, (s.outPin n).cause, .keep), (1, 2, .keep)]).alignStart n false else w) := by
  unfold doBypassReturn
  dsimp only
  rw [if_neg]
  · split
    · exact Agree.refl _
    · exact agree_evT _ _ _
  · rintro (h | h | ⟨h, h8, ha⟩ | h)
    · omega
    · exact h h3
    · rcases hw with hw | hw | hw
      · rw [hw] at h; exact absurd h (by decide)
      · omega
      · rw [(flag_eq_true s .OUT_CLK_CFG_AUTO_RET n).2 hw] at ha; exact absurd ha (by decide)
    · omega

/-! ### Divider loads and claim gates (R462, R475) -/

theorem agree_doOutDivLoad (s : State) : Agree (doOutDivLoad s)
    (((List.range 8).filter fun n => match (s.outPin n).load with | some t => decide (t ≤ s.clk.tickCount ∧ s.clk.cycle = 0) | none => false).foldl
      (fun (u : State) n =>
        let x := u.outPin n
        ((u.setPin n { x with
          ofs := 0, phase := u.sreg .OUT_CLK_PHASE_PS n, per := u.outPeriod n, load := none, divChange := false
          ready := u.outState n == 2
          move := -(toPs (nearRaster x.per (x.phase * outUnit - u.sreg .OUT_CLK_PHASE_PS n * outUnit + x.ofs))) }).showOfs n).outWave n) s) := by
  unfold doOutDivLoad
  dsimp only
  split
  · exact Agree.refl _
  · exact agree_ev _ _ _

theorem agree_doOutGateChange {s : State} {n : Nat} {v : Bool} (hn : n < 16) (hs : s.shared n = true) (hc : s.claimGate n ≠ v)
    (hg : s.gateWanted n = v) :
    Agree (doOutGateChange n v s) (let u := (s.setClaimGate n v).emit (.pin 1 n (b2n v))
      u.setPin n { u.outPin n with opened := if v then u.grains + 1 else 0 }) := by
  unfold doOutGateChange
  rw [if_neg]
  · exact (agree_tally _ _ _ _ _ _ _ (by decide)).trans (agree_evT _ _ _)
  · rintro (h | h | h | h)
    · omega
    · rw [hs] at h; exact absurd h (by decide)
    · exact hc h
    · exact h hg

/-- Settles O47: each row is the branch its conditions select, up to the events and accounts it leaves. -/
theorem outputRowsComplete : Obligations.OutputRowsComplete := by
  unfold Obligations.OutputRowsComplete
  refine ⟨?noLoss, ?oneLoss, ?losses, ?back, ?stays, ?load, ?moved, ?notMoved, ?gate, ?noGate⟩
  case noLoss =>
    exact fun s mask h line => yields_eq (f := doSynthLockLoss mask line) rfl (doSynthLockLoss_none line (bypassed_none h))
  case oneLoss =>
    exact fun s mask n line hn hb h0 h3 hk => yields_run (f := doSynthLockLoss mask line) rfl
      (agree_doSynthLockLoss_one line (bypassed_one hn hb h0 h3 hk))
  case losses => exact fun s mask line => yields_eq (f := doSynthLockLoss mask line) rfl rfl
  case back =>
    exact fun s n hn h3 hw ht => yields_run (f := doBypassReturn n) rfl (agree_doBypassReturn hn h3 hw ht)
  case stays =>
    refine fun s n h => yields_eq (f := doBypassReturn n) rfl (if_pos ?_)
    rcases h with h | h | ⟨hw, h8, ha⟩ | h
    · exact .inl h
    · exact .inr (.inl h)
    · refine .inr (.inr (.inl ⟨by rw [hw]; rfl, h8, ?_⟩))
      rw [(flag_eq_false s .OUT_CLK_CFG_AUTO_RET n).2 ha]; rfl
    · exact .inr (.inr (.inr h))
  case load => exact fun s => yields_run (f := doOutDivLoad) rfl (agree_doOutDivLoad s)
  case moved =>
    refine fun s n r hn h2 hr => yields_eq (f := doAlignMoveDone n r) rfl (if_neg ?_)
    rintro (h | h | h)
    · omega
    · exact h h2
    · rw [hr] at h; exact absurd h (by decide)
  case notMoved =>
    refine fun s n r h => yields_eq (f := doAlignMoveDone n r) rfl (if_pos (h.imp_right (Or.imp_right fun hr => ?_)))
    rw [hr]; rfl
  case gate =>
    exact fun s n v hn hs hc hg => yields_run (f := doOutGateChange n v) rfl (agree_doOutGateChange hn hs hc hg)
  case noGate =>
    refine fun s n v h => yields_eq (f := doOutGateChange n v) rfl (if_pos (h.imp_right (Or.imp_left fun hs => ?_)))
    rw [hs]; rfl

end Machine
end Sys2Proof
end

section
/-!
PROOFS. The pair unit and the Mywyn link (R485-R489, R492, R493, R497, R498, R503-R506).
-/
namespace Sys2Proof
namespace Machine

/-! ### Claims (R485, R486) -/

theorem agree_doClaimFrameReceive_repeat {s : State} {frame : Nat} (hf : frame = claimFrame (frame / 2 ^ 16 % 256) (frame / 2 ^ 8 % 256))
    (ha : s.pair.alive = frame / 2 ^ 8 % 256 + 1) : Agree (doClaimFrameReceive frame s) s := by
  unfold doClaimFrameReceive
  dsimp only
  rw [if_neg fun h => h hf, if_pos ha]
  exact agree_tally _ _ _ _ _ _ _ (by decide)

theorem doClaimFrameReceive_new {s : State} {frame : Nat} (hf : frame = claimFrame (frame / 2 ^ 16 % 256) (frame / 2 ^ 8 % 256))
    (ha : s.pair.alive ≠ frame / 2 ^ 8 % 256 + 1) : doClaimFrameReceive frame s =
      (((({ s with pair := { s.pair with alive := frame / 2 ^ 8 % 256 + 1 } } : State).tally 9 2 1 0 0 0 1).tally 9 2 3 0 0 0
        (if s.pair.alive = 0 then 0 else (frame / 2 ^ 8 % 256 + 256 - s.pair.alive) % 256)).claimIn 0 (frame / 2 ^ 16 % 256)) := by
  unfold doClaimFrameReceive
  dsimp only
  rw [if_neg fun h => h hf, if_neg ha]

/-- The claims once source `src` has gone. -/
theorem gone_claim (s : State) {src : Nat} (h : src ≤ 1) (r : Tab Nat) (n : Nat) (b : Bool) :
    tget 0 (if src = 0 then ({ s with pair := { s.pair with
        claim := tdel src s.pair.claim, missed := r, differ := n, told := b } } : State).setReg .PAIR_PATHS_CLAIM_RX 0 0
      else { s with pair := { s.pair with claim := tdel src s.pair.claim, missed := r, differ := n, told := b } }).pair.claim (1 - src) =
    tget 0 s.pair.claim (1 - src) := by
  have hne : 1 - src ≠ src := by omega
  split <;> exact tget_tdel_ne _ hne _

/-- The loss of a source leaves PEER_SRC to what follows. -/
theorem gone_peerSrc (s : State) (src : Nat) (p : Pair) :
    (if src = 0 then ({ s with pair := p } : State).setReg .PAIR_PATHS_CLAIM_RX 0 0 else { s with pair := p }).reg .PAIR_STATUS_PEER_SRC =
      s.reg .PAIR_STATUS_PEER_SRC := by
  split
  · exact State.reg_setReg_ne { s with pair := p } (by decide) _ (by decide) (by decide)
  · rfl

/-- A source that is lost leaves the other's claim in force, or none. -/
theorem doClaimSourceExpiry_lost {s : State} {src : Nat} (h0 : s.clk.cycle = 0) (h1 : src ≤ 1) (hc : tget 0 s.pair.claim src ≠ 0)
    (hm : 4 ≤ tget 0 s.pair.missed src) : doClaimSourceExpiry src s =
      (let gone : State := { s with pair := { s.pair with
         claim := tdel src s.pair.claim, missed := tdel src s.pair.missed, differ := 0, told := false } }
       let u := if src = 0 then gone.setReg .PAIR_PATHS_CLAIM_RX 0 0 else gone
       if tget 0 s.pair.claim (1 - src) = 0 then u.claimLost
       else if s.reg .PAIR_STATUS_PEER_SRC = src + 1 then u.setPeer (tget 0 s.pair.claim (1 - src) - 1) (2 - src)
       else u) := by
  unfold doClaimSourceExpiry
  dsimp only
  rw [if_neg (by omega), gone_claim s h1, gone_peerSrc]

theorem agree_doClaimMismatch {s : State} (h0 : s.clk.cycle = 0) (hd : 2 < s.pair.differ) (ht : s.pair.told = false) :
    Agree (doClaimMismatch s) (({ s with pair := { s.pair with told := true } } : State).setPeer (tget 0 s.pair.claim 0 - 1) 1) := by
  unfold doClaimMismatch
  rw [if_neg]
  · exact agree_ev _ _ _
  · rintro (h | h | h)
    · exact h h0
    · omega
    · rw [ht] at h; exact absurd h (by decide)

/-! ### Messages and lanes (R487, R489) -/

theorem doMywynMessageReceive_aligned {s : State} {k : Nat} (m : MyMsg) (check alive : Nat) (hk : k < 2) (h : s.reg (myFlag k) = 1) :
    doMywynMessageReceive k m check alive s =
      s.queueJob (s.reg .PAIR_CFG_CHK_RX) 2 (k * 8 + m.ty % 8) (.receive k m check (alive % 256) s.wrapNs) := by
  refine if_pos ?_
  match k, hk with
  | 0, _ => exact (flag_eq_true s .PAIR_PATHS_MY0 0).2 h
  | 1, _ => exact (flag_eq_true s .PAIR_PATHS_MY1 0).2 h

theorem doMywynMessageReceive_not {s : State} {k : Nat} (m : MyMsg) (check alive : Nat) (h : 1 < k ∨ s.reg (myFlag k) ≠ 1) :
    doMywynMessageReceive k m check alive s = s := by
  refine if_neg ?_
  match k with
  | 0 =>
    have h0 := h.resolve_left (by decide)
    exact fun hf => h0 ((flag_eq_true s .PAIR_PATHS_MY0 0).1 hf)
  | 1 =>
    have h1 := h.resolve_left (by decide)
    exact fun hf => h1 ((flag_eq_true s .PAIR_PATHS_MY1 0).1 hf)
  | k + 2 =>
    rw [if_neg (by omega)]
    intro hf
    have hk := beq_iff_eq.1 (Bool.and_eq_true_iff.1 hf).1
    omega

/-! ### Epochs and handovers (R497, R498, R503, R504) -/

theorem doEpochBoundary_due {s : State} (h0 : s.clk.cycle = 0) (hb : s.clk.tick % 1024 = 0) (hd : s.pair.epochDone ≠ s.clk.tickCount + 1) :
    doEpochBoundary s = (let u : State := { s with pair := { s.pair with epochDone := s.clk.tickCount + 1 } }
      if s.active ∧ (s.pairState = 2 ∨ s.pairState = 3) ∧ s.mywynUp then u.startEpoch false none else u) := by
  refine if_neg ?_
  rintro (h | h | h)
  · exact h h0
  · exact h hb
  · exact hd h

theorem doEpochApply_none {s : State} (h : s.pair.ready = none) : doEpochApply s = s := by
  unfold doEpochApply
  rw [h]

theorem doEpochApply_some {s : State} {e : EpochIn} (h : s.pair.ready = some e) :
    doEpochApply s = if s.clk.cycle ≠ 0 ∨ s.active ∨ s.flag .SYS_COMMIT_STATUS_PENDING then s else s.applyEpoch e := by
  unfold doEpochApply
  rw [h]

theorem doHandoverInstant_none {s : State} (h : s.pair.handover = none) : doHandoverInstant s = s := by
  unfold doHandoverInstant
  rw [h]

theorem doHandoverInstant_some {s : State} {h : Handover} (hh : s.pair.handover = some h) :
    doHandoverInstant s =
      if s.clk.cycle ≠ 0 ∨ s.clk.tick < h.th then s
      else if !h.acked ∨ !s.mywynUp ∨ s.tme.steps ≠ h.steps ∨ s.pair.peerSteps ≠ h.peer then s.abortHandover
      else (let u := (s.pair.ending.map fun e => s.e206 3 e.1 e.2).getD s
        ({ u with pair := { u.pair with handover := none, ending := some (h.th, h.d) } } : State).setRole (!h.active) 2) := by
  unfold doHandoverInstant
  rw [hh]
  dsimp only
  cases s.pair.ending with
  | none => rw [Option.map_none, Option.getD_none]
  | some e => rw [Option.map_some, Option.getD_some]

theorem doHandoverEnd_none {s : State} (h : s.pair.ending = none) : doHandoverEnd s = s := by
  unfold doHandoverEnd
  rw [h]

theorem doHandoverEnd_some {s : State} {e : Nat × Nat} (he : s.pair.ending = some e) :
    doHandoverEnd s = if s.clk.cycle ≠ 0 ∨ s.gatesPending then s
      else (({ s with pair := { s.pair with ending := none } } : State).e206 1 e.1 e.2).endSwaps
        (fun t => t != (s.pair.handover.map Handover.th).getD 0) stOK := by
  unfold doHandoverEnd
  rw [he]

/-! ### The driver watch (R506) -/

theorem agree_doDriverWatch {s : State} {n : Nat} (hn : n < 16) (hs : s.shared n = true) (hg : s.claimGate n = true)
    (h0 : s.outState n ≠ 0) (ho : (s.outPin n).opened ≠ 0) (hw : s.watchEnd n ((s.outPin n).opened - 1) ≤ s.grains) :
    Agree (doDriverWatch n s) ((s.setPin n { s.outPin n with opened := 0 }).hwSet
      (if n < 8 then .PAIR_HEALTH_DRV_CLK else .PAIR_HEALTH_DRV_TIO) 0 (outBit n)) := by
  unfold doDriverWatch
  dsimp only
  rw [if_neg]
  · refine (agree_tally _ _ _ _ _ _ _ (by decide)).trans ?_
    exact agree_evT _ _ _
  · rintro (h | h | h | h | h | h)
    · omega
    · rw [hs] at h; exact absurd h (by decide)
    · rw [hg] at h; exact absurd h (by decide)
    · exact h0 h
    · exact ho h
    · omega

/-- Settles O49: each row is the branch its conditions select, up to the events and accounts it leaves. -/
theorem pairRowsComplete : Obligations.PairRowsComplete := by
  unfold Obligations.PairRowsComplete
  refine ⟨?frame, ?noExpiry, ?expiry, ?noMismatch, ?mismatch, ?noBeat, ?beat, ?join, ?noJoin, ?messages, ?noLane, ?lane, ?noEpoch,
    ?epoch, ?apply, ?discard, ?noHandover, ?handover, ?noEnd, ?ends, ?watch, ?noWatch⟩
  case frame =>
    intro s sync claim tail
    refine ⟨fun h => ?_, fun h ha => ?_, fun h ha => ?_⟩
    · exact yields_eq (f := doClaimFrameReceive (sync * 2 ^ 24 + claim * 2 ^ 16 + tail)) rfl (if_pos h)
    · exact yields_run (f := doClaimFrameReceive (sync * 2 ^ 24 + claim * 2 ^ 16 + tail)) rfl (agree_doClaimFrameReceive_repeat h ha)
    · exact yields_eq (f := doClaimFrameReceive (sync * 2 ^ 24 + claim * 2 ^ 16 + tail)) rfl (doClaimFrameReceive_new h ha)
  case noExpiry => exact fun s src h => yields_eq (f := doClaimSourceExpiry src) rfl (if_pos h)
  case expiry =>
    intro s src h0 h1 hc hm
    have hlost := doClaimSourceExpiry_lost h0 h1 hc hm
    refine ⟨fun ho => ?_, fun ho hp => ?_, fun ho hp => ?_⟩
    · exact yields_eq (f := doClaimSourceExpiry src) rfl (hlost.trans (if_pos ho))
    · exact yields_eq (f := doClaimSourceExpiry src) rfl (hlost.trans ((if_neg ho).trans (if_pos hp)))
    · exact yields_eq (f := doClaimSourceExpiry src) rfl (hlost.trans ((if_neg ho).trans (if_neg hp)))
  case noMismatch => exact fun s h => yields_eq (f := doClaimMismatch) rfl (if_pos h)
  case mismatch => exact fun s h0 hd ht => yields_run (f := doClaimMismatch) rfl (agree_doClaimMismatch h0 hd ht)
  case noBeat => exact fun s h => yields_eq (f := doHeartbeatBoundary) rfl (if_pos h)
  case beat =>
    refine fun s h0 hb hd hs0 hs5 => yields_eq (f := doHeartbeatBoundary) rfl (if_neg ?_)
    rintro (h | h | h | h | h)
    exacts [h h0, h hb, hd h, hs0 h, hs5 h]
  case join =>
    refine fun s h0 hs hp hj => yields_eq (f := doJoinWaitExpiry) rfl (if_neg ?_)
    rintro (h | h | h | h)
    exacts [h h0, h hs, h hp, absurd hj (Nat.not_le.2 h)]
  case noJoin => exact fun s h => yields_eq (f := doJoinWaitExpiry) rfl (if_pos h)
  case messages =>
    refine fun s m check alive => ⟨?_, fun k hk h => ?_, fun k h => ?_⟩
    · exact yields_eq (f := doHeartbeatFrameReceive m check alive) rfl rfl
    · exact yields_eq (f := doMywynMessageReceive k m check alive) rfl (doMywynMessageReceive_aligned m check alive hk h)
    · exact yields_eq (f := doMywynMessageReceive k m check alive) rfl (doMywynMessageReceive_not m check alive h)
  case noLane =>
    refine fun s k h => yields_eq (f := doMarkerAlignmentLoss k) rfl (if_pos (h.imp_right fun hf => ?_))
    rw [(flag_eq_false s _ 0).2 hf]; rfl
  case lane =>
    refine fun s k hk h => yields_eq (f := doMarkerAlignmentLoss k) rfl (if_neg ?_)
    rintro (h' | h')
    · omega
    · rw [(flag_eq_true s _ 0).2 h] at h'; exact absurd h' (by decide)
  case noEpoch => exact fun s h => yields_eq (f := doEpochBoundary) rfl (if_pos h)
  case epoch =>
    intro s h0 hb hd
    have hdue := doEpochBoundary_due h0 hb hd
    refine ⟨fun ha hs hm => yields_eq (f := doEpochBoundary) rfl (hdue.trans (if_pos ⟨ha, hs, hm⟩)), fun h =>
      yields_eq (f := doEpochBoundary) rfl (hdue.trans (if_neg ?_))⟩
    rintro ⟨ha, hs, hm⟩
    rcases h with h | ⟨h2, h3⟩ | h
    · rw [h] at ha; exact absurd ha (by decide)
    · exact hs.elim h2 h3
    · rw [h] at hm; exact absurd hm (by decide)
  case apply =>
    refine fun s => ⟨fun e h0 hr ha hc => yields_eq (f := doEpochApply) rfl ((doEpochApply_some hr).trans (if_neg ?_)), fun h => ?_⟩
    · rintro (h | h | h)
      · exact h h0
      · rw [ha] at h; exact absurd h (by decide)
      · exact hc ((flag_eq_true s .SYS_COMMIT_STATUS_PENDING 0).1 h)
    · refine yields_eq (f := doEpochApply) rfl ?_
      cases hr : s.pair.ready with
      | none => exact doEpochApply_none hr
      | some e =>
        refine (doEpochApply_some hr).trans (if_pos ?_)
        rcases h with h | h | h | h
        · exact .inl h
        · rw [hr] at h; exact absurd h (Option.some_ne_none e)
        · exact .inr (.inl h)
        · exact .inr (.inr ((flag_eq_true s .SYS_COMMIT_STATUS_PENDING 0).2 h))
  case discard => exact fun s => yields_eq (f := doEpochDiscard) rfl rfl
  case noHandover => exact fun s h => yields_eq (f := doHandoverInstant) rfl (doHandoverInstant_none h)
  case handover =>
    intro s h hh
    have hrun := doHandoverInstant_some hh
    refine ⟨fun hw => ?_, fun h0 ht ha hm hs hp => ?_, fun h0 ht hw => ?_⟩
    · exact yields_eq (f := doHandoverInstant) rfl (hrun.trans (if_pos hw))
    · refine yields_eq (f := doHandoverInstant) rfl (hrun.trans ((if_neg (by omega)).trans (if_neg ?_)))
      rintro (h' | h' | h' | h')
      · rw [ha] at h'; exact absurd h' (by decide)
      · rw [hm] at h'; exact absurd h' (by decide)
      · exact h' hs
      · exact h' hp
    · refine yields_eq (f := doHandoverInstant) rfl (hrun.trans ((if_neg (by omega)).trans (if_pos ?_)))
      rcases hw with hw | hw | hw
      · exact .inl (by rw [hw]; rfl)
      · exact .inr (.inl (by rw [hw]; rfl))
      · exact .inr (.inr hw)
  case noEnd =>
    refine fun s h => yields_eq (f := doHandoverEnd) rfl ?_
    cases he : s.pair.ending with
    | none => exact doHandoverEnd_none he
    | some e =>
      refine (doHandoverEnd_some he).trans (if_pos (h.imp_right fun h => h.resolve_left fun hn => ?_))
      rw [he] at hn; exact absurd hn (Option.some_ne_none e)
  case ends =>
    refine fun s e h0 he hg => yields_eq (f := doHandoverEnd) rfl ((doHandoverEnd_some he).trans (if_neg ?_))
    rintro (h | h)
    · exact h h0
    · rw [hg] at h; exact absurd h (by decide)
  case watch =>
    exact fun s n hn hs hg h0 ho hw => yields_run (f := doDriverWatch n) rfl (agree_doDriverWatch hn hs hg h0 ho hw)
  case noWatch =>
    refine fun s n h => yields_eq (f := doDriverWatch n) rfl (if_pos ?_)
    rcases h with h | h | h | h
    · exact .inl h
    · exact .inr (.inl (by rw [h]; rfl))
    · exact .inr (.inr (.inl (by rw [h]; rfl)))
    · exact .inr (.inr (.inr h))

end Machine
end Sys2Proof
end
